-- ==== Sys2Proof/Word.lean ====
section
/-! DEFINITION. The word types of the block: bytes of packets, records and memories, the 64-bit words of
mailboxes and registers, and the 32-bit halves of 64-bit registers (R7, R10, R11). -/

namespace Sys2Proof

/-- One byte of a packet, record, flit or memory (R7). -/
abbrev Byte := BitVec 8

/-- One 64-bit register or mailbox word (R10, R69). -/
abbrev Word := BitVec 64

/-- One 32-bit half of a register, and one FP32 bit pattern (R11, R228). -/
abbrev Half := BitVec 32

end Sys2Proof
end

