-- ==== Sys2Proof/Syntax.lean ====
section
/-! DEFINITION. The commands of the block: one constructor of `Instr` for each row of spec/opcode_table.json,
with the operands that the row's rule gives it, and the plain data types of those operands. -/

namespace Sys2Proof

/-- The two products of the manual (R1): the Hixel-2 Telemetry Unit and the Vangor TA-64 Tray Aggregator. -/
inductive UnitId where
  | htu
  | vta
deriving DecidableEq, Repr

/-- The source of a register access (R6, R94, R445): the host's register port, PCIe, Gorse, Bracken, or a
CONFIG_WRITE / CONFIG_READ entry of the mailbox named. -/
inductive Agent where
  | hreg
  | pcie
  | gorse
  | bracken
  | entry (mbx : Nat)
deriving DecidableEq, Repr

/-- A v2 request packet (R75) less its OPCODE, which the command's constructor names. PLEN is the length of
`params`. -/
structure Packet where
  flags     : BitVec 8
  tag       : BitVec 16
  target    : BitVec 16
  partition : BitVec 8
  role      : BitVec 8
  rsvd      : BitVec 16
  seq       : BitVec 32
  params    : List Byte
deriving DecidableEq, Repr

/-- A reply (R76) as it arrives from a peer on VC1 or in a mailbox 9 datagram. -/
structure ReplyMsg where
  opcode : BitVec 8
  status : BitVec 8
  tag    : BitVec 16
  detail : BitVec 32
  result : BitVec 32
  data   : List Byte
deriving DecidableEq, Repr

/-- A record or VC2 message: the header of R385 and the payload. LENGTH is fixed by the payload. `rsvd` tells that a reserved field of it
arrived non-zero (R8). -/
structure Rec where
  typ      : Nat
  ord      : Bool := false
  sig      : Bool := false
  loss     : Bool := false
  taint    : Bool := false
  timev    : Bool := false
  partial' : Bool := false
  degraded : Bool := false
  rstCo    : Bool := false
  die      : Nat := 0
  unit     : Nat := 0
  part     : Nat := 0
  stream   : Nat := 0
  epoch    : Nat := 0
  seq      : Nat := 0
  time     : Nat := 0
  payload  : List Byte := []
  rsvd     : Bool := false
deriving DecidableEq, Repr

/-- A time message of R137; `ts` is TS_NS and TS_FRAC together, in units of 2^-16 ns. -/
structure TimeMsg where
  timev : Bool
  lock  : Bool
  hold  : Bool
  seq   : Nat
  ts    : Nat
  inc   : Nat
deriving DecidableEq, Repr

/-- What a PTP Sync message carries (R144): t1 itself, t1 in a Follow_Up to come, or it is that Follow_Up. -/
inductive PtpForm where
  | oneStep
  | twoStep
  | followUp
deriving DecidableEq, Repr

/-- What every PTP message that an uplink receives shows (R144): whether it comes by UDP, whether it is a Pdelay, Signaling or Management
message, its domainNumber and its correctionField, which IEEE 1588 counts in 2^-16 ns. -/
structure PtpMsg where
  udp    : Bool
  other  : Bool
  domain : Nat
  corr   : Int
deriving DecidableEq, Repr

/-- The body of a Sync or Follow_Up (R144): its form, sequence number and time stamp in 2^-16 ns. -/
structure PtpTime where
  form : PtpForm
  seq  : Nat
  ts   : Nat
deriving DecidableEq, Repr

/-- The levels of R27 and R202 above the die. -/
inductive Level where
  | tray
  | rack
  | row
  | hall
deriving DecidableEq, Repr

/-- Identity of a sheaf at a merge point (R199): SHEAF_ID, partition, digest. -/
structure SheafKey where
  id     : Nat
  part   : Nat
  digest : Nat
deriving DecidableEq, Repr

/-- What one cycle of ENG_SNOOP shows in the operand phase (R223): column k of A, row k of B, and the shared
exponents of the blocks when the operands are block-scaled. -/
structure OpRow where
  a  : List Half
  b  : List Half
  ea : List Byte
  eb : List Byte
deriving DecidableEq, Repr

/-- The inputs that a tap station samples on one edge of its cluster clock (R40, R165, R223). -/
structure EdgeIn where
  tap : BitVec 16
  op  : Option OpRow
  res : Option (List Half)
  trc : Option (BitVec 8 × Word)
deriving DecidableEq, Repr

/-- An image that a start-up finds (R104, R109, R429): whether its signature by the Borxis firmware key verifies, its security version, and
its SHA-384 digest. -/
structure ImageInfo where
  signed : Bool := true
  svn    : Nat := 65535
  digest : BitVec 384 := 0
deriving DecidableEq, Repr

/-- What the environment decides about one start-up run (R62, R63, R411, R413, R428): the BOOT_FAIL code it ends in
(0 for a start that completes), whether the flash is blank, whether DDR5 trains only at 5,600 MT/s (R433), the Bracken images: one on the
HTU, one for each sward group on the VTA (one not listed passes its checks), and the patches in load order. -/
structure BootRun where
  fail     : Nat
  blank    : Bool
  slow     : Bool
  brackens : List ImageInfo
  patches  : List ImageInfo := []
deriving DecidableEq, Repr

/-- What the sideband reports of the peer at training (R373): its identification register and address, its
connection number, the lanes that failed and the measured asymmetry. -/
structure TrainRun where
  peer     : Bool
  part     : Nat
  gen      : Nat
  step     : Nat
  die      : Nat
  conn     : Nat
  laneFail : BitVec 32
  meas     : BitVec 16
deriving DecidableEq, Repr

/-- Who reads the word that proves uncorrectable (R405). -/
inductive MemReader where
  | gorse
  | brackenFetch (group : Nat)
  | brackenLoad (group : Nat)
  | dma (channel : Nat)
  | stepContext
  | mergeBuffer (level : Level) (key : SheafKey) (epoch : Nat)
  | traceChunk (chunk : Nat)
  | digest (entry : Nat)
  | leaf (bank : Nat) (entry : Nat)
  | heathArray (array : Nat)
  | table
  | register
  | command (mbx : Nat) (tag : Nat)
  | patrol
deriving DecidableEq, Repr

/-- The handshakes of R42. -/
inductive HsGroup where
  | drain
  | cap
deriving DecidableEq, Repr

/-- What a UDP datagram of the mailbox 9 port carries (R114, R317, R435). An SPDM message names the unit below
that sent it, or none for the holder of the role above. -/
inductive Datagram where
  | spdm (unitBelow : Option Nat) (bytes : List Byte)
  | command (opcode : BitVec 8) (p : Packet)
  | abortRequest (unitBelow : Nat) (params : List Byte)
  | reply (unitBelow : Nat) (r : ReplyMsg)
deriving DecidableEq, Repr

/-- The commands: one constructor for each row of spec/opcode_table.json, in the table's order. -/
inductive Instr where
  -- register accesses (R10 to R14, R162)
  | registerWrite (u : UnitId) (a : Agent) (off : Nat) (wide : Bool) (v : Word)
  | rcRead (u : UnitId) (a : Agent) (off : Nat) (wide : Bool)
  | groRead (u : UnitId) (a : Agent) (off : Nat) (wide : Bool)
  | misalignedAccess (u : UnitId) (a : Agent) (off : Nat) (size : Nat) (write : Bool)
  | lowHalfRead (u : UnitId) (a : Agent) (off : Nat)
  | lowHalfWrite (u : UnitId) (a : Agent) (off : Nat) (v : Half)
  | highHalfWrite (u : UnitId) (a : Agent) (off : Nat) (v : Half)
  | timNowRead (u : UnitId) (a : Agent) (wide : Bool)
  -- resets and start-up
  | hostRst (powerUp : Bool)
  | htuStart (b : BootRun)
  | policyStartApply (u : UnitId)
  | coreClockLoss
  -- mailboxes (R69 to R73)
  | mbxReqWrite (u : UnitId) (m : Nat) (a : Agent) (w : Word)
  | mbxDoorbell (u : UnitId) (m : Nat) (a : Agent)
  | mbxRspRead (u : UnitId) (m : Nat) (a : Agent)
  -- commands in packets (R96): unit, mailbox, packet
  | nop (u : UnitId) (m : Nat) (p : Packet)
  | ident (u : UnitId) (m : Nat) (p : Packet)
  | fence (u : UnitId) (m : Nat) (p : Packet)
  | fenceComplete (u : UnitId) (m : Nat) (lost : List (BitVec 16))
  | stopFunction (u : UnitId) (m : Nat) (p : Packet)
  | startFunction (u : UnitId) (m : Nat) (p : Packet)
  | functionDrained (u : UnitId) (fid : Nat)
  | drainLimitExpiry (u : UnitId) (fid : Nat)
  | configWrite (u : UnitId) (m : Nat) (p : Packet)
  | configRead (u : UnitId) (m : Nat) (p : Packet)
  | armCollector (u : UnitId) (m : Nat) (p : Packet)
  | disarmCollector (u : UnitId) (m : Nat) (p : Packet)
  | snapshotAt (u : UnitId) (m : Nat) (p : Packet)
  | sweepFull (u : UnitId) (m : Nat) (p : Packet)
  | sweepCapture
  | readStream (u : UnitId) (m : Nat) (p : Packet)
  | ackStream (u : UnitId) (m : Nat) (p : Packet)
  | timeStatus (u : UnitId) (m : Nat) (p : Packet)
  | pulseProgram (u : UnitId) (m : Nat) (p : Packet)
  | pulseCancel (u : UnitId) (m : Nat) (p : Packet)
  | pulseFiring (u : UnitId) (gen : Nat)
  | sentinelConfig (u : UnitId) (m : Nat) (p : Packet)
  | stepOpen (u : UnitId) (m : Nat) (p : Packet)
  | stepClose (u : UnitId) (m : Nat) (p : Packet)
  | digestCompare (u : UnitId) (m : Nat) (p : Packet)
  | selftestRun (u : UnitId) (m : Nat) (p : Packet)
  | treeLoad (u : UnitId) (m : Nat) (p : Packet)
  | featureTableLoad (u : UnitId) (m : Nat) (p : Packet)
  | scoreRun (u : UnitId) (m : Nat) (p : Packet)
  | modelSwap (u : UnitId) (m : Nat) (p : Packet)
  | powerCap (u : UnitId) (m : Nat) (p : Packet)
  | budgetShift (u : UnitId) (m : Nat) (p : Packet)
  | staggerRelease (u : UnitId) (m : Nat) (p : Packet)
  | startAt (u : UnitId) (m : Nat) (p : Packet)
  | traceArm (u : UnitId) (m : Nat) (p : Packet)
  | traceTrigger (u : UnitId) (m : Nat) (p : Packet)
  | tensorDump (u : UnitId) (m : Nat) (p : Packet)
  | compressFlush (u : UnitId) (m : Nat) (p : Packet)
  | logRead (u : UnitId) (m : Nat) (p : Packet)
  | logMark (u : UnitId) (m : Nat) (p : Packet)
  | scrubRange (u : UnitId) (m : Nat) (p : Packet)
  | retire (u : UnitId) (m : Nat) (p : Packet)
  | attest (u : UnitId) (m : Nat) (p : Packet)
  | policyLoad (u : UnitId) (m : Nat) (p : Packet)
  | keyRotate (u : UnitId) (m : Nat) (p : Packet)
  | quarantine (u : UnitId) (m : Nat) (p : Packet)
  | probation (u : UnitId) (m : Nat) (p : Packet)
  | leaseRenew (u : UnitId) (m : Nat) (p : Packet)
  | portHotplug (u : UnitId) (m : Nat) (p : Packet)
  | abortJob (u : UnitId) (m : Nat) (p : Packet)
  -- firmware and policy events
  | brackenFault (u : UnitId) (group : Nat)
  | brackenWatchdog (u : UnitId) (group : Nat)
  | lockstepMismatch (u : UnitId)
  | spdmHeartbeatTimeout (m : Nat)
  | spdmRetryTimeout (u : UnitId) (c : Nat)
  | peerAttest (port : Nat) (opcode : BitVec 8) (p : Packet)
  | segmentClose (u : UnitId) (stream : Nat)
  | policyApply (u : UnitId)
  | policyAssemblyTimeout (u : UnitId)
  | partitionChange
  -- cluster map and tap stations
  | mapCommit (a : Agent) (immediate : Bool)
  | mapApply
  | heartbeat (n : Nat)
  | clusterSilent (n : Nat)
  | clusterResumed (n : Nat)
  | fallowEntry (n : Nat)
  | fallowExit (n : Nat)
  | commandBoundary (n : Nat)
  | backgroundScan (n : Nat) (slice : Nat)
  | energyEstimate
  | capture (u : UnitId) (t : Nat)
  | periodicCapture (u : UnitId) (t : Nat)
  | trcSrcWord (n : Nat) (tag : BitVec 8) (w : Word)
  | laddExcWord (port : Nat) (w : BitVec 128) (full : Bool)
  | winSnoopWord (tag : BitVec 16) (w : BitVec 512) (last : Bool) (full : Bool)
  -- Sentinel
  | tileFirst (n : Nat) (fmt : BitVec 3)
  | resLast (n : Nat)
  | tileVerdict (n : Nat)
  | drainAck
  | stepOpenPulse (step : BitVec 32)
  | barrierDone
  | barrierArrival (n : Nat)
  -- sheaves, steps and notices
  | stepArrival (l : Level) (input : Nat) (r : Rec)
  | stepPendingReport (l : Level) (step : BitVec 32)
  | stepResult (u : UnitId) (r : Rec)
  | taintNotice (u : UnitId) (input : Nat) (r : Rec)
  | replayLost (input : Nat) (r : Rec)
  | sntReplayPop (a : Agent)
  | sheafPartial (l : Level) (input : Nat) (r : Rec)
  | mergeCutoff (l : Level) (k : SheafKey) (epoch : BitVec 32)
  | sheafResult (l : Level) (k : SheafKey) (epoch : BitVec 32)
  | membership (l : Level) (input : Nat) (r : Rec)
  | ladderEnter (u : UnitId)
  | ladderExit (u : UnitId)
  | ladder (u : UnitId) (level : Nat) (epoch : BitVec 32)
  | ladderApply (u : UnitId)
  -- scoring and verdicts
  | featureCutoff (period : Nat)
  | runSetComplete (period : Nat)
  | tcamScrub (bank : Nat) (differ : List Nat)
  | livenessCheck
  | jobStart (u : UnitId)
  | startNoReply (port : Nat)
  | startAtReplyDeadline
  | roleHeartbeat (l : Level)
  | roleTakeover (l : Level)
  | roleChange (r : Rec)
  -- power
  | controlPeriod
  | deferExpired
  | thermStale
  | capAck (slow : Bool)
  | handshakeLate (g : HsGroup)
  | settle
  | trimRequest (g : Nat)
  | ageMonDone (g : Nat) (count : BitVec 24)
  | releaseWave
  | droopDetClear (g : Nat)
  | droopForced
  | vwarnCrossing (rail : Nat)
  | vresetCrossing (rail : Nat)
  | brownoutResume (ns : Nat)
  -- replies, trace, dumps, archive
  | vc1Reply (u : UnitId) (port : Nat) (r : ReplyMsg)
  | postUsExpiry (u : UnitId)
  | readoutComplete (u : UnitId)
  | traceSync (u : UnitId)
  | dumpUnit (channel : Nat) (data : List Byte) (poisoned : Bool)
  | trcDumpHalt (a : Agent) (channel : Nat)
  | archiveSegmentClose (die : Nat) (unit : Nat) (stream : Nat)
  -- Furrow
  | training (u : UnitId) (k : Nat) (t : TrainRun)
  | trainingRetry (u : UnitId) (k : Nat) (t : TrainRun)
  | peerSense (u : UnitId) (k : Nat) (found : Bool)
  | forwardedClockLoss (u : UnitId) (k : Nat)
  | dataFlit (u : UnitId) (k : Nat) (flit : List Byte)
  | retryTimeout (u : UnitId) (k : Nat)
  | conn (u : UnitId) (k : Nat) (die : Nat) (number : BitVec 32)
  | bye (u : UnitId) (k : Nat)
  -- fleet time
  | sync (u : UnitId) (k : Nat) (m : TimeMsg) (sub : Nat)
  | dlyReq (u : UnitId) (k : Nat) (m : TimeMsg) (sub : Nat)
  | dlyResp (u : UnitId) (k : Nat) (m : TimeMsg)
  | exchangeInterval (u : UnitId) (k : Nat)
  | holdoverEntry (u : UnitId)
  | holdMaxExpiry (u : UnitId)
  | ptpSync (k : Nat) (m : PtpMsg) (gm : Word) (x : PtpTime) (sub : Nat)
  | ptpDelayResp (k : Nat) (m : PtpMsg) (seq ts : Nat)
  | ptpAnnounce (k : Nat) (m : PtpMsg) (gm : Word)
  | announceTimeout (k : Nat)
  | switch (u : UnitId) (a : Agent)
  | srcPref (u : UnitId) (a : Agent) (v : BitVec 2)
  | switchGate
  | switchBackToPortA
  | timeSourceLoss (u : UnitId)
  | timeSourceReturn (u : UnitId)
  | pllLockLoss (u : UnitId) (k : Nat)
  | timePortWaitExpiry
  -- transport and scheduling
  | timeGate (u : UnitId)
  | recordIngress (port : Nat) (colour : BitVec 2) (r : Rec)
  | gapWaitExpiry (die : Nat) (unit : Nat) (stream : Nat)
  | queueSample (u : UnitId)
  | noPathTimeout (u : UnitId) (c : Nat)
  -- stored data and event records
  | memCe (u : UnitId) (region : Nat) (off : Nat) (bits : Nat)
  | memUe (u : UnitId) (region : Nat) (off : Nat) (bits : Nat) (reader : MemReader)
  | patrol (u : UnitId) (region : Nat) (ce : List (Nat × Nat)) (ue : List (Nat × Nat))
  | foldClose (u : UnitId) (slot : Nat)
  | foldCommit (u : UnitId) (slot : Nat)
  | pageClose (u : UnitId)
  | journalEntry (u : UnitId)
  -- the VTA device
  | fundamentalReset (powerOn : Bool)
  | vtaStart (b : BootRun)
  | referenceLoss
  | refLost
  | perst
  | pcieLinkUp
  | thermalSample (codes : List (BitVec 10))
  | hotplugAddTimeout (u : UnitId) (k : Nat)
  | mailbox9Datagram (d : Datagram)
  | ackFall (g : HsGroup)
  | armTime (u : UnitId) (c : Nat)
  | stepStartTime
  | clusterClockEdge (n : Nat) (e : EdgeIn)
  | timeDomainTick (u : UnitId)
  | flitSlot (u : UnitId) (k : Nat)
  | thermUpdate (codes : List (BitVec 10))
  | droopDetRise (g : Nat)
  | pllReady (u : UnitId) (k : Nat)
  | ptpDelayReq (sub : Nat)
  | referenceReturn
  | pcieLinkDown
  | controlListEntry (k : Nat) (entry : Nat)
  | deviceTemperature (celsius : Int)
deriving DecidableEq, Repr

end Sys2Proof
end

