-- ==== Sys2Proof/Decode.lean ====
section
/-! DEFINITION. The command that a word spells by the opcode table's bits. No row of spec/opcode_table.json gives bits: the commands
reach the block as register accesses, packets, pins and messages, so no word spells one. Packets are read by `parseV2` and `parseV1`. -/

namespace Sys2Proof

/-- The command that the bits `w` of a row spell: none, since no row of the table gives bits. -/
def decodeTableWord (_nbits _w : Nat) : Option Instr := none

end Sys2Proof
end

