-- ==== Sys2Proof/Config.lean ====
section
/-! DEFINITION. What an implementation or a chip fixes and the manual does not: fuse contents, results the manual
leaves open (free values), and the functions of the external standards it names (SHA-384, ECDSA, SPDM, DEFLATE,
signed-policy section bodies). Every constant here is `opaque`: no proof can see a value. -/

namespace Sys2Proof

/-- A collector that the COLLECTORS section names (R117, R121): the ARM_COLLECTOR parameters that Gorse applies and
the SHF_COLL settings. -/
structure PolCollector where
  cid    : Nat
  part   : Nat
  params : List Byte
  shf    : Word
  p0     : Word
deriving DecidableEq, Repr

/-- The stream settings that the COLLECTORS section names for a register-named stream (R446). -/
structure PolStream where
  sid    : Nat
  ord    : Bool
  sig    : Bool
  host   : Bool
  retain : Bool
deriving DecidableEq, Repr

/-- One gate-control entry of an uplink (R436): gate states and duration in ns. -/
structure QbvEntry where
  gates : BitVec 8
  ns    : Nat
deriving DecidableEq, Repr

/-- The gate-control list of an uplink (R436): entries, cycle time in µs, and base time in fleet ns. -/
structure QbvList where
  entries : List QbvEntry := []
  cycle   : Nat := 1
  base    : Nat := 0
deriving DecidableEq, Repr

/-- The addressing of the Ethernet uplinks (R434, R435): an IPv6 address for each uplink, the VLAN of the one tag, the destination addresses
(0 the unit above, 1 the units below together, 8 + level the standby of a role, 256 × level + input one unit below), and the destination port of each traffic class. -/
structure NetPolicy where
  ip    : List (BitVec 128) := []
  vlan  : Option (BitVec 12) := none
  dst   : List (Nat × BitVec 128) := []
  ports : List (BitVec 16) := []
deriving DecidableEq, Repr

/-- What the sections of a signed policy say (R121); `pec` holds the SMBus targets whose entries mark packet error checking (R439). The manual fixes the section headers and the REGISTERS entries,
and leaves the layout of the other bodies open. -/
structure PolicyBody where
  dieId      : Option Nat := none
  partitions : List Nat := []
  clusters   : Option (List Nat) := none
  grants     : Option (List (Nat × Nat)) := none
  roots      : List (Nat × Nat) := []
  collectors : List PolCollector := []
  streams    : List PolStream := []
  sliceCodes : List (BitVec 8) := []
  sentinel   : Option (List Byte) := none
  startFns   : List Nat := []
  budget     : Option (Nat × Nat) := none
  roles      : List (Level × Nat × Nat) := []
  windows    : List (Nat × Nat × Nat) := []
  regs       : List (Nat × Nat × Word) := []
  svn        : Option (Nat × Nat) := none
  imageSet   : Option (List Byte) := none
  qbv        : List (Nat × QbvList) := []
  net        : NetPolicy := {}
  pec        : List (BitVec 7) := []
deriving DecidableEq, Repr

/-- A Heath job as its descriptor and weights say (R288): kind, format (R224, or 5 for INT8), INT32 accumulation, the INT8 exponent
S, first output, GRAM window, input features, PROJ mean, and matrices by rows (PROJ: U; MLP: one per layer). -/
structure HeathJob where
  kind   : Nat
  fmt    : Nat
  int32  : Bool
  scale  : Int
  base   : Nat
  window : Nat
  feats  : List Nat
  mean   : List Half
  layers : List (List (List Half))
deriving DecidableEq, Repr

end Sys2Proof

namespace Sys2Proof.Config

/-- The first of the two consecutive MAC addresses in the fuses of the VTA (R434). -/
opaque macFuse : BitVec 48

/-- The manufacturer code in the JTAG IDCODE of the VTA (R439, IEEE 1149.1). -/
opaque jtagMaker : BitVec 11

/-- The free value number `n`: applied to the counter `State.free`, which the draw advances. -/
opaque freeNat (n : Nat) : Nat

/-- HEDGE_DIST of station `n` less 1, so that the distance lies in 1 to 40 (R47, R56; fuse). -/
opaque hedgeFuse (n : Nat) : Fin 40

/-- Free value: core cycles that a sward group has retired by a tick (VTA_SWG.CYCLES): they follow its program. Log entry 146. -/
opaque coreCycles (g : Nat) (tick : Nat) : BitVec 64

/-- Frequency of PWR_VF entry `i` above the entry before it, in MHz (R322; fuse). -/
opaque vfMhzStep (i : Nat) : Nat

/-- Voltage of PWR_VF entry `i` above the entry before it, in mV (R322; fuse). -/
opaque vfMvStep (i : Nat) : Nat

/-- PWR_FMAX fuse of physical cluster `n` in MHz (R328; fuse). -/
opaque fmaxFuse (n : Nat) : BitVec 16

/-- PWR_GRP[g].FMAX_FUSE in MHz (R329; fuse). -/
opaque grpFmaxFuse (g : Nat) : BitVec 16

/-- PWR_GRP[g].AGE_BASE (R329; fuse). -/
opaque ageBase (g : Nat) : BitVec 24

/-- PWR_TRIM.REF_IDX (R329; fuse). -/
opaque trimRefIdx : BitVec 4

/-- PWR_VMON[r]: VWARN_MV, VRESET_MV and HYST_MV (R345; fuse). -/
opaque vmonFuse (r : Nat) : BitVec 16 × BitVec 16 × BitVec 16

/-- SEC_SVN at reset: PATCH_SVN and BRACKEN_SVN fuses of the unit (R104, R109). -/
opaque svnFuse (u : UnitId) : BitVec 16 × BitVec 16

/-- MEM_BCH_CFG.DDR_T fuse, REPAIR_LEFT fuse, and the flash t of the unit's format header (R403). -/
opaque bchFuse (u : UnitId) : BitVec 7 × BitVec 8 × BitVec 7

/-- Stream contexts of a unit, as PARAM1 of its sheaf capability reports them (R101 gives no number). -/
opaque streamContexts (u : UnitId) : BitVec 32

/-- VTA_SWC[p].GROUP fuse (R421). -/
opaque swcGroup (p : Nat) : BitVec 5

/-- This VTA's row, rack and tray, bits 16:6 of the die IDs of its tray (R21, R34; the manual names no source). -/
opaque vtaAddr : BitVec 11

/-- The latency between the PCS and the MDI of an uplink at its rate, in 2^-16 ns (R146 gives no number). -/
opaque mdiLatency (uplink : Nat) : Nat

/-- SHA-384 of a byte string (FIPS 180-4), as a 384-bit number whose byte 0 is the digest's first byte. -/
opaque sha384 (bytes : List Byte) : BitVec 384

/-- The ECDSA P-384 signature r followed by s (FIPS 186-5), 96 bytes, of `bytes` under RSK number `key` of unit `u`. -/
opaque rskSign (u : UnitId) (key : Nat) (bytes : List Byte) : BitVec 768

/-- The RSK key ID: the first 8 bytes of SHA-384 of RSK public key number `key` (R126). -/
opaque rskKeyId (u : UnitId) (key : Nat) : BitVec 64

/-- The X.509 certificate of RSK number `key`, signed by the Alias key of this CDI, at most 2 KiB (R107, R128). -/
opaque rskCert (u : UnitId) (key : Nat) (aliasCdi : BitVec 384) : List Byte

/-- The unique device secret in the fuses of a unit (R107). -/
opaque uds (u : UnitId) : BitVec 384

/-- SHA-384 of the ROM of a unit (R107, R110). -/
opaque romDigest (u : UnitId) : BitVec 384

/-- HMAC-SHA-384 (FIPS 198-1) of a message under a 384-bit key (R107). -/
opaque hmac384 (key : BitVec 384) (message : List Byte) : BitVec 384

/-- Whether a signature block (certificate chain, r, s) verifies over `bytes` and chains to the root whose hash is
`root` (R104, R121, R267). The last field of R121 and R268 does not fix where the chain ends, so the block is passed whole. -/
opaque sigVerifies (root : Nat) (bytes : List Byte) (block : List Byte) : Bool

/-- What the sections of a policy image say; `none` when a body is malformed (R121 gives no layout of the bodies). -/
opaque policyBody (image : List Byte) : Option PolicyBody

/-- Whether the certificate that the peer showed in session number `n` chains to the root that policy lists for the role
(R115). -/
opaque sessionRole (n : Nat) (role : Nat) (root : Nat) : Bool

/-- How many bytes of an image's tail are its signature block (R121, R268: a chain of at most 4 KiB and 96 bytes). -/
opaque sigBlockLen (image : List Byte) : Nat

/-- The response of the SPDM responder (DSP0274) number `n` of unit `u` to one request message that it supports, with the measurements
(index, digest) that it reports (R110 to R112). -/
opaque spdmResponse (u : UnitId) (n : Nat) (meas : List (Nat × BitVec 384)) (request : List Byte) : List Byte

/-- The plaintext of a secured message of session number `n` under key generation `gen` (DSP0274, DSP0277); none where it fails (R113). -/
opaque unwrap (n gen : Nat) (message : List Byte) : Option (List Byte)

/-- The heartbeat period of SPDM sessions in time-domain ticks (DSP0274's HeartbeatPeriod; R113 gives no number). -/
opaque heartbeatTicks : Nat

/-- The request message number `n` of unit `u` as requester, message `step` of the sequence of R114. -/
opaque spdmRequest (u : UnitId) (n : Nat) (step : Nat) : List Byte

/-- Whether the secured message or session step `n` is accepted (R113, R114). -/
opaque spdmAccepts (u : UnitId) (n : Nat) (request : List Byte) : Bool

/-- A raw DEFLATE stream for one unit of input (R364); the manual lets the engine choose among the encodings. -/
opaque deflate (fixedOnly : Bool) (input : List Byte) : List Byte

/-- How a byte string that TREE_LOAD or a slot signer names is attributed to the provider root (R267). -/
opaque providerRoot : Nat

/-- How the quotient num / den of a time computation is rounded when it is not exact: the counter step, TIM_OFFSET and
TIM_DELAY of R139 and R140, and a tie in the rounding of INC (R140 states a rule for none of them): true takes the upper of the
two nearest integers. -/
opaque timeRound (num : Int) (den : Nat) : Bool

/-- How Pm is rounded when the energy of a control period is no whole number of mW (R331 states no rule): true takes the upper
of the two nearest integers. -/
opaque powerRound (num den : Nat) : Bool

/-- The rounding of a modelled energy in fJ when the division by V_NOM² leaves a remainder (R178 states none). -/
opaque energyRound (num den : Nat) : Nat

/-- Field `k` (first sequence, last sequence, fleet time) of the header of page `i` of an archive segment of these records in which no
record is known to begin (R370 states none). -/
opaque archiveField (recs : List Rec) (i k : Nat) : Nat

/-- The shared exponent a Heath array picks for one block of 32 elements under the block-scaled format (R287 names
the format and states no rule for the exponent). -/
opaque blockExponent (xs : List Half) : BitVec 8

/-- A Heath job read from its descriptor and the image that holds its weights; `none` where the descriptor is invalid. R288 names
what a descriptor holds and gives no layout of it or of the weights. -/
opaque heathJob (desc image : List Byte) : Option HeathJob

/-- What a value beyond the range of Heath input format `fmt` converts to (R287 states none). -/
opaque heathOverflow (fmt : Nat) (x : Half) : Half

/-- The FP32 output of an INT32 accumulator with exponent S (R287 states no scaling). -/
opaque heathInt (s : Int) (acc : Int) : Half

/-- The verdict of self-test pattern `tile` on lane `n` at self-test number `k`: true when the lane answers as R259
expects of it (the ROM pattern and the silicon fix this). -/
opaque selftestLane (k : Nat) (n : Nat) (tile : Nat) : Bool

/-- Whether the CRC-64 vectors (`which` = 1) and the polynomial-digest vectors (2) of self-test number `k` agree (R259). -/
opaque selftestDigest (k : Nat) (which : Nat) : Bool

/-- Whether the `n`-th rewritten TCAM entry reads back equal (R298). -/
opaque tcamReadsBack (n : Nat) : Bool

end Sys2Proof.Config
end

