-- ==== Sys2Proof/Machine/State.lean ====
section
/-! DEFINITION. The state of the block as plain data: one HTU and one VTA, each with its registers, mailboxes, time
servo, streams, ports and recorder, the parts that only one of them has, and the queue of commands that wait.
A table with an entry for every number of a range is held sparse: a list of (number, value) with rising numbers, where a
number that is not listed has the table's default. -/

namespace Sys2Proof.Machine

/-- Why a step stops with a fault. -/
inductive Fault where
  /-- Raised by every meaning whose operand names an instance the unit does not have (a mailbox, port, station, generator,
  bank or rail past the last). No agent of the manual can send such a command. Safe. -/
  | noSuchInstance
deriving DecidableEq, Repr

/-- Why a step is refused. -/
inductive Refusal where
  /-- Raised by an arm of `exec` whose command has no meaning yet. Safe. -/
  | notModelled (mnemonic : String)
deriving DecidableEq, Repr

/-- A four-state function (R91). -/
inductive FnSt where
  | stopped
  | running
  | draining
  | faulted
deriving DecidableEq, Repr

/-- A function of R89: its state, and the stop command that waits for it (mailbox, tag) with its DRAIN_LIMIT. -/
structure Fn where
  st      : FnSt := .stopped
  stopper : Option (Nat × BitVec 16) := none
  limit   : Nat := 0
  disarm  : Bool := false
deriving DecidableEq, Repr

/-- A command that is outstanding on a mailbox (R71): accepted, its final reply not yet posted. -/
structure Outst where
  tag    : BitVec 16
  opcode : Nat
  flags  : BitVec 8
  target : BitVec 16
  part   : Nat
  role   : Nat
  first  : Bool
  need   : Nat
  discard : Bool := false
deriving DecidableEq, Repr

/-- A mailbox (R68 to R74): words written since the last commit, committed packets not yet taken, outstanding commands,
taken commands that wait for ORD or a FENCE, visible replies (words left, reply-data bytes to free), and the SPDM session: KEY_EXCHANGE
came, the session is open, its number, how far the requester's chain has been taken (0 none, 1 GET_DIGESTS and 2 GET_CERTIFICATE asked, 3
taken; R111), its KEY_UPDATEs, and the tick of the latest HEARTBEAT. `effects` holds the commands that started and whose effects no FENCE
has covered yet: tag and target (R85). -/
structure Mbx where
  words   : List Word := []
  spilled : Bool := false
  waiting : List (Nat × Packet) := []
  outst   : List Outst := []
  held    : List (Nat × Packet) := []
  replies : List (List Word × Nat) := []
  keyEx   : Bool := false
  bound   : Bool := false
  sessNo  : Nat := 0
  chain   : Nat := 0
  keyGen  : Nat := 0
  beat    : Nat := 0
  effects : List (BitVec 16 × BitVec 16) := []
deriving DecidableEq, Repr

/-- One source selection entry of a collector (R180, R190). -/
structure Sel where
  kind   : Nat
  source : Nat
  event  : Nat
  delta  : Bool
  perClu : Bool
  cmd    : Bool
  first  : Nat
  last   : Nat
deriving DecidableEq, Repr

/-- An armed collector (R95, R117, R180 to R184). `bases` holds the DELTA bases by (entry × 256 + cluster). -/
structure Coll where
  cid     : Nat
  stream  : Nat
  ord     : Bool
  sig     : Bool
  host    : Bool
  retain  : Bool
  op      : Nat
  period  : Nat
  arm     : Nat
  sels    : List Sel
  part    : Nat
  role    : Nat
  mbx     : Nat
  gorse   : Bool
  reply   : Option (BitVec 16)
  skipped : Nat := 0
  bases   : List (Nat × Word) := []
  /-- The collector's JOIN has been announced (R210, R221). -/
  joined  : Bool := false
  /-- The instant of its latest capture (R211). -/
  lastT   : Option Nat := none
deriving DecidableEq, Repr

/-- Which register names a register-named stream, or which collector owns it (R446). -/
inductive StreamOwner where
  | collector (c : Nat)
  | sentinel
  | power
  | pulse
  | trace (p : Nat)
  | score (v : Nat)
  | verdict
  | straggler
deriving DecidableEq, Repr

/-- A stream context (R386, R395, R446) with its signed chain (R124 to R126): arm time, chain value, value at segment start, first and last
sequence and record count of the open segment and its start instant, and the range of records dropped and not yet reported. -/
structure Stream where
  owner    : StreamOwner
  part     : Nat
  svc      : Nat
  bracken  : Bool
  /-- The role whose merge point produces the stream: 0 tray, 1 rack, 2 row, 3 hall (R34, R385). -/
  rank     : Nat := 0
  ord      : Bool
  sig      : Bool
  host     : Bool
  retain   : Bool
  seq      : Nat := 0
  armT     : Nat := 0
  chain    : BitVec 384 := 0
  segStart : BitVec 384 := 0
  segFirst : Nat := 0
  segLast  : Nat := 0
  segCount : Nat := 0
  segTime  : Nat := 0
  /-- Ticks at the segment's first record, and whether TIMEV was 1 there. -/
  segTick  : Nat := 0
  segLive  : Bool := false
  lossFrom : Option (Nat × Nat × Nat) := none
  hostLoss : Option (Nat × Nat) := none
deriving DecidableEq, Repr

/-- A record waiting in a bulk transmit queue (R388): partition, service, VC, and the fleet time at which it was queued. -/
structure QItem where
  part : Nat
  svc  : Nat
  vc   : Nat
  at'  : Nat
  r    : Rec
deriving DecidableEq, Repr

/-- What a schedule comparator entry does at its instant (R83, R163). -/
inductive SKind where
  | snapshot (part : Nat) (role : Nat)
  | periodic (arm : Nat) (period : Nat)
  | armTime (c : Nat)
  | job (dup : Bool)
  | step (number : BitVec 32)
  | digest (tag : BitVec 16) (mask : Word) (scope : Nat)
  | pulseSnap (part : Nat) (role : Nat)
  | sweep (stream : Nat)
deriving DecidableEq, Repr

/-- A schedule comparator entry: instant, action, and the command (mailbox, tag) whose final reply it posts. -/
structure Sched where
  t    : Nat
  kind : SKind
  cmd  : Option (Nat × BitVec 16)
deriving DecidableEq, Repr

/-- The internal part of a pulse generator (R157, R158): the programmed start (ns and 2^-16 ns), the number of the next
firing, the partition, role and mailbox of the PULSE_PROGRAM, whether the capture of the next firing stands, and its tag while
its reply is open. -/
structure Gen where
  start : Nat
  frac  : Nat
  fired : Nat
  part  : Nat
  role  : Nat
  mbx   : Nat
  snap  : Bool := false
  tag   : Option (BitVec 16)
deriving DecidableEq, Repr

/-- The time exchange of one port or uplink (R136 to R142, R145). Stamps are in 2^-16 ns. -/
structure Servo where
  seqOut : Nat := 0
  t1     : Nat := 0
  t2     : Nat := 0
  t3     : Option (Nat × Nat) := none
  /-- A SYNC, or a PTP Sync with its Follow_Up, has come since the last complete exchange (R139). -/
  sync   : Bool := false
  /-- A two-step Sync that waits for its Follow_Up: sequence number, t2, correctionField (R144). -/
  wait   : Option (Nat × Nat × Int) := none
  mTimev : Bool := false
  mInc   : Nat := 0
  good   : Nat := 0
  bad    : Nat := 0
  missed : Nat := 4
  /-- Intervals since the last complete exchange with master TIMEV = 1 (R149). -/
  sinceV : Nat := 4
  lastOff : Int := 0
  corr   : Int × Nat := (0, 1)
  stepped : Bool := true
  annMiss : Nat := 0
deriving DecidableEq, Repr

/-- A packet in a connection's transmit queue (R379, R381): VC, bytes, COLOUR and scheduler queue (partition × 8 + service), PKT once it was first sent, flits already sent, and
the FSEQ of its LAST flit once that was sent. -/
structure TxPkt where
  vc    : Nat
  bytes : List Byte
  colour : Nat := 0
  queue : Option Nat := none
  pkt   : Option Nat := none
  sent  : Nat := 0
  last  : Option Nat := none
deriving DecidableEq, Repr

/-- A command that this unit forwarded to a peer and whose final reply it awaits (R314, R340, R378). -/
structure Fwd where
  peer   : Nat
  tag    : BitVec 16
  opcode : Nat
  cmd    : Option (Nat × BitVec 16)
  packet : Packet
deriving DecidableEq, Repr

/-- A connection (R374, R377, R381, R382): the die ID and the peer's connection number, the path (port) in use and its FWD, PKT numbers
in both directions with the 256-bit duplicate map, transmit packets, packets received in part by VC with their PKT, and cumulative
flit counts: flits sent on VC v under v, the peer's CCOUNT of v under 8 + v, flits freed here on v under 16 + v. -/
structure Conn where
  die    : Nat := 0
  peerNo : Option (BitVec 32) := none
  path   : Option Nat := none
  fwd    : Bool := false
  pktTx  : Nat := 0
  pktHi  : Option Nat := none
  pktMap : BitVec 256 := 0
  tx     : List TxPkt := []
  credit : List (Nat × Nat) := []
  rx     : List (Nat × List Byte) := []
  rxPkt  : List (Nat × Nat) := []
  fwds   : List Fwd := []
  tagOut : Nat := 0
  seqOut : Nat := 0
  fromZero : Bool := false
  /-- Epoch buffers of VC2 in use (R209): the epoch and the flits whose space is freed when its merge completes. -/
  owed   : List (Nat × Nat) := []
deriving DecidableEq, Repr

/-- The link side of a Furrow port (R375 to R380, R383): hop sequences, the retry buffer (FSEQ, flit), retries in a row,
a CONTROL queue, the relay queue, and why the port is held down. -/
structure Port where
  fseqTx  : Nat := 0
  fseqRx  : Nat := 0
  retry   : List (Nat × List Byte) := []
  resend  : List (Nat × List Byte) := []
  nakOut  : Bool := false
  retries : Nat := 0
  ctl     : List (List Byte) := []
  time    : List (List Byte) := []
  relay   : List (List Byte) := []
  refused : Bool := false
  byed    : Bool := false
  add     : Option (Nat × BitVec 16) := none
  slots   : Nat := 0
  /-- Scheduler queues that link energy is charged to: of the flits in the retry buffer by FSEQ, and of the packets relayed by VC (R179). -/
  retryQ  : List (Nat × Nat) := []
  relayQ  : List (Nat × Nat) := []
deriving DecidableEq, Repr

/-- An event record (R414). `ext` holds the fleet times of the TIMEX extension. -/
structure EvRec where
  typ     : Nat
  hours   : Nat
  cycles  : Nat
  repeat' : Nat
  folded  : Bool
  deferred : Bool
  retained : Bool
  ext     : Option (Nat × Nat)
  payload : List Byte
  trunc   : Bool := false
deriving DecidableEq, Repr

/-- A fold slot (R415): the first occurrence, the latest payload and time, and the repeats since the first. -/
structure Fold where
  first   : EvRec
  latest  : List Byte
  latestT : Nat
  tick    : Nat
  count   : Nat
deriving DecidableEq, Repr

/-- A flash page of the last area (R417): sector sequence number and its records. -/
structure FlashPage where
  seq  : Nat
  recs : List EvRec
deriving DecidableEq, Repr

/-- The event recorder (R411 to R420): the first area, last-area pages oldest first, the staging buffer, its dropped count, latest
occurrences (record, time in ticks) and fold slots, the control area (journal HOURS and CYCLES, retired tap stations, remaps by
RETIRE kind, region and index, quarantine history), the policy store, the image set stored last (R429), and the retained flag of R106. -/
structure Evr where
  firstArea : List EvRec := []
  pages     : List FlashPage := []
  staged    : List EvRec := []
  dropped   : Nat := 0
  recent    : List (EvRec × Nat) := []
  slots     : List Fold := []
  jHours    : Nat := 0
  baseHours : Nat := 0
  bucketT   : Nat := 0
  jCycles   : Nat := 0
  retired   : List Nat := []
  remaps    : List (Nat × Nat × Nat) := []
  quarHist  : List (Nat × Nat) := []
  policy    : Option (List Byte) := none
  images    : Option (List Byte) := none
  retLock   : Bool := false
deriving DecidableEq, Repr

/-- A trace packet (R352). -/
structure TPkt where
  src   : Nat
  typ   : Nat
  tag   : Nat
  delta : Nat
  words : List Word
deriving DecidableEq, Repr

/-- A 4 KiB trace chunk (R352, R353): number, base time, its TIMEV, packets, whether it holds an uncorrectable word. -/
structure Chunk where
  no    : Nat
  base  : Nat
  timev : Bool
  pkts  : List TPkt
  media : Option Nat := none
deriving DecidableEq, Repr

/-- The trace buffer (R352 to R359): closed chunks before the trigger, the open chunk, post chunks, words lost per
source since its last OVERFLOW, words dropped at a full post region, readout progress, and the arming role. -/
structure Trace where
  chunks : List Chunk := []
  cur    : Option Chunk := none
  post   : List Chunk := []
  lost   : List (Nat × Nat × Nat) := []
  postLost : Nat := 0
  nextNo : Nat := 0
  queued : Bool := false
  sent   : Nat := 0
  role   : Nat := 0
  since  : Nat := 0
  stopper : Bool := false
  /-- The funnel's bytes in the present span of 1,250 ticks, by the span's number (R351). -/
  flow   : Nat × Nat := (0, 0)
deriving DecidableEq, Repr

/-- Sheaf degradation (R218 to R220): the own level and the pushed level as they were last decided, those in force, the changes that are
scheduled, in order of their apply epoch (epoch, pushed, level), and the occupancy as sampled. -/
structure Ladder where
  own    : Nat := 0
  pushed : Nat := 0
  ownIn  : Nat := 0
  pushIn : Nat := 0
  pend   : List (Nat × Bool × Nat) := []
  occ    : Nat := 0
deriving DecidableEq, Repr

/-- Signed policy (R120 to R123): the content in force, an accepted image and its content waiting for its epoch, and the
assembly under way (mailbox, TOTAL, bytes so far). -/
structure Pol where
  body    : Option PolicyBody := none
  pend    : Option (Nat × Nat × PolicyBody × List Byte) := none
  asm     : Option (Nat × Nat × List Byte) := none
deriving DecidableEq, Repr

/-- A Bracken image (R104, R105): whether it runs, its faults in this power cycle, and when its last instruction-fetch trap came, in
ticks. -/
structure Bracken where
  running : Bool := false
  faults  : Nat := 0
  trapT   : Option Nat := none
deriving DecidableEq, Repr

/-- A planned time-source switch (R149 to R151): the target port, the tick of the request, and whether the mux has moved. -/
structure SwitchReq where
  target : Nat
  since  : Nat := 0
  moved  : Bool := false
deriving DecidableEq, Repr

/-- The frame of a datagram on an uplink (R434, R435): Ethernet with at most one 802.1Q tag (its VLAN), IPv6 and UDP. -/
structure Frame where
  mac  : BitVec 48
  vlan : Option (BitVec 12)
  pcp  : Nat
  src  : BitVec 128
  dst  : BitVec 128
  port : BitVec 16
deriving DecidableEq, Repr

/-- What a unit has sent to an agent outside the model; `ether` is what a frame on an uplink carries; the SPDM peer is 0 for the holder of the role above, or 64 and up for a unit
below. -/
inductive Out where
  | barrierRel (groups : BitVec 16)
  | replayReq (step : BitVec 32)
  | stepClean (clean : Bool)
  | pps (gen : Nat)
  | flit (port : Nat) (bytes : List Byte)
  | hdmaWrite (addr : Nat) (bytes : List Byte)
  | capReq (code : BitVec 8)
  | drainReq
  | ageReq (group : Nat)
  | msix (vector : Nat)
  | irq (mbx : Nat) (high : Bool)
  | hdmaRead (addr : Nat) (len : Nat)
  | ethRec (up : Bool) (r : Rec)
  | ethCmd (unitBelow : Nat) (opcode : Nat) (p : Packet)
  | ethAbort (params : List Byte)
  | ethReply (r : ReplyMsg)
  | spdm (peer : Nat) (bytes : List Byte)
  | heartbeat (l : Level)
  | delayReq (uplink : Nat) (seq : Nat)
  | ether (frame : Frame) (body : Out)
deriving DecidableEq, Repr

/-- The state that both units have. -/
structure Dev where
  /-- The unit's reset is asserted (HOST_RST; VTA_RST_N or a fundamental reset; R39, R64, R426). -/
  inReset : Bool := true
  /-- The value that the latest register read returned. -/
  bus     : Word := 0
  /-- High halves latched by low-half reads, per agent and register (R11). -/
  hiLatch : List (Agent × Nat × Half) := []
  /-- Low halves written and held, per agent and register (R11). -/
  loHeld  : List (Agent × Nat × Half) := []
  /-- TIM_NOW_FRAC as latched per agent (R162). -/
  fracs   : List (Agent × BitVec 16) := []
  /-- The fleet-time counter: 64-bit ns and 32 fraction bits (R130, R131). -/
  cnt     : BitVec 96 := 0
  /-- Time-domain ticks since the unit's start (R155, R178, R308). -/
  ticks   : Nat := 0
  /-- The fraction of the last published time (R161). -/
  pubFrac : BitVec 16 := 0
  /-- The HTU sets up time on whichever port comes up first (R155). -/
  anyPort : Bool := false
  /-- The time-domain clock is gated or lost (R150, R153). -/
  gated   : Bool := true
  /-- Fleet time when TIMEV last set, in ns (R299). -/
  validSince : Nat := 0
  /-- The counter has stepped since the unit's start (R143). -/
  stepped : Bool := false
  /-- An exchange has set the time since the unit's start (R155). -/
  timeSet : Bool := false
  /-- Exchange state per port or uplink (R136, R145). -/
  servos  : List (Nat × Servo) := []
  /-- A planned time-source switch under way (R150). -/
  sw      : Option SwitchReq := none
  /-- Schedule comparators (R163). -/
  sched   : List Sched := []
  /-- Entries that a step or a switch gap passed over, to be completed with DEADLINE_PASSED (R143, R151). -/
  passed  : List Sched := []
  /-- Capture instants taken on this unit (R36, R143). -/
  taken   : List Nat := []
  /-- Time gates open around capture instants (R389). -/
  gate    : Option Nat := none
  /-- Mailboxes (R68). -/
  mbx     : List (Nat × Mbx) := []
  /-- Functions by function ID (R89 to R91). -/
  fns     : List (Nat × Fn) := []
  /-- Armed collectors by collector number. -/
  colls   : List (Nat × Coll) := []
  /-- Stream contexts by stream ID (R446). -/
  streams : List (Nat × Stream) := []
  /-- Pulse generators that are not IDLE (R157). -/
  gens    : List (Nat × Gen) := []
  /-- The connection number: the unit's own resets (R373). -/
  connNo  : BitVec 32 := 0
  /-- Furrow ports (R372 to R384). -/
  ports   : List (Nat × Port) := []
  /-- Connections: key 0 on the HTU; the die's own port number on the VTA (R381). -/
  conns   : List (Nat × Conn) := []
  /-- Bulk transmit queues, in commit order (R388); on the VTA, records bound for the uplink. -/
  bulk    : List QItem := []
  /-- Token buckets in bytes by partition × 8 + service, partition bucket at service 7 (R388). -/
  buckets : List (Nat × Nat) := []
  /-- DRR deficits in bytes, keyed as the buckets (R388). -/
  deficit : List (Nat × Nat) := []
  /-- The last partition and service served (R388). -/
  rrPtr   : Nat × Nat := (0, 0)
  /-- Records of RETAIN streams, oldest first (R387). -/
  retain  : List Rec := []
  /-- The latest sequence acknowledged, by partition × 2^16 + stream (R398). -/
  acks    : List (Nat × Nat) := []
  /-- READ_STREAM remainders: partition × 2^16 + stream and bytes not yet returned (R397). -/
  remains : List (Nat × List Byte) := []
  /-- The event recorder (R411 to R420). -/
  evr     : Evr := {}
  /-- The trace buffer (R352). -/
  trace   : Trace := {}
  /-- DEFLATE engines at work: the time-domain tick at which each is done (R365). -/
  engines : List Nat := []
  /-- The last unit that an engine took of trace and dump was one of trace (R365). -/
  lastTrace : Bool := false
  /-- A dump has found no engine, no room in its queue, or the turn with trace (R365). -/
  dumpWaits : Bool := false
  /-- The degradation ladder (R218). -/
  ladder  : Ladder := {}
  /-- Signed policy (R120). -/
  pol     : Pol := {}
  /-- Bracken images by sward group; 0 on the HTU (R103). -/
  brks    : List (Nat × Bracken) := []
  /-- The number of the record-signing key in use (R107, R128). -/
  rsk     : Nat := 0
  /-- The tick of the latest KEY_ROTATE, whose 2 ms may still run (R128). -/
  rotT    : Option Nat := none
  /-- The DeviceID and Alias CDIs that the ROM derived, and the digest of the patch set (R107). -/
  cdi     : BitVec 384 := 0
  aliasCdi  : BitVec 384 := 0
  patch   : BitVec 384 := 0
  /-- The measurements that Gorse keeps, by SPDM index (R110). -/
  meas    : List (Nat × BitVec 384) := []
  /-- PATCH_SVN and BRACKEN_SVN as fuses burned since manufacture hold them (R109, R121). -/
  svn     : Option (Nat × Nat) := none
  /-- SPDM messages produced, which number the free contents of each (R112, R114). -/
  spdmNo  : Nat := 0
  /-- The SPDM requester's progress by peer: the message's place in the sequence of R114, the resends of it, and its
  number. A peer below 64 is that
  connection; 64 and up is the unit below of that number less 64. -/
  spdm    : List (Nat × (Nat × Nat × Nat)) := []
  /-- Words of a memory marked uncorrectable: region and offset (R405). -/
  bad     : List (Nat × Nat) := []
  /-- Words of a memory that hold a correctable error: region and offset (R404). -/
  weak    : List (Nat × Nat) := []
  /-- Everything sent to agents outside the model, in order. -/
  out     : List Out := []
deriving DecidableEq, Repr

/-- A word in a station's outward FIFO (R45, R48, R351). -/
inductive OutWord where
  | heartbeat
  | trace (tag : BitVec 8) (w : Word)
deriving DecidableEq, Repr

/-- A tap station (R45, R165, R171 to R174). -/
structure Station where
  slices  : List (Nat × BitVec 40) := []
  oldSlices : List (Nat × BitVec 40) := []
  cmds    : List (Nat × BitVec 40) := []
  oldCmds : List (Nat × BitVec 40) := []
  oldId   : BitVec 32 := 0
  bound   : Bool := false
  prev    : BitVec 16 := 0
  idWord  : BitVec 32 := 0
  fallow  : Bool := false
  fallowT : Nat := 0
  fallowTick : Nat := 0
  fallowV : Bool := false
  fresh   : Bool := false
  /-- The station's FIFOs stall while its cluster clock stands (R48): the words that wait in the outward FIFO, and the commands (slice, event
  code) in the inward one, 16 entries each (R45). -/
  stalled : Bool := false
  out     : List OutWord := []
  inq     : List (Nat × Nat) := []
  lost    : Nat := 0
  cycles  : Nat := 0
  arrived : Option Nat := none
  synced  : Bool := false
deriving DecidableEq, Repr

/-- The y side of one tile in a lane (R227): format, whether it was selected, the sign vector as 128 bits, y, max |y|,
and what the operands showed. -/
structure Tile where
  fmt     : BitVec 3
  checked : Bool
  sign    : BitVec 128
  y       : List Half
  k       : Nat
  opNan   : Bool
deriving DecidableEq, Repr

/-- A finished verdict on its way to its step context, named by the opening's number (R230, R232, R264). -/
structure Verdict where
  verdict : Nat
  cause   : Nat
  near    : Bool
  col     : Nat
  k       : Nat
  maxD    : Half
  tau     : Half
  zInf    : Half
  yInf    : Half
  zj      : Half
  yj      : Half
  time    : Nat
  digest  : Option (BitVec 64)
  tile    : Nat := 0
  ctx     : Option Nat := none
deriving DecidableEq, Repr

/-- A checking lane (R225 to R230): generator state, tiles whose result is due (oldest first; the last one may still take
operands), the result rows so far with z, and verdicts that wait to cross to the core domain. -/
structure Lane where
  x : Half := 0
  y : Half := 0
  z : Half := 0
  w : Half := 0
  tiles    : List Tile := []
  taking   : Bool := false
  row      : Nat := 0
  zs       : List Half := []
  cNan     : Bool := false
  cInf     : Bool := false
  cInfFree : Bool := false
  given    : Bool := false
  crc      : BitVec 64 := BitVec.allOnes 64
  out      : List Verdict := []
deriving DecidableEq, Repr

/-- States of a step context (R238). -/
inductive StepSt where
  | opened
  | closing
  | final
  | presented
  | retained
deriving DecidableEq, Repr

/-- A step context (R238): step, number of the opening, state, mode, CLEAN, replays, tile counts per cluster, DUAL digests that
wait for the partner, verdict records already written, UNCHECKED counts and largest near misses, clusters yet to arrive, whether
BARRIER_DONE came and the release was made, what the step accumulated for STEP_ARRIVAL, and whether it raises no REPLAY_REQ. -/
structure StepCtx where
  step    : BitVec 32
  no      : Nat
  st      : StepSt
  mode    : Nat
  clean   : Bool
  replays : Nat
  tiles   : List (Nat × Nat) := []
  dual    : List (Nat × Nat × BitVec 64) := []
  written : List (Nat × Nat) := []
  unchk   : List (Nat × Nat × Verdict) := []
  nearMax : List (Nat × Verdict) := []
  need    : List Nat := []
  lastClu : Nat := 0
  arriveT : Nat := 0
  arriveV : Bool := false
  arrived : Bool := false
  done    : Bool := false
  rel     : Bool := false
  cap     : Bool := false
  quiet   : Bool := false
deriving DecidableEq, Repr

/-- An entry of SNT_REPLAY (R254). -/
structure ReplayEnt where
  coll   : Bool
  exp    : BitVec 8
  ring   : BitVec 8
  step   : BitVec 32
  collId : BitVec 32
deriving DecidableEq, Repr

/-- A voltage-frequency sequencer operation (R324, R326). -/
inductive SeqOp where
  | hold
  | release
  | setF (g : Nat) (dir : Nat)
  | setV (g : Nat) (dir : Nat)
deriving DecidableEq, Repr

/-- The one handshake in flight on CAP_REQ (R326): the operation, and whether ACK rose. -/
structure Handshake where
  op    : SeqOp
  acked : Bool
  late  : Bool
deriving DecidableEq, Repr

/-- A barrier release (R342, R343): step, next wave, whether that wave fell due and is held, and the settings it took when it
began. -/
structure Release where
  step    : Nat
  wave    : Nat := 0
  begun   : Bool := false
  waiting : Bool := false
  waves   : Nat := 8
  rot     : Nat := 0
  hold    : Bool := true
deriving DecidableEq, Repr

/-- A tensor dump that is accepted and unfinished (R360 to R363). -/
structure Dump where
  name    : Nat
  step    : BitVec 32
  atClose : Bool
  comp    : Bool
  addr    : Nat
  len     : Nat
  part    : Nat
  cmd     : Nat × BitVec 16
  chan    : Option Nat := none
  done    : Nat := 0
  units   : Nat := 0
  crc     : BitVec 32 := BitVec.allOnes 32
  replayed : Bool := false
deriving DecidableEq, Repr

/-- The state that only the HTU has. -/
structure HtuX where
  /-- Tap stations by physical cluster (R45). -/
  stations : List (Nat × Station) := []
  /-- LAST copies by logical cluster × 16 + slice (R169). -/
  last     : List (Nat × BitVec 40) := []
  /-- Checking lanes by physical cluster (R225). -/
  lanes    : List (Nat × Lane) := []
  /-- Step contexts, oldest first (R238). -/
  steps    : List StepCtx := []
  /-- SNT_REPLAY, head first (R254). -/
  replayQ  : List ReplayEnt := []
  /-- Digests of OPEN tensors by SNT_DIGEST entry, and entries oldest first (R255, R256). -/
  digests  : List (Nat × BitVec 128) := []
  digOrder : List Nat := []
  /-- Tags of tensors under way that are not digested any more: found no entry, or invalidated (R256). -/
  overTags : List Nat := []
  /-- Steps of recent engine-fault FAILs, for DRAIN_WINDOW, and the number of steps opened (R261). -/
  fails    : List Nat := []
  stepNo   : Nat := 0
  /-- Steps for which REPLAY_REQ was raised since they opened (R243), and the openings made before a stop (R234). -/
  asked    : List (BitVec 32) := []
  /-- Steps that a notice has named, the latest 8; a replay of a step clears its mark (R247). -/
  tainted  : List (BitVec 32) := []
  stopNo   : Nat := 0
  /-- LADD_EXC words of a reserved KIND (R251). -/
  laddBad  : Nat := 0
  /-- Why DRAIN_REQ was raised (R444), and whether it and STEP_CLEAN_VALID stand (R40, R42). -/
  drainWhy : Nat := 0
  drainReq : Bool := false
  drainAcked : Bool := false
  /-- The DRAIN handshake has raised its HANDSHAKE_LATE (R42). -/
  drainLate : Bool := false
  stepClean : Bool := true
  stepCleanValid : Bool := false
  /-- BARRIER_REL may issue: cleared by an abort until the next START_AT with a new JOB_ID (R316). -/
  relBlocked : Bool := false
  /-- The partition of the current job (R311, R312). -/
  jobPart  : Nat := 0
  /-- COLLECTIVE_IDLE and DROOP_DET as last seen (R40). -/
  idle     : Bool := true
  droop    : BitVec 16 := 0
  /-- The epoch in which a LADD_EXC port, or WIN_SNOOP under 8, last dropped words (R41). -/
  dropped  : List (Nat × Nat) := []
  /-- Sequencer queue, and the handshake in flight (R326). -/
  seqQ     : List SeqOp := []
  hs       : Option Handshake := none
  settling : Option Nat := none
  /-- Frequency and voltage gauges in MHz and mV by group (R176). -/
  fGauge   : List (Nat × Nat) := []
  vGauge   : List (Nat × Nat) := []
  /-- THERM codes and AGE_MON counts as last sampled (R176). -/
  therm    : List (BitVec 10) := []
  age      : List (Nat × List (BitVec 24)) := []
  /-- Groups whose THERM reading is at EMERG (R334). -/
  hot      : List Nat := []
  /-- The active limit is EMERGENCY; the limit entered emergency; FLOOR was reported (R333, R336). -/
  emergency : Bool := false
  floored  : Bool := false
  /-- The BUDGET_SHIFTs that wait for the next STEP_OPEN (R337): budget, mailbox, tag; then the lowerings that wait, with their tick. -/
  budPend  : List (Nat × Nat × BitVec 16) := []
  budWait  : List (Nat × BitVec 16 × Nat) := []
  /-- Energy: die total at the last control period; per-cluster fJ in the period (R331). -/
  pmBase   : Nat := 0
  pmClus   : List (Nat × Nat) := []
  /-- Accumulated energy fractions below 1 µJ in fJ, by partition × 8 + service, 7 the clusters', 2048 the die (R179). -/
  fracE    : List (Nat × Nat) := []
  /-- Provider slice counts at the last estimate by cluster × 4 + slice, and Fallow ns; the voltage gauges at the start of the epoch; the epoch
  and tick of the last estimate (R178). -/
  enBase   : List (Nat × Word) := []
  vEpoch   : List (Nat × Nat) := []
  enAt     : Option (Nat × Nat) := none
  /-- ENTRIES and SILENT of the logical clusters, by cluster × 2 and cluster × 2 + 1, in 64 bits (R177). -/
  cluCnt   : List (Nat × Word) := []
  /-- The epoch in which MEM_DIST of a physical cluster was last written, and its value before (R57). -/
  memOld   : List (Nat × Nat × Nat) := []
  /-- The committed map that waits for its epoch: physical clusters by logical cluster, and APPLY_EPOCH (R54). -/
  mapNext  : Option (List Nat × Nat) := none
  /-- Barrier releases, the one issuing first; and waves held, flash programs deferred in this hold (R343, R347). -/
  rels     : List Release := []
  held     : Nat := 0
  deferred : Nat := 0
  holdT    : Nat := 0
  holdTv   : Bool := false
  /-- Capture of a full sweep under way: mailbox, tag, stream (R186). -/
  sweep    : Option (Nat × BitVec 16 × Nat) := none
  /-- Tensor dumps (R360). -/
  dumps    : List Dump := []
  /-- Self-tests run (R259). -/
  selftests : Nat := 0
deriving DecidableEq, Repr

/-- A merged lane (R191): one constructor for each form of partial. -/
inductive LaneVal where
  | num (v : Int)
  | arg (v : Int) (src : Nat) (n : Nat)
  | hist (counts : List Nat)
  | sketch (zeros below above offset : Nat) (coarse : Bool) (neg pos : List Nat)
  | top (entries : List (Int × Nat))
  | mm (lo hi : Nat)
deriving DecidableEq, Repr

/-- A partial (R202): its flags, counts and lanes. -/
structure Part where
  op       : Nat
  level    : Nat
  flags    : Nat
  ladder   : Nat
  epoch    : BitVec 32
  members  : Nat
  contrib  : Nat
  dies     : Nat
  clusters : Nat
  lanes    : List LaneVal
deriving DecidableEq, Repr

/-- The merge of one collector's sheaf for one epoch at one level (R190, R207): T, members expected, inputs in with their partials, inputs
that left, unplanned or as planned, and whether the merge has started. `coll` is none for a digest comparison. -/
structure Merge where
  level   : Level
  coll    : Option Nat := none
  key     : SheafKey
  epoch   : BitVec 32
  t       : Nat
  members : List Nat
  parts   : List (Nat × Part)
  left    : List Nat
  planned : List Nat := []
  started : Bool
  /-- The ladder level in force for the epoch (R218). -/
  ladder  : Nat := 0
  media   : Bool := false
  mismatch : Bool := false
  /-- FLAGS of inputs that came without their lanes (R203). -/
  inFlags : Nat := 0
deriving DecidableEq, Repr

/-- A member of a sheaf at a level (R210, R211): input, first epoch, and last epoch of a planned leave. -/
structure Member where
  level : Level
  key   : SheafKey
  input : Nat
  first : BitVec 32
  last  : Option (BitVec 32) := none
deriving DecidableEq, Repr

/-- One arrival at a merge point (R214, R215): input, die, last cluster, flags and time. -/
structure Arrival where
  input : Nat
  die   : Nat
  clu   : Nat
  clean : Bool
  cap   : Bool
  timev : Bool
  t     : Nat
deriving DecidableEq, Repr

/-- An open or completed step at a merge point (R215, R216, R241): the inputs expected and those in, the arrivals summed, MEMBERS,
the AND of CLEAN and OR of CAP, the earliest and latest time, the 8 latest arrivals, and whether it is complete, is a replay, or is
tainted. -/
structure MStep where
  level : Level
  step  : BitVec 32
  ins   : List Nat
  got   : List Nat := []
  count : Nat := 0
  members : Nat
  clean : Bool := true
  cap   : Bool := false
  first : Option Nat := none
  last  : Nat := 0
  arrs  : List Arrival := []
  done  : Bool := false
  replay : Bool := false
  taint : Bool := false
  part  : Nat := 0
deriving DecidableEq, Repr

/-- A stream as the VTA's ingress knows it (R394, R396): its die, side (0 the HTU's, 8 the VTA's), stream, the next sequence expected, and
the records of an ORD stream that wait behind a gap; `zeroLost` tells that a LOSS record covered sequence 0. -/
structure Ingress where
  die    : Nat
  unit   : Nat
  stream : Nat
  part   : Nat := 0
  ord    : Bool := true
  zeroLost : Bool := false
  next   : Option Nat
  held   : List Rec
deriving DecidableEq, Repr

/-- A TCAM entry with its leaf word (R279, R281). -/
structure TEntry where
  bank  : Nat
  slot  : Nat
  tree  : Nat
  care  : BitVec 320
  value : BitVec 320
  leaf  : BitVec 32
  out   : Nat
deriving DecidableEq, Repr

/-- A feature map entry (R270). -/
structure FeatEnt where
  kind  : Nat
  delta : Bool
  a     : Nat
  b     : Nat
  scale : Int
deriving DecidableEq, Repr

/-- One bit of a group's thermometer layout (R277): feature, and threshold with default, or the missing bit. -/
structure LayBit where
  feat : Nat
  thr  : Option (Half × Bool)
deriving DecidableEq, Repr

/-- A loaded slot (R265, R268): feature map, bases, group of each tree, group layouts, Heath job descriptors, partition
and role of the load, image bytes. -/
structure Slot where
  feats   : List FeatEnt
  bases   : List Int
  groupOf : List Nat
  bankOf  : List Nat
  layouts : List (List LayBit)
  jobs    : List (List Byte)
  part    : Nat
  role    : Nat
  signed  : Bool
  image   : List Byte
deriving DecidableEq, Repr

/-- Outputs of one entity in one run (R282, R296): scores, flags of R297, features missing, Heath outputs, and the banks of
trees that gave no leaf. -/
structure Score where
  row    : Nat
  outs   : List Int
  flags  : Nat
  miss   : Nat
  heath  : List (Option Half)
  feats  : List (Option Half)
  hurt   : List Nat := []
deriving DecidableEq, Repr

/-- A gathered value: its source (kind, A, B), entity row, value, and whether it is ABSENT (R270, R272). -/
structure Val where
  src    : Nat × Nat × Nat
  row    : Nat
  v      : Word
  absent : Bool
deriving DecidableEq, Repr

/-- The gathered store of one period (R272), which is known by the µs in which it begins: values by source (kind, a, b) and entity row, with the
LAG terms. -/
structure Store where
  period : Nat
  vals   : List Val
  prev   : List Val := []
  lags   : List (Nat × Nat × Bool)
  late   : Bool
  closed : Bool
  scored : Bool
deriving DecidableEq, Repr

/-- A role of R27 as policy and ROLE_CHANGE give it (R28, R318): holder and standby VTA numbers (die ID bits 16:6),
the instant of the last change, and the holder up to it: an epoch whose snapshot instant is not later than the change is still its. -/
structure RoleSt where
  level   : Level
  holder  : Nat
  standby : Nat
  since   : Nat
  prev    : Nat
deriving DecidableEq, Repr

/-- A budget move in flight (R340): donor, recipient, amount, whether the donor has replied, the step, the command. -/
structure Move where
  donor : Nat
  recip : Nat
  mw    : Nat
  step  : BitVec 32
  raised : Bool
  cmd   : Option (Nat × BitVec 16)
deriving DecidableEq, Repr

/-- An archive segment that is open (R369): its stream (`unit` is the side, as in `Ingress`), its partition and records. -/
structure Segment where
  die    : Nat
  unit   : Nat
  stream : Nat
  part   : Nat
  recs   : List Rec
deriving DecidableEq, Repr

/-- A page of a partition's archive ring (R369, R370). -/
structure ArchPage where
  part   : Nat
  stream : Nat
  die    : Nat
  unit   : Nat
  comp   : Bool
  pages  : Nat
  recs   : List Rec
deriving DecidableEq, Repr

/-- The state that only the VTA has. -/
structure VtaX where
  /-- Sheaf members at every level (R210). -/
  members  : List Member := []
  /-- Merges under way (R207). -/
  merges   : List Merge := []
  /-- Sheaves of which a partial came late, with its epoch: the next epoch's result carries LATE; and those whose next result carries
  MISMATCH, by level (R200, R207). -/
  lateNext : List (Level × SheafKey × BitVec 32) := []
  missNext : List (Level × SheafKey) := []
  /-- The latest epoch merged for each sheaf, by level (R207). -/
  merged   : List (Level × SheafKey × BitVec 32) := []
  /-- Epochs that a refused forwarded SNAPSHOT_AT made PARTIAL (R205). -/
  badEpochs : List Nat := []
  /-- Steps at the merge points (R215, R216). -/
  msteps   : List MStep := []
  /-- SNAPSHOT_AT commands forwarded by Ethernet: unit below (256 × level + input), tag, epoch (R205). -/
  ethSnaps : List (Nat × BitVec 16 × Nat) := []
  /-- SCALE notices forwarded as step root: collective, least ring position, greatest exponent (R253). -/
  scales   : List (Nat × Nat × Nat) := []
  /-- Ingress contexts (R394). -/
  ingress  : List Ingress := []
  /-- Policer buckets in bytes by partition: committed and peak (R390). -/
  polC     : List (Nat × Nat) := []
  polP     : List (Nat × Nat) := []
  polT     : List (Nat × Nat) := []
  /-- Open archive segments and the partitions' rings, oldest page first (R369). -/
  segs     : List Segment := []
  arch     : List ArchPage := []
  /-- The page of its ring that a partition writes next (R369). -/
  archPos  : List (Nat × Nat) := []
  /-- Segments refused since the last ARCHIVE_FULL, by partition, and when it was written (R369). -/
  refused  : List (Nat × Nat) := []
  fullAt   : List (Nat × Nat) := []
  /-- Model slots (R265). -/
  slots    : List (Nat × Slot) := []
  /-- TCAM entries and the golden copies (R279, R284). -/
  tcam     : List TEntry := []
  golden   : List TEntry := []
  /-- Banks marked for retirement, and rewrites: bank and instant in ticks (R298). -/
  bankOut  : List Nat := []
  fixes    : List (Nat × Nat) := []
  /-- Entries whose leaf word is marked uncorrectable (R283, R405). -/
  leafBad  : List TEntry := []
  /-- Banks whose immediate scrub pass waits (R283). -/
  scrubQ   : List Nat := []
  /-- The ticks at which the SCORE_RUNs under way end (R295). -/
  runsTill : List Nat := []
  /-- A change of HTR_PERIOD.US that is pending: the period before it, and the µs from which the new one holds (HTR_PERIOD). -/
  perOld   : Option (Nat × Nat) := none
  /-- Stores of recent periods (R272). -/
  stores   : List Store := []
  /-- The µs in which the latest closed period ended, with its gathered values, the bases of feature DELTA (R270), and the last 128 tray steps by port and
  lag, CAP marked (R288). -/
  closedP  : Option (Nat × List Val) := none
  lagHist  : List (List (Nat × Nat × Bool)) := []
  /-- The periods of the run set under way and of the one that waits, by the µs in which they begin (R290). -/
  running  : Option Nat := none
  waitSet  : Option Nat := none
  /-- The period that was scored last, by the µs in which it began (R303). -/
  scored   : Nat := 0
  /-- The slots that the run set under way uses, by position (R286). -/
  runSlots : List (Nat × Nat) := []
  /-- The score table by position × 2^15 + row (R296). -/
  scores   : List (Nat × Score) := []
  /-- Pending MODEL_SWAP commands by position (R286). -/
  swaps    : List (Nat × Nat × BitVec 16) := []
  /-- Consecutive periods below NOTIFY_THR, and periods since the last record, by port (R302). -/
  calm     : List (Nat × Nat) := []
  quiet    : List (Nat × Nat) := []
  /-- Engine-fault verdicts of the period by port (R300). -/
  faultsF  : List (Nat × Nat) := []
  /-- When a flit of a die last came, and when a LEASE_RENEW of kind MGMT last named it, by port: ns, ticks, TIMEV (R308). -/
  furAt    : List (Nat × Nat × Nat × Bool) := []
  mgmtAt   : List (Nat × Nat × Nat × Bool) := []
  /-- Steps for which a notice came (R247). -/
  tainted  : List (BitVec 32) := []
  /-- When BUDGET_EXCEEDED was last recorded by port (R302). -/
  exceedT  : List (Nat × Nat) := []
  /-- Mask of the current job, its partition, and ports whose START_AT reply came (R314 to R317). -/
  jobMask  : Word := 0
  jobPart  : Nat := 0
  jobReply : List (Nat × Bool) := []
  jobCmd   : Option (Nat × BitVec 16) := none
  /-- Role holders and standbys (R28). -/
  roles    : List RoleSt := []
  /-- Holders of the units below that a ROLE_CHANGE named: level of the role above, input, holder, change instant (R318). -/
  heads    : List (Level × Nat × Nat × Nat) := []
  /-- The budget move in flight (R340). -/
  move     : Option Move := none
  /-- Digest comparisons that wait for their result: epoch, mask, mailbox, tag (R257). -/
  digCmds  : List (BitVec 32 × Word × Nat × BitVec 16) := []
  /-- The base increment INC_B (R145), in whole 2^-32 ns (log entry 128). -/
  incB     : Nat := 3435973837
  /-- Announces accepted of each other listed grandmaster since the chosen one was last heard (R145). -/
  gmHeard  : List (Nat × Nat) := []
  /-- The number of the next Delay_Req (R144). -/
  ptpSeq   : Nat := 0
  /-- Gate states of the uplinks, and whether a list is in force (R436). -/
  qbvNow   : List (Nat × BitVec 8) := []
  /-- The DDR5 t in force since the DDR5 was initialised (R403). -/
  ddrT     : Nat := 0
  /-- DDR5 refresh runs at the doubled rate (R433). -/
  refresh2 : Bool := false
  /-- DDR5 is in self-refresh (R425). -/
  selfRef  : Bool := false
  /-- ALERT_N and THERMTRIP_N asserted; every clock stopped (R425, R426, R442). -/
  alert    : Bool := false
  thermTrip : Bool := false
  /-- The reference has been missing for 10 ms and the reset is held (R425). -/
  refHeld  : Bool := false
  /-- The PCIe link is up (R432). -/
  pcieUp   : Bool := false
deriving DecidableEq, Repr

/-- The whole block: the queue of commands, the free values drawn, the registers and memories, and the two units. -/
structure State where
  /-- The commands that wait, first in, first out. The model's own field. -/
  pending : List Instr := []
  /-- The number of free values drawn so far. The model's own field. -/
  free    : Nat := 0
  /-- HTU registers by 8-byte offset; an offset not listed holds its reset value (R10, R15). -/
  hregs   : List (Nat × Word) := []
  /-- VTA registers by 8-byte offset; an offset not listed holds its reset value (R10, R15). -/
  vregs   : List (Nat × Word) := []
  /-- DDR5 and staging contents by byte address; a byte not listed reads as zero (R367, R368, R433). -/
  ddr     : List Host.Cell := []
  /-- Entity table by byte; a byte not listed reads as zero (R273). -/
  entity  : List Host.Cell := []
  /-- The HTU's part. -/
  h       : Dev := {}
  /-- The VTA's part. -/
  v       : Dev := {}
  /-- What only the HTU has. -/
  hx      : HtuX := {}
  /-- What only the VTA has. -/
  vx      : VtaX := {}
deriving DecidableEq, Repr

/-- The machine right after reset: both units held in reset, every register at its reset value, every queue, buffer,
context and memory empty (R15, R90, R170, R221, R263, R299, R321, R348, R371, R400). -/
def State.reset : State := {}

end Sys2Proof.Machine
end

