-- ==== Sys2Proof/Machine/RegMap.lean ====
section
/-! DEFINITION. The register map: one `Fld` for each field of the manual's field tables, under the manual's own names,
the access table (R12), and the value of every register word at reset (R15). A register word is the 64 bits at an
offset that is a multiple of 8; no field crosses such a word. -/

namespace Sys2Proof.Machine

/-- A field: the 8-byte offset of its word, its lowest bit in the word, its width. -/
structure Fld where
  off   : Nat
  lsb   : Nat
  width : Nat
deriving DecidableEq, Repr

/-- The field at bit `lsb` of the register at byte offset `b`. -/
def Fld.at (b lsb width : Nat) : Fld := ⟨b / 8 * 8, lsb + 8 * (b % 8), width⟩

/-- The access types of R12. -/
inductive Acc where
  | ro
  | rw
  | w1c
  | rc
  | wo
  | grw
  | gro
deriving DecidableEq, Repr

/-- One row of the access table: the units that have the field, the offset of its 32-bit half at index 0, its lowest bit
in that half, width, access type, the class of the function it is scoped to (R92; 0 none), and for each index of the
register its stride and the counts on the HTU and the VTA. -/
structure Row where
  htu   : Bool
  vta   : Bool
  base  : Nat
  lsb   : Nat
  width : Nat
  acc   : Acc
  cls   : Nat
  dims  : List (Nat × Nat × Nat)
deriving DecidableEq, Repr

namespace Reg

/-- R4, RO, reset HTU 0x4A2, VTA 0x764. -/
def ID_PART : Fld := ⟨0, 20, 12⟩
/-- R4, RO, reset HTU 0x2, VTA 0x1. -/
def ID_GEN : Fld := ⟨0, 16, 4⟩
/-- R4, RO, reset HTU 0x42, VTA 0x41. -/
def ID_STEP : Fld := ⟨0, 8, 8⟩
/-- R4, RO, reset HTU 0x00, VTA 0x01. -/
def ID_METAL : Fld := ⟨0, 0, 8⟩
/-- R56, RO, reset See meaning. -/
def TAP_PHYS_LOGICAL (n : Nat) : Fld := ⟨0xa0000 + 8 * n, 0, 8⟩
/-- R56, RO, reset 0b000 or 0b001. -/
def TAP_PHYS_STATE (n : Nat) : Fld := ⟨0xa0000 + 8 * n, 8, 3⟩
/-- R56, RO, reset fuse. -/
def TAP_PHYS_HEDGE_DIST (n : Nat) : Fld := ⟨0xa0000 + 8 * n, 16, 6⟩
/-- R56, RO, reset fuse. -/
def TAP_PHYS_COMP_DELAY (n : Nat) : Fld := ⟨0xa0000 + 8 * n, 24, 6⟩
/-- R56, RW, reset 0xFF. -/
def TAP_PHYS_MEM_DIST (n : Nat) : Fld := ⟨0xa0000 + 8 * n, 32, 8⟩
/-- R447, RW, reset Default map. -/
def TAP_MAP_PEND_PHYS (n : Nat) : Fld := .at (0xa1000 + 4 * n) 0 9
/-- R447, WO, reset 0. -/
def TAP_MAP_CTL_COMMIT : Fld := ⟨0xa2000, 0, 1⟩
/-- R447, RW, reset 0. -/
def TAP_MAP_CTL_IMMEDIATE : Fld := ⟨0xa2000, 1, 1⟩
/-- R447, RW, reset 0x0000_0000. -/
def TAP_MAP_EPOCH_APPLY_EPOCH : Fld := ⟨0xa2000, 32, 32⟩
/-- R447, RO, reset 0b00. -/
def TAP_MAP_STATUS_STAT : Fld := ⟨0xa2008, 0, 2⟩
/-- R447, RO, reset 0x0. -/
def TAP_MAP_STATUS_REASON : Fld := ⟨0xa2008, 4, 4⟩
/-- R447, RO, reset 0x000. -/
def TAP_MAP_STATUS_FIRST_BAD : Fld := ⟨0xa2008, 8, 9⟩
/-- R447, RO, reset fuse. -/
def TAP_HEDGE_DMAX_DMAX : Fld := ⟨0xa2010, 0, 6⟩
/-- R61, RO, reset 0. -/
def HTU_STATUS_FUSES : Fld := ⟨0, 32, 1⟩
/-- R61, RO, reset 0. -/
def HTU_STATUS_MEM_INIT : Fld := ⟨0, 33, 1⟩
/-- R61, RO, reset 0. -/
def HTU_STATUS_GORSE_UP : Fld := ⟨0, 34, 1⟩
/-- R61, RO, reset 0. -/
def HTU_STATUS_BOUNDARY_LIVE : Fld := ⟨0, 35, 1⟩
/-- R61, RO, reset 0. -/
def HTU_STATUS_MBX0_OPEN : Fld := ⟨0, 36, 1⟩
/-- R61, RO, reset 0. -/
def HTU_STATUS_RECORDER_OPEN : Fld := ⟨0, 37, 1⟩
/-- R61, RO, reset 0. -/
def HTU_STATUS_POLICY : Fld := ⟨0, 38, 1⟩
/-- R61, RO, reset 0x00. -/
def HTU_STATUS_BOOT_FAIL : Fld := ⟨0, 48, 8⟩
/-- R74, WO, reset 0. -/
def MBX_REQ_DATA (m : Nat) : Fld := ⟨0x1000 + 256 * m, 0, 64⟩
/-- R74, WO, reset 0. -/
def MBX_DOORBELL_COMMIT (m : Nat) : Fld := ⟨0x1008 + 256 * m, 0, 1⟩
/-- R74, RC, reset 0. -/
def MBX_RSP_DATA (m : Nat) : Fld := ⟨0x1010 + 256 * m, 0, 64⟩
/-- R74, RO, reset 0. -/
def MBX_STATUS_OPEN (m : Nat) : Fld := ⟨0x1018 + 256 * m, 0, 1⟩
/-- R74, RO, reset 0. -/
def MBX_STATUS_GEN (m : Nat) : Fld := ⟨0x1018 + 256 * m, 1, 1⟩
/-- R74, RO, reset 0. -/
def MBX_STATUS_OUTSTANDING (m : Nat) : Fld := ⟨0x1018 + 256 * m, 2, 9⟩
/-- R74, RO, reset HTU 2,048; VTA 8,192. -/
def MBX_STATUS_REQ_FREE (m : Nat) : Fld := ⟨0x1018 + 256 * m, 12, 16⟩
/-- R74, RO, reset 0. -/
def MBX_RSP_LEVEL_RSP_WORDS (m : Nat) : Fld := ⟨0x1018 + 256 * m, 32, 16⟩
/-- R74, RW, reset 0. -/
def MBX_CTL_GEN_SEL (m : Nat) : Fld := ⟨0x1020 + 256 * m, 0, 1⟩
/-- R74, W1C, reset 0. -/
def MBX_IRQ_STATUS_NOTIFY_REPLY (m : Nat) : Fld := ⟨0x1020 + 256 * m, 32, 1⟩
/-- R74, W1C, reset 0. -/
def MBX_IRQ_STATUS_ERROR (m : Nat) : Fld := ⟨0x1020 + 256 * m, 33, 1⟩
/-- R74, RW, reset 0b00. -/
def MBX_IRQ_EN_EN (m : Nat) : Fld := ⟨0x1028 + 256 * m, 0, 2⟩
/-- R74, RC, reset 0. -/
def MBX_ERR_FRAMING (m : Nat) : Fld := ⟨0x1028 + 256 * m, 32, 8⟩
/-- R74, RC, reset 0. -/
def MBX_ERR_OVERFLOW (m : Nat) : Fld := ⟨0x1028 + 256 * m, 40, 8⟩
/-- R74, RC, reset 0. -/
def MBX_ERR_DUP_TAG (m : Nat) : Fld := ⟨0x1028 + 256 * m, 48, 8⟩
/-- R74, RC, reset 0. -/
def MBX_ERR_EMPTY_READ (m : Nat) : Fld := ⟨0x1028 + 256 * m, 56, 8⟩
/-- R74, RO, reset 0. -/
def MBX_NEXT_SEQ_SEQ (m : Nat) : Fld := ⟨0x1030 + 256 * m, 0, 32⟩
/-- R74, GRW, reset 0x00. -/
def MBX_V1_IDENT_PARTITION (m : Nat) : Fld := ⟨0x1030 + 256 * m, 32, 8⟩
/-- R74, GRW, reset 0x00. -/
def MBX_V1_IDENT_ROLE (m : Nat) : Fld := ⟨0x1030 + 256 * m, 40, 8⟩
/-- R74, RC, reset 0. -/
def MBX_ERR2_CLOSED (m : Nat) : Fld := ⟨0x1038 + 256 * m, 0, 8⟩
/-- R74, RC, reset 0. -/
def MBX_ERR2_RSVD (m : Nat) : Fld := ⟨0x1038 + 256 * m, 8, 8⟩
/-- R119, GRO, reset 0x00. -/
def SEC_CLUSTER_PART_PART (n : Nat) : Fld := .at (0x81000 + 4 * n) 0 8
/-- R119, GRW, reset 0x00. -/
def SEC_CLUSTER_PART_PEND_PART (n : Nat) : Fld := .at (0x81000 + 4 * n) 8 8
/-- R119, GRW, reset 0. -/
def SEC_CLUSTER_PART_PEND_VALID (n : Nat) : Fld := .at (0x81000 + 4 * n) 16 1
/-- R128, GRW, reset 0. -/
def SEC_STATE_UDS_LOCK : Fld := ⟨0x80000, 0, 1⟩
/-- R128, GRO, reset 0. -/
def SEC_STATE_ALIAS_READY : Fld := ⟨0x80000, 1, 1⟩
/-- R128, GRO, reset 0. -/
def SEC_STATE_RSK_READY : Fld := ⟨0x80000, 2, 1⟩
/-- R128, GRO, reset 0. -/
def SEC_STATE_POLICY_IN_FORCE : Fld := ⟨0x80000, 3, 1⟩
/-- R128, GRO, reset 0x00. -/
def SEC_STATE_MISMATCHES : Fld := ⟨0x80000, 8, 8⟩
/-- R128, GRO, reset fuse. -/
def SEC_SVN_PATCH_SVN : Fld := ⟨0x80000, 32, 16⟩
/-- R128, GRO, reset fuse. -/
def SEC_SVN_BRACKEN_SVN : Fld := ⟨0x80000, 48, 16⟩
/-- R128, GRO, reset 0x0000_0000. -/
def SEC_POLICY_VER_VERSION : Fld := ⟨0x80008, 0, 32⟩
/-- R164, GRW, reset 0b00. -/
def TIM_CTL_SRC_PREF : Fld := ⟨0x2000, 0, 2⟩
/-- R164, GRW, reset 0. -/
def TIM_CTL_SWITCH : Fld := ⟨0x2000, 2, 1⟩
/-- R164, GRW, reset 0x4. -/
def TIM_CTL_EXCH_LOG2 : Fld := ⟨0x2000, 8, 4⟩
/-- R164, GRW, reset 0x01. -/
def TIM_CTL_STEP_THRESH : Fld := ⟨0x2000, 16, 8⟩
/-- R164, GRW, reset 0x0A. -/
def TIM_CTL_HOLD_MAX : Fld := ⟨0x2000, 24, 8⟩
/-- R164, RO, reset 0. -/
def TIM_STATUS_TIMEV : Fld := ⟨0x2000, 32, 1⟩
/-- R164, RO, reset 0. -/
def TIM_STATUS_LOCK : Fld := ⟨0x2000, 33, 1⟩
/-- R164, RO, reset 0b000. -/
def TIM_STATUS_SRC : Fld := ⟨0x2000, 34, 3⟩
/-- R164, RO, reset 0. -/
def TIM_STATUS_HOLD : Fld := ⟨0x2000, 37, 1⟩
/-- R164, RO, reset 0. -/
def TIM_STATUS_UP_HOLD : Fld := ⟨0x2000, 38, 1⟩
/-- R164, RO, reset 0. -/
def TIM_STATUS_SAFE : Fld := ⟨0x2000, 39, 1⟩
/-- R164, RO, reset 0. -/
def TIM_STATUS_PLL_A_RDY : Fld := ⟨0x2000, 40, 1⟩
/-- R164, RO, reset 0. -/
def TIM_STATUS_PLL_B_RDY : Fld := ⟨0x2000, 41, 1⟩
/-- R164, RC, reset 0x00. -/
def TIM_STATUS_STEPS : Fld := ⟨0x2000, 48, 8⟩
/-- R164, RC, reset 0x00. -/
def TIM_STATUS_LOSSES : Fld := ⟨0x2000, 56, 8⟩
/-- R164, RO, reset 0. -/
def TIM_NOW_NS : Fld := ⟨0x2008, 0, 64⟩
/-- R164, RO, reset 0x0000. -/
def TIM_NOW_FRAC_FRAC : Fld := ⟨0x2010, 0, 16⟩
/-- R164, RO, reset 0x00_CCCC_CCCD. -/
def TIM_INC_INC : Fld := ⟨0x2018, 0, 40⟩
/-- R164, RO, reset 0. -/
def TIM_OFFSET_OFFSET : Fld := ⟨0x2020, 0, 32⟩
/-- R164, RO, reset 0. -/
def TIM_DELAY_DELAY : Fld := ⟨0x2020, 32, 32⟩
/-- R164, RO, reset 0. -/
def TIM_HIGH_WATER_NS : Fld := ⟨0x2028, 0, 64⟩
/-- R164, GRW, reset 0x0000. -/
def TIM_PULSE_STREAM_STREAM : Fld := ⟨0x2030, 0, 16⟩
/-- R164, GRW, reset 0. -/
def TIM_PULSE_STREAM_VALID : Fld := ⟨0x2030, 16, 1⟩
/-- R164, GRW, reset 0x0000. -/
def TIM_ASYM_A_CAL : Fld := ⟨0x2040, 0, 16⟩
/-- R164, GRW, reset 0x0000. -/
def TIM_ASYM_B_CAL : Fld := ⟨0x2040, 32, 16⟩
/-- R164, GRW, reset 0x0000. -/
def TIM_ASYM_CAL (p : Nat) : Fld := .at (0x2100 + 4 * p) 0 16
/-- R164, RO, reset 0x0000. -/
def TIM_ASYM_A_MEAS : Fld := ⟨0x2040, 16, 16⟩
/-- R164, RO, reset 0x0000. -/
def TIM_ASYM_B_MEAS : Fld := ⟨0x2040, 48, 16⟩
/-- R164, RO, reset 0x0000. -/
def TIM_ASYM_MEAS (p : Nat) : Fld := .at (0x2100 + 4 * p) 16 16
/-- R164, GRW, reset 0x00. -/
def TIM_PTP_CFG_DOMAIN : Fld := ⟨0x2040, 0, 8⟩
/-- R164, GRW, reset 0. -/
def TIM_PTP_CFG_TRANSPORT : Fld := ⟨0x2040, 8, 1⟩
/-- R164, GRW, reset 0. -/
def TIM_PTP_CFG_PRIMARY : Fld := ⟨0x2040, 9, 1⟩
/-- R164, GRW, reset 0xD. -/
def TIM_PTP_CFG_LOG_SYNC : Fld := ⟨0x2040, 12, 4⟩
/-- R164, GRW, reset 0xD. -/
def TIM_PTP_CFG_LOG_DREQ : Fld := ⟨0x2040, 16, 4⟩
/-- R164, RO, reset 0b000. -/
def TIM_PTP_STATUS_PORT0 : Fld := ⟨0x2040, 32, 3⟩
/-- R164, RO, reset 0b000. -/
def TIM_PTP_STATUS_PORT1 : Fld := ⟨0x2040, 35, 3⟩
/-- R164, RO, reset 0b00. -/
def TIM_PTP_STATUS_GM_INDEX : Fld := ⟨0x2040, 38, 2⟩
/-- R164, RC, reset 0x0000. -/
def TIM_PTP_STATUS_DISCARDS : Fld := ⟨0x2040, 48, 16⟩
/-- R164, GRW, reset 0. -/
def TIM_PTP_GM_CLOCK_ID (i : Nat) : Fld := ⟨0x2060 + 8 * i, 0, 64⟩
/-- R164, RO, reset 0b00. -/
def TIM_PULSE_STATE (k : Nat) : Fld := ⟨0x2200 + 32 * k, 0, 2⟩
/-- R164, RO, reset 0. -/
def TIM_PULSE_MODE (k : Nat) : Fld := ⟨0x2200 + 32 * k, 2, 1⟩
/-- R164, RO, reset 0x0. -/
def TIM_PULSE_DEST (k : Nat) : Fld := ⟨0x2200 + 32 * k, 4, 4⟩
/-- R164, RO, reset 0. -/
def TIM_PULSE_COUNT (k : Nat) : Fld := ⟨0x2200 + 32 * k, 32, 32⟩
/-- R164, RO, reset 0. -/
def TIM_PULSE_NEXT (k : Nat) : Fld := ⟨0x2208 + 32 * k, 0, 64⟩
/-- R164, RO, reset 0. -/
def TIM_PULSE_PERIOD (k : Nat) : Fld := ⟨0x2210 + 32 * k, 0, 64⟩
/-- R164, RC, reset 0. -/
def TIM_PULSE_FIRED (k : Nat) : Fld := ⟨0x2218 + 32 * k, 0, 32⟩
/-- R164, RC, reset 0. -/
def TIM_PULSE_SKIPPED (k : Nat) : Fld := ⟨0x2218 + 32 * k, 32, 32⟩
/-- R188, GRW, reset 0. -/
def TAP_CMD_CFG_CMD_EN : Fld := ⟨0x10000, 0, 1⟩
/-- R188, GRW, reset 0. -/
def TAP_CMD_CFG_ID_SRC : Fld := ⟨0x10000, 1, 1⟩
/-- R188, GRW, reset 0x0. -/
def TAP_CMD_CFG_CMD_LINE : Fld := ⟨0x10000, 8, 4⟩
/-- R188, GRW, reset 0x00. -/
def TAP_CMD_CFG_ID_TAG : Fld := ⟨0x10000, 16, 8⟩
/-- R188, GRW, reset 0x0000. -/
def TAP_EN_LINK_PJ_PER_BYTE : Fld := ⟨0x10008, 0, 16⟩
/-- R188, RO, reset 0. -/
def TAP_EN_DIE_UJ : Fld := ⟨0x10010, 0, 64⟩
/-- R188, RO, reset 0. -/
def TAP_DIE_CNT_COUNT (k : Nat) : Fld := ⟨0x10100 + 8 * k, 0, 64⟩
/-- R188, GRW, reset 0x0000. -/
def TAP_EN_COEF_K0 (g : Nat) : Fld := ⟨0x10200 + 16 * g, 0, 16⟩
/-- R188, GRW, reset 0x0000. -/
def TAP_EN_COEF_K1 (g : Nat) : Fld := ⟨0x10200 + 16 * g, 16, 16⟩
/-- R188, GRW, reset 0x0000. -/
def TAP_EN_COEF_K2 (g : Nat) : Fld := ⟨0x10200 + 16 * g, 32, 16⟩
/-- R188, GRW, reset 0x0000. -/
def TAP_EN_COEF_K3 (g : Nat) : Fld := ⟨0x10200 + 16 * g, 48, 16⟩
/-- R188, GRW, reset 0x0000. -/
def TAP_EN_COEF_L (g : Nat) : Fld := ⟨0x10208 + 16 * g, 0, 16⟩
/-- R188, GRW, reset 0x0000. -/
def TAP_EN_COEF_V_NOM (g : Nat) : Fld := ⟨0x10208 + 16 * g, 16, 16⟩
/-- R188, RO, reset 0. -/
def TAP_CLU_STATE_FALLOW (n : Nat) : Fld := ⟨0x10800 + 8 * n, 0, 1⟩
/-- R188, RO, reset 0. -/
def TAP_CLU_STATE_ABSENT (n : Nat) : Fld := ⟨0x10800 + 8 * n, 1, 1⟩
/-- R188, RO, reset 0x0000_0000. -/
def TAP_CLU_STATE_CMD_ID (n : Nat) : Fld := ⟨0x10800 + 8 * n, 32, 32⟩
/-- R188, RO, reset 0. -/
def TAP_CLU_FALLOW_FALLOW_NS (n : Nat) : Fld := ⟨0x11000 + 16 * n, 0, 64⟩
/-- R188, RO, reset 0. -/
def TAP_CLU_FALLOW_ENTRIES (n : Nat) : Fld := ⟨0x11008 + 16 * n, 0, 32⟩
/-- R188, RO, reset 0. -/
def TAP_CLU_FALLOW_SILENT (n : Nat) : Fld := ⟨0x11008 + 16 * n, 32, 32⟩
/-- R188, RO, reset 0. -/
def TAP_EN_PART_UJ (p : Nat) : Fld := ⟨0x12000 + 64 * p, 0, 64⟩
/-- R188, RO, reset 0. -/
def TAP_EN_QUEUE_UJ (p : Nat) (s : Nat) : Fld := ⟨0x12008 + 64 * p + 8 * s, 0, 64⟩
/-- R188, RO, reset 0xFF. -/
def TAP_SLICE_CFG_EVENT (n : Nat) (s : Nat) : Fld := .at (0x16000 + 16 * n + s) 0 8
/-- R188, RO, reset 0. -/
def TAP_ACC_ACC (n : Nat) (s : Nat) : Fld := ⟨0x18000 + 128 * n + 8 * s, 0, 64⟩
/-- R221, RO, reset 0x0000_0000. -/
def SHF_EPOCH_EPOCH : Fld := ⟨0x20000, 0, 32⟩
/-- R221, RO, reset 0b000. -/
def SHF_STATUS_LEVEL : Fld := ⟨0x20000, 32, 3⟩
/-- R221, RO, reset 0b000. -/
def SHF_STATUS_PEND_LEVEL : Fld := ⟨0x20000, 36, 3⟩
/-- R221, RO, reset 0. -/
def SHF_STATUS_PEND : Fld := ⟨0x20000, 39, 1⟩
/-- R221, RO, reset 0. -/
def SHF_STATUS_SENDING : Fld := ⟨0x20000, 40, 1⟩
/-- R221, RO, reset 0x0000_0000. -/
def SHF_LADDER_EPOCH_APPLY_EPOCH : Fld := ⟨0x20008, 0, 32⟩
/-- R221, RC, reset 0x00. -/
def SHF_ERR_LATE : Fld := ⟨0x20008, 32, 8⟩
/-- R221, RC, reset 0x00. -/
def SHF_ERR_MISMATCH : Fld := ⟨0x20008, 40, 8⟩
/-- R221, RC, reset 0x00. -/
def SHF_ERR_MEDIA : Fld := ⟨0x20008, 48, 8⟩
/-- R221, RC, reset 0x00. -/
def SHF_ERR_PARTIAL : Fld := ⟨0x20008, 56, 8⟩
/-- R221, RO, reset 0x0000. -/
def SHF_BUDGET_USED : Fld := ⟨0x20010, 0, 16⟩
/-- R221, RO, reset HTU 0x1000, VTA 0x8000. -/
def SHF_BUDGET_LIMIT : Fld := ⟨0x20010, 16, 16⟩
/-- R221, GRW, reset 0. -/
def SHF_BAR_CFG_BAR_EN : Fld := ⟨0x20020, 0, 1⟩
/-- R221, GRW, reset 0x0. -/
def SHF_BAR_CFG_BAR_LINE : Fld := ⟨0x20020, 1, 4⟩
/-- R221, GRW, reset 0x00. -/
def SHF_BAR_CFG_BAR_PART : Fld := ⟨0x20020, 8, 8⟩
/-- R221, GRW, reset 0b001. -/
def SHF_BAR_CFG_SCOPE : Fld := ⟨0x20020, 16, 3⟩
/-- R221, GRW, reset 800. -/
def SHF_CUTOFF_TRAY : Fld := ⟨0x20040, 0, 32⟩
/-- R221, GRW, reset 5,200. -/
def SHF_CUTOFF_RACK : Fld := ⟨0x20040, 32, 32⟩
/-- R221, GRW, reset 11,200. -/
def SHF_CUTOFF_ROW : Fld := ⟨0x20048, 0, 32⟩
/-- R221, GRW, reset 19,200. -/
def SHF_CUTOFF_HALL : Fld := ⟨0x20048, 32, 32⟩
/-- R221, RO, reset 0. -/
def SHF_MEMBERS_PORTS : Fld := ⟨0x20060, 0, 64⟩
/-- R221, RO, reset 0x00. -/
def SHF_MEMBERS_TRAYS : Fld := ⟨0x20068, 0, 8⟩
/-- R221, RO, reset 0x0000. -/
def SHF_MEMBERS_RACKS : Fld := ⟨0x20068, 8, 16⟩
/-- R221, RO, reset 0x0000. -/
def SHF_MEMBERS_ROWS : Fld := ⟨0x20068, 24, 16⟩
/-- R221, GRW, reset See meaning. -/
def SHF_LADDER_THR_ENTER (n : Nat) : Fld := .at (0x20080 + 4 * n) 0 8
/-- R221, GRW, reset See meaning. -/
def SHF_LADDER_THR_EXIT (n : Nat) : Fld := .at (0x20080 + 4 * n) 8 8
/-- R221, GRW, reset 1,000. -/
def SHF_BAR_WAIT_WAIT : Fld := ⟨0x20090, 0, 32⟩
/-- R221, RW, reset 0x0000. -/
def SHF_COLL_SHEAF_ID (c : Nat) : Fld := ⟨0x21000 + 16 * c, 0, 16⟩
/-- R221, RW, reset 0. -/
def SHF_COLL_UP (c : Nat) : Fld := ⟨0x21000 + 16 * c, 16, 1⟩
/-- R221, RW, reset 0. -/
def SHF_COLL_LOCAL (c : Nat) : Fld := ⟨0x21000 + 16 * c, 17, 1⟩
/-- R221, RW, reset 0. -/
def SHF_COLL_SHIFT (c : Nat) : Fld := ⟨0x21000 + 16 * c, 18, 6⟩
/-- R221, RO, reset 0. -/
def SHF_COLL_LANES (c : Nat) : Fld := ⟨0x21000 + 16 * c, 24, 7⟩
/-- R221, RO, reset 0x0000_0000. -/
def SHF_COLL_DIGEST (c : Nat) : Fld := ⟨0x21000 + 16 * c, 32, 32⟩
/-- R221, RW, reset 0. -/
def SHF_COLL_P0 (c : Nat) : Fld := ⟨0x21008 + 16 * c, 0, 64⟩
/-- R264, RW, reset 0b00. -/
def SNT_MODE_MODE : Fld := ⟨0x30000, 0, 2⟩
/-- R264, RW, reset 0x4. -/
def SNT_MODE_RATE_LOG2 : Fld := ⟨0x30000, 4, 4⟩
/-- R264, GRW, reset 0b00. -/
def SNT_MODE_NEXT_MODE : Fld := ⟨0x30000, 8, 2⟩
/-- R264, GRW, reset 0. -/
def SNT_MODE_NEXT_VALID : Fld := ⟨0x30000, 10, 1⟩
/-- R264, RW, reset 0. -/
def SNT_MODE_STEP_SRC : Fld := ⟨0x30000, 11, 1⟩
/-- R264, RW, reset 1. -/
def SNT_MODE_AUTO_DRAIN : Fld := ⟨0x30000, 12, 1⟩
/-- R264, RO, reset 0b00. -/
def SNT_MODE_MODE_NOW : Fld := ⟨0x30000, 16, 2⟩
/-- R264, RW, reset 0x0A. -/
def SNT_TOL_N : Fld := ⟨0x30000, 32, 5⟩
/-- R264, RW, reset 0x1. -/
def SNT_TOL_NEAR_LOG2 : Fld := ⟨0x30000, 40, 4⟩
/-- R264, RW, reset 0x3580_0000. -/
def SNT_ABS_FLOOR_FLOOR : Fld := ⟨0x30008, 0, 32⟩
/-- R264, RW, reset 0x3. -/
def SNT_REPLAY_CFG_REPLAY_MAX : Fld := ⟨0x30008, 32, 4⟩
/-- R264, RW, reset 0x04. -/
def SNT_REPLAY_CFG_DRAIN_THRESH : Fld := ⟨0x30008, 40, 8⟩
/-- R264, RW, reset 0x0040. -/
def SNT_REPLAY_CFG_DRAIN_WINDOW : Fld := ⟨0x30008, 48, 16⟩
/-- R264, RO, reset 0b000. -/
def SNT_STATUS_CONTEXTS : Fld := ⟨0x30010, 0, 3⟩
/-- R264, RO, reset 0. -/
def SNT_STATUS_DRAINED : Fld := ⟨0x30010, 3, 1⟩
/-- R264, W1C, reset 0. -/
def SNT_STATUS_SUSPECT : Fld := ⟨0x30010, 4, 1⟩
/-- R264, RO, reset 0x000. -/
def SNT_STATUS_LANES_BAD : Fld := ⟨0x30010, 8, 9⟩
/-- R264, RO, reset 0x0000_0000. -/
def SNT_STATUS_STEP : Fld := ⟨0x30010, 32, 32⟩
/-- R264, GRW, reset 0x0000. -/
def SNT_STREAM_STREAM : Fld := ⟨0x30018, 0, 14⟩
/-- R264, GRW, reset 0. -/
def SNT_STREAM_VALID : Fld := ⟨0x30018, 14, 1⟩
/-- R264, RC, reset 0x0000. -/
def SNT_STREAM_DROPPED : Fld := ⟨0x30018, 16, 16⟩
/-- R264, GRW, reset 0. -/
def SNT_SEED_SEED_LO : Fld := ⟨0x30020, 0, 64⟩
/-- R264, GRW, reset 0. -/
def SNT_SEED_SEED_HI : Fld := ⟨0x30028, 0, 64⟩
/-- R264, RO, reset 0. -/
def SNT_CNT_COUNT (k : Nat) : Fld := ⟨0x30040 + 8 * k, 0, 64⟩
/-- R264, RO, reset 0b00. -/
def SNT_REPLAY_HEAD_KIND : Fld := ⟨0x30080, 0, 2⟩
/-- R264, RO, reset 0x00. -/
def SNT_REPLAY_HEAD_EXP : Fld := ⟨0x30080, 8, 8⟩
/-- R264, RO, reset 0x00. -/
def SNT_REPLAY_HEAD_RING_POS : Fld := ⟨0x30080, 16, 8⟩
/-- R264, RO, reset 0x0000_0000. -/
def SNT_REPLAY_HEAD_STEP : Fld := ⟨0x30080, 32, 32⟩
/-- R264, RC, reset 0x0000_0000. -/
def SNT_REPLAY_POP_COLL_ID : Fld := ⟨0x30088, 0, 32⟩
/-- R264, RO, reset 0x0_0000. -/
def SNT_POISON_ORIGIN : Fld := ⟨0x30090, 0, 17⟩
/-- R264, RO, reset 0. -/
def SNT_POISON_HERE : Fld := ⟨0x30090, 17, 1⟩
/-- R264, W1C, reset 0. -/
def SNT_POISON_VALID : Fld := ⟨0x30090, 18, 1⟩
/-- R264, RO, reset 0x0000_0000. -/
def SNT_POISON_COLL_ID : Fld := ⟨0x30090, 32, 32⟩
/-- R264, RO, reset 0x0000. -/
def SNT_POISON_BLOCK : Fld := ⟨0x30098, 0, 16⟩
/-- R264, RO, reset 0x0000_0000. -/
def SNT_POISON_STEP : Fld := ⟨0x30098, 32, 32⟩
/-- R264, GRW, reset 0. -/
def SNT_DIGEST_KEY_KEY_LO : Fld := ⟨0x300a0, 0, 64⟩
/-- R264, GRW, reset 0. -/
def SNT_DIGEST_KEY_KEY_HI : Fld := ⟨0x300a8, 0, 64⟩
/-- R264, RO, reset 0x0. -/
def SNT_DIGEST_STAT_OPEN_NOW : Fld := ⟨0x300b0, 0, 4⟩
/-- R264, RC, reset 0x00. -/
def SNT_DIGEST_STAT_OVERRUN : Fld := ⟨0x300b0, 8, 8⟩
/-- R264, RC, reset 0x00. -/
def SNT_DIGEST_STAT_INVALIDATED : Fld := ⟨0x300b0, 16, 8⟩
/-- R264, RO, reset 0b00. -/
def SNT_LANE_STATE (n : Nat) : Fld := ⟨0x31000 + 8 * n, 0, 2⟩
/-- R264, RC, reset 0x0000. -/
def SNT_LANE_FAILS (n : Nat) : Fld := ⟨0x31000 + 8 * n, 16, 16⟩
/-- R264, RO, reset 0x0000_0000. -/
def SNT_LANE_LAST_FAIL_STEP (n : Nat) : Fld := ⟨0x31000 + 8 * n, 32, 32⟩
/-- R264, RO, reset 0x0000. -/
def SNT_DIGEST_TAG (e : Nat) : Fld := ⟨0x32000 + 32 * e, 0, 16⟩
/-- R264, RO, reset 0b00. -/
def SNT_DIGEST_STATE (e : Nat) : Fld := ⟨0x32000 + 32 * e, 16, 2⟩
/-- R264, RO, reset 0x0000_0000. -/
def SNT_DIGEST_STEP (e : Nat) : Fld := ⟨0x32000 + 32 * e, 32, 32⟩
/-- R264, RO, reset 0. -/
def SNT_DIGEST_LENGTH (e : Nat) : Fld := ⟨0x32008 + 32 * e, 0, 64⟩
/-- R264, RO, reset 0. -/
def SNT_DIGEST_DIGEST_LO (e : Nat) : Fld := ⟨0x32010 + 32 * e, 0, 64⟩
/-- R264, RO, reset 0. -/
def SNT_DIGEST_DIGEST_HI (e : Nat) : Fld := ⟨0x32018 + 32 * e, 0, 64⟩
/-- R299, RO, reset 0x00. -/
def HTR_STATUS_BANKS_ACTIVE : Fld := ⟨0x1000000, 0, 8⟩
/-- R299, RO, reset 0x00. -/
def HTR_STATUS_BANKS_RETIRED : Fld := ⟨0x1000000, 8, 8⟩
/-- R299, RO, reset 0. -/
def HTR_STATUS_INIT_DONE : Fld := ⟨0x1000000, 16, 1⟩
/-- R299, RC, reset 0x00. -/
def HTR_ERR_NO_HIT : Fld := ⟨0x1000000, 32, 8⟩
/-- R299, RC, reset 0x00. -/
def HTR_ERR_MULTI_HIT : Fld := ⟨0x1000000, 40, 8⟩
/-- R299, RC, reset 0x00. -/
def HTR_ERR_MEDIA : Fld := ⟨0x1000000, 48, 8⟩
/-- R299, RC, reset 0x00. -/
def HTR_ERR_LATE_IN : Fld := ⟨0x1000000, 56, 8⟩
/-- R299, GRW, reset 0x32. -/
def HTR_SHARE_SVC_MIN : Fld := ⟨0x1000008, 0, 8⟩
/-- R299, GRW, reset 0x0A. -/
def HTR_SHARE_RUN_MIN : Fld := ⟨0x1000008, 8, 8⟩
/-- R299, GRW, reset 0x03E8. -/
def HTR_PERIOD_US : Fld := ⟨0x1000008, 32, 16⟩
/-- R299, GRW, reset 0x0032. -/
def HTR_PERIOD_FEATURE_CUTOFF : Fld := ⟨0x1000008, 48, 16⟩
/-- R299, RO, reset 0. -/
def HTR_SEARCHES_COUNT : Fld := ⟨0x1000010, 0, 64⟩
/-- R299, RO, reset 0b10. -/
def HTR_BANK_STATE (b : Nat) : Fld := ⟨0x1000100 + 8 * b, 0, 2⟩
/-- R299, RO, reset 0x0000. -/
def HTR_BANK_USED (b : Nat) : Fld := ⟨0x1000100 + 8 * b, 16, 14⟩
/-- R299, RO, reset 0x0000. -/
def HTR_BANK_TREES (b : Nat) : Fld := ⟨0x1000100 + 8 * b, 32, 16⟩
/-- R299, RC, reset 0x00. -/
def HTR_BANK_FIXES (b : Nat) : Fld := ⟨0x1000100 + 8 * b, 48, 8⟩
/-- R299, RO, reset 0b00. -/
def HTR_SLOT_STATE (s : Nat) : Fld := ⟨0x1001000 + 64 * s, 0, 2⟩
/-- R299, RO, reset 0. -/
def HTR_SLOT_LOADED (s : Nat) : Fld := ⟨0x1001000 + 64 * s, 2, 1⟩
/-- R299, RO, reset 0. -/
def HTR_SLOT_TRUSTED (s : Nat) : Fld := ⟨0x1001000 + 64 * s, 3, 1⟩
/-- R299, RO, reset 0xF. -/
def HTR_SLOT_SVC (s : Nat) : Fld := ⟨0x1001000 + 64 * s, 4, 4⟩
/-- R299, RO, reset 0x00. -/
def HTR_SLOT_PART (s : Nat) : Fld := ⟨0x1001000 + 64 * s, 8, 8⟩
/-- R299, RO, reset 0x0000. -/
def HTR_SLOT_TREES (s : Nat) : Fld := ⟨0x1001000 + 64 * s, 16, 16⟩
/-- R299, RO, reset 0. -/
def HTR_SLOT_ENTRIES (s : Nat) : Fld := ⟨0x1001000 + 64 * s, 32, 32⟩
/-- R299, RO, reset 0x00. -/
def HTR_SLOT_GROUPS (s : Nat) : Fld := ⟨0x1001008 + 64 * s, 0, 8⟩
/-- R299, RO, reset 0x000. -/
def HTR_SLOT_FEATURES (s : Nat) : Fld := ⟨0x1001008 + 64 * s, 16, 9⟩
/-- R299, RO, reset 0. -/
def HTR_SLOT_VERSION (s : Nat) : Fld := ⟨0x1001008 + 64 * s, 32, 32⟩
/-- R299, RO, reset 0. -/
def HTR_SLOT_DIGEST (s : Nat) : Fld := ⟨0x1001010 + 64 * s, 0, 64⟩
/-- R299, RC, reset 0. -/
def HTR_SLOT_SKIPPED (s : Nat) : Fld := ⟨0x1001018 + 64 * s, 0, 32⟩
/-- R299, RC, reset 0. -/
def HTR_SLOT_MEDIA (s : Nat) : Fld := ⟨0x1001018 + 64 * s, 32, 32⟩
/-- R299, RO, reset 0xF. -/
def HTR_SVC_SLOT (v : Nat) : Fld := ⟨0x1002000 + 32 * v, 0, 4⟩
/-- R299, RO, reset 0. -/
def HTR_SVC_PEND (v : Nat) : Fld := ⟨0x1002000 + 32 * v, 4, 1⟩
/-- R299, RO, reset 0xF. -/
def HTR_SVC_PEND_SLOT (v : Nat) : Fld := ⟨0x1002000 + 32 * v, 8, 4⟩
/-- R299, GRW, reset 0x0000. -/
def HTR_SVC_STREAM (v : Nat) : Fld := ⟨0x1002000 + 32 * v, 32, 16⟩
/-- R299, GRW, reset 0. -/
def HTR_SVC_VALID (v : Nat) : Fld := ⟨0x1002000 + 32 * v, 48, 1⟩
/-- R299, GRW, reset 0x10. -/
def HTR_SVC_WEIGHT (v : Nat) : Fld := ⟨0x1002008 + 32 * v, 0, 8⟩
/-- R299, GRW, reset 0x000. -/
def HTR_SVC_OFFSET (v : Nat) : Fld := ⟨0x1002008 + 32 * v, 8, 10⟩
/-- R299, GRW, reset 0x7FFF_FFFF_FFFF_FFFF. -/
def HTR_SVC_REPORT (v : Nat) : Fld := ⟨0x1002010 + 32 * v, 0, 64⟩
/-- R299, RO, reset 0. -/
def HTR_SVC_APPLY_NS (v : Nat) : Fld := ⟨0x1002018 + 32 * v, 0, 64⟩
/-- R299, GRW, reset 0x00. -/
def HTR_HIST_FEATURE (h : Nat) : Fld := .at (0x1003000 + 4 * h) 0 8
/-- R299, GRW, reset 0b000. -/
def HTR_HIST_SVC (h : Nat) : Fld := .at (0x1003000 + 4 * h) 8 3
/-- R299, GRW, reset 0. -/
def HTR_HIST_EN (h : Nat) : Fld := .at (0x1003000 + 4 * h) 11 1
/-- R299, GRW, reset 0x4. -/
def HTR_HIST_ALPHA_LOG2 (h : Nat) : Fld := .at (0x1003000 + 4 * h) 12 4
/-- R299, GRW, reset 0x01. -/
def HTR_PART_WT_WEIGHT (p : Nat) : Fld := .at (0x1004000 + 4 * p) 0 8
/-- R299, RO, reset 0x0. -/
def HTH_STATUS_ACTIVE : Fld := ⟨0x1800000, 0, 4⟩
/-- R299, RO, reset 0x0. -/
def HTH_STATUS_RETIRED : Fld := ⟨0x1800000, 4, 4⟩
/-- R299, RC, reset 0x00. -/
def HTH_ERR_SAT : Fld := ⟨0x1800000, 32, 8⟩
/-- R299, RC, reset 0x00. -/
def HTH_ERR_NONFINITE : Fld := ⟨0x1800000, 40, 8⟩
/-- R299, RC, reset 0x00. -/
def HTH_ERR_MEDIA : Fld := ⟨0x1800000, 48, 8⟩
/-- R299, RO, reset 0b00. -/
def HTH_ARRAY_STATE (a : Nat) : Fld := ⟨0x1800100 + 16 * a, 0, 2⟩
/-- R299, RO, reset 0x0. -/
def HTH_ARRAY_SLOT (a : Nat) : Fld := ⟨0x1800100 + 16 * a, 4, 4⟩
/-- R299, RO, reset 0b000. -/
def HTH_ARRAY_JOB (a : Nat) : Fld := ⟨0x1800100 + 16 * a, 8, 3⟩
/-- R299, RO, reset 0. -/
def HTH_ARRAY_MACS (a : Nat) : Fld := ⟨0x1800108 + 16 * a, 0, 64⟩
/-- R321, GRW, reset 0x2. -/
def VTA_FLT_CFG_DECAY_LOG2 : Fld := ⟨0xc0000, 0, 4⟩
/-- R321, GRW, reset 0x032. -/
def VTA_FLT_CFG_LEASE_MS : Fld := ⟨0xc0000, 16, 10⟩
/-- R321, GRW, reset 0x03E8. -/
def VTA_FLT_CLEAR_CLEAR_PERIODS : Fld := ⟨0xc0000, 32, 16⟩
/-- R321, GRW, reset 0x0064. -/
def VTA_FLT_CLEAR_STRAG_THR : Fld := ⟨0xc0000, 48, 16⟩
/-- R321, GRW, reset 0x0002_0000. -/
def VTA_FLT_THR_NOTIFY_THR : Fld := ⟨0xc0008, 0, 32⟩
/-- R321, GRW, reset 0x0004_0000. -/
def VTA_FLT_THR_PROB_THR : Fld := ⟨0xc0008, 32, 32⟩
/-- R321, GRW, reset 0x0008_0000. -/
def VTA_FLT_THR_QUAR_THR : Fld := ⟨0xc0010, 0, 32⟩
/-- R321, GRW, reset 0x10. -/
def VTA_FLT_WEIGHT_W0 : Fld := ⟨0xc0010, 32, 8⟩
/-- R321, GRW, reset 0x00. -/
def VTA_FLT_WEIGHT_W1 : Fld := ⟨0xc0010, 40, 8⟩
/-- R321, GRW, reset 0x00. -/
def VTA_FLT_WEIGHT_W2 : Fld := ⟨0xc0010, 48, 8⟩
/-- R321, GRW, reset 0x00. -/
def VTA_FLT_WEIGHT_W3 : Fld := ⟨0xc0010, 56, 8⟩
/-- R321, GRW, reset 0x0001_0000. -/
def VTA_FLT_FAILW_FAILW : Fld := ⟨0xc0018, 0, 32⟩
/-- R321, GRW, reset 0x02. -/
def VTA_FLT_BUDGET_AT_ONCE : Fld := ⟨0xc0018, 32, 8⟩
/-- R321, GRW, reset 0x04. -/
def VTA_FLT_BUDGET_PER_DAY : Fld := ⟨0xc0018, 40, 8⟩
/-- R321, RO, reset 0x00. -/
def VTA_FLT_BUDGET_IN_QUAR : Fld := ⟨0xc0018, 48, 8⟩
/-- R321, RO, reset 0x00. -/
def VTA_FLT_BUDGET_LAST_24H : Fld := ⟨0xc0018, 56, 8⟩
/-- R321, GRW, reset 0x0000. -/
def VTA_FLT_STREAM_VERDICT : Fld := ⟨0xc0020, 0, 16⟩
/-- R321, GRW, reset 0. -/
def VTA_FLT_STREAM_V_VALID : Fld := ⟨0xc0020, 16, 1⟩
/-- R321, GRW, reset 0x0000. -/
def VTA_FLT_STREAM_STRAG : Fld := ⟨0xc0020, 32, 16⟩
/-- R321, GRW, reset 0. -/
def VTA_FLT_STREAM_S_VALID : Fld := ⟨0xc0020, 48, 1⟩
/-- R321, RO, reset 0. -/
def VTA_JOB_JOB_ID : Fld := ⟨0xc0040, 0, 32⟩
/-- R321, RO, reset 0b00. -/
def VTA_JOB_STATE : Fld := ⟨0xc0040, 32, 2⟩
/-- R321, RO, reset 0. -/
def VTA_JOB_ROOT : Fld := ⟨0xc0040, 34, 1⟩
/-- R321, RO, reset 0x00. -/
def VTA_JOB_CAUSE : Fld := ⟨0xc0040, 40, 8⟩
/-- R321, RO, reset 0. -/
def VTA_JOB_T_START : Fld := ⟨0xc0048, 0, 64⟩
/-- R321, RO, reset 0b000. -/
def VTA_DIE_VERDICT (p : Nat) : Fld := ⟨0xc1000 + 32 * p, 0, 3⟩
/-- R321, RO, reset 0x00. -/
def VTA_DIE_CAUSE (p : Nat) : Fld := ⟨0xc1000 + 32 * p, 8, 8⟩
/-- R321, RO, reset 0. -/
def VTA_DIE_SUSPECT_FUR (p : Nat) : Fld := ⟨0xc1000 + 32 * p, 16, 1⟩
/-- R321, RO, reset 0. -/
def VTA_DIE_SUSPECT_MGMT (p : Nat) : Fld := ⟨0xc1000 + 32 * p, 17, 1⟩
/-- R321, RO, reset 0. -/
def VTA_DIE_LAPSED (p : Nat) : Fld := ⟨0xc1000 + 32 * p, 18, 1⟩
/-- R321, RO, reset 0. -/
def VTA_DIE_JOB_ID (p : Nat) : Fld := ⟨0xc1000 + 32 * p, 32, 32⟩
/-- R321, RO, reset 0. -/
def VTA_DIE_HS (p : Nat) : Fld := ⟨0xc1008 + 32 * p, 0, 64⟩
/-- R321, RO, reset 0. -/
def VTA_DIE_LEASE_END (p : Nat) : Fld := ⟨0xc1010 + 32 * p, 0, 64⟩
/-- R321, RO, reset 0. -/
def VTA_DIE_FUR_AGE (p : Nat) : Fld := ⟨0xc1018 + 32 * p, 0, 32⟩
/-- R321, RO, reset 0. -/
def VTA_DIE_MGMT_AGE (p : Nat) : Fld := ⟨0xc1018 + 32 * p, 32, 32⟩
/-- R321, RO, reset 0. -/
def HTU_JOB_JOB_ID : Fld := ⟨0x800, 0, 32⟩
/-- R321, RO, reset 0b00. -/
def HTU_JOB_STATE : Fld := ⟨0x800, 32, 2⟩
/-- R321, W1C, reset 0. -/
def HTU_JOB_ABORT : Fld := ⟨0x800, 34, 1⟩
/-- R321, RW, reset 0. -/
def HTU_JOB_ABORT_IE : Fld := ⟨0x800, 35, 1⟩
/-- R321, RO, reset 0. -/
def HTU_JOB_PROBATION : Fld := ⟨0x800, 36, 1⟩
/-- R321, RO, reset 0. -/
def HTU_JOB_QUARANTINED : Fld := ⟨0x800, 37, 1⟩
/-- R321, RO, reset 0b00. -/
def HTU_JOB_PRE_MODE : Fld := ⟨0x800, 38, 2⟩
/-- R321, RO, reset 0x00. -/
def HTU_JOB_CAUSE : Fld := ⟨0x800, 40, 8⟩
/-- R321, RO, reset 0. -/
def HTU_JOB_T_START : Fld := ⟨0x808, 0, 64⟩
/-- R348, GRW, reset 0x0000. -/
def PWR_CTL_STREAM : Fld := ⟨0x40000, 0, 16⟩
/-- R348, GRW, reset 0. -/
def PWR_CTL_VALID : Fld := ⟨0x40000, 16, 1⟩
/-- R348, GRW, reset 0. -/
def PWR_CTL_STEP_REC : Fld := ⟨0x40000, 17, 1⟩
/-- R348, RO, reset 0. -/
def PWR_STATUS_CAPPED : Fld := ⟨0x40000, 32, 1⟩
/-- R348, RO, reset 0. -/
def PWR_STATUS_DEFERRED : Fld := ⟨0x40000, 33, 1⟩
/-- R348, RO, reset 0. -/
def PWR_STATUS_EMERG : Fld := ⟨0x40000, 34, 1⟩
/-- R348, RO, reset 0. -/
def PWR_STATUS_THERMAL : Fld := ⟨0x40000, 35, 1⟩
/-- R348, RO, reset 0. -/
def PWR_STATUS_HOLD : Fld := ⟨0x40000, 36, 1⟩
/-- R348, RO, reset 0. -/
def PWR_STATUS_THERM_STALE : Fld := ⟨0x40000, 37, 1⟩
/-- R348, RO, reset 0. -/
def PWR_STATUS_CEIL_LOW : Fld := ⟨0x40000, 38, 1⟩
/-- R348, RC, reset 0x00. -/
def PWR_STATUS_ACK_SLOW : Fld := ⟨0x40000, 40, 8⟩
/-- R348, RC, reset 0x00. -/
def PWR_STATUS_DEFER_EXPIRED : Fld := ⟨0x40000, 48, 8⟩
/-- R348, RC, reset 0x00. -/
def PWR_STATUS_HOLDS : Fld := ⟨0x40000, 56, 8⟩
/-- R348, RO, reset 0. -/
def PWR_LIMIT_CAP_MW : Fld := ⟨0x40008, 0, 32⟩
/-- R348, RO, reset 0. -/
def PWR_LIMIT_BUDGET_MW : Fld := ⟨0x40008, 32, 32⟩
/-- R348, RW, reset 0x00A. -/
def PWR_CTRL_CFG_CTRL_US : Fld := ⟨0x40010, 0, 10⟩
/-- R348, RW, reset 0x2710. -/
def PWR_CTRL_CFG_HEADROOM_MW : Fld := ⟨0x40010, 16, 16⟩
/-- R348, RW, reset 0x0000_07D0. -/
def PWR_CTRL_CFG_DEFER_MAX_US : Fld := ⟨0x40010, 32, 32⟩
/-- R348, GRW, reset 0x8AC0. -/
def PWR_LANE_FULL_MW : Fld := ⟨0x40018, 0, 16⟩
/-- R348, GRW, reset 0x01E0. -/
def PWR_LANE_BASE_MW : Fld := ⟨0x40018, 16, 16⟩
/-- R348, GRW, reset 0x05. -/
def PWR_SEQ_SETTLE_US : Fld := ⟨0x40018, 32, 8⟩
/-- R348, GRW, reset 0x27C. -/
def PWR_THERM_CFG_WARN : Fld := ⟨0x40020, 0, 10⟩
/-- R348, GRW, reset 0x2A4. -/
def PWR_THERM_CFG_EMERG : Fld := ⟨0x40020, 16, 10⟩
/-- R348, RO, reset 0x08. -/
def PWR_STAGGER_WAVES : Fld := ⟨0x40020, 32, 5⟩
/-- R348, RO, reset 0x19. -/
def PWR_STAGGER_SPACING_NS : Fld := ⟨0x40020, 40, 8⟩
/-- R348, RO, reset 0. -/
def PWR_STAGGER_ROTATE : Fld := ⟨0x40020, 48, 1⟩
/-- R348, RO, reset 1. -/
def PWR_STAGGER_DROOP_HOLD : Fld := ⟨0x40020, 49, 1⟩
/-- R348, RO, reset 0x03E8. -/
def PWR_STAGGER_HOLD_DROOP_MAX_NS : Fld := ⟨0x40028, 0, 16⟩
/-- R348, RC, reset 0x0000. -/
def PWR_STAGGER_HOLD_DROOP_FORCED : Fld := ⟨0x40028, 16, 16⟩
/-- R348, RO, reset 0b00. -/
def PWR_BO_STATE : Fld := ⟨0x40030, 0, 2⟩
/-- R348, RO, reset 0x00. -/
def PWR_BO_RAIL : Fld := ⟨0x40030, 8, 5⟩
/-- R348, RO, reset —. -/
def PWR_BO_RET_RET_VALID : Fld := ⟨0x40038, 0, 1⟩
/-- R348, RO, reset —. -/
def PWR_BO_RET_RAIL : Fld := ⟨0x40038, 1, 5⟩
/-- R348, RO, reset —. -/
def PWR_BO_RET_TIMEV : Fld := ⟨0x40038, 6, 1⟩
/-- R348, RO, reset —. -/
def PWR_BO_RET_T_ENTRY : Fld := ⟨0x40040, 0, 64⟩
/-- R348, GRW, reset 0x0E10. -/
def PWR_TRIM_PERIOD_S : Fld := ⟨0x40050, 0, 16⟩
/-- R348, GRW, reset 0x014. -/
def PWR_TRIM_GUARD : Fld := ⟨0x40050, 16, 10⟩
/-- R348, GRW, reset 1. -/
def PWR_TRIM_TRIM_EN : Fld := ⟨0x40050, 26, 1⟩
/-- R348, RO, reset fuse. -/
def PWR_TRIM_REF_IDX : Fld := ⟨0x40050, 32, 4⟩
/-- R348, RO, reset 0. -/
def PWR_MEAS_PM_MW : Fld := ⟨0x40048, 0, 32⟩
/-- R348, RO, reset 0. -/
def PWR_MEAS_ALLOW_MW : Fld := ⟨0x40048, 32, 32⟩
/-- R348, RO, reset fuse. -/
def PWR_VF_MHZ (i : Nat) : Fld := .at (0x40100 + 4 * i) 0 16
/-- R348, RO, reset fuse. -/
def PWR_VF_MV (i : Nat) : Fld := .at (0x40100 + 4 * i) 16 16
/-- R348, RO, reset 0x0. -/
def PWR_GRP_F_IDX (g : Nat) : Fld := ⟨0x40200 + 32 * g, 0, 4⟩
/-- R348, RO, reset 0x0. -/
def PWR_GRP_V_IDX (g : Nat) : Fld := ⟨0x40200 + 32 * g, 4, 4⟩
/-- R348, RW, reset 0xF. -/
def PWR_GRP_REQ (g : Nat) : Fld := ⟨0x40200 + 32 * g, 8, 4⟩
/-- R348, RO, reset 0xF. -/
def PWR_GRP_CEIL_IDX (g : Nat) : Fld := ⟨0x40200 + 32 * g, 12, 4⟩
/-- R348, RO, reset 0xF. -/
def PWR_GRP_CAP_IDX (g : Nat) : Fld := ⟨0x40200 + 32 * g, 16, 4⟩
/-- R348, RO, reset 0xF. -/
def PWR_GRP_THERM_IDX (g : Nat) : Fld := ⟨0x40200 + 32 * g, 20, 4⟩
/-- R348, RO, reset 0. -/
def PWR_GRP_PEND (g : Nat) : Fld := ⟨0x40200 + 32 * g, 24, 1⟩
/-- R348, RO, reset fuse. -/
def PWR_GRP_AGE_BASE (g : Nat) : Fld := ⟨0x40200 + 32 * g, 32, 24⟩
/-- R348, RO, reset 0. -/
def PWR_GRP_AGE_MIN (g : Nat) : Fld := ⟨0x40208 + 32 * g, 0, 24⟩
/-- R348, RO, reset fuse. -/
def PWR_GRP_FMAX_FUSE (g : Nat) : Fld := ⟨0x40208 + 32 * g, 32, 16⟩
/-- R348, RO, reset 0. -/
def PWR_GRP_TRIM_MHZ (g : Nat) : Fld := ⟨0x40208 + 32 * g, 48, 16⟩
/-- R348, RO, reset 0. -/
def PWR_GRP_LAST_F_NS (g : Nat) : Fld := ⟨0x40210 + 32 * g, 0, 64⟩
/-- R348, GRW, reset fuse. -/
def PWR_VMON_VWARN_MV (r : Nat) : Fld := ⟨0x40400 + 8 * r, 0, 16⟩
/-- R348, GRW, reset fuse. -/
def PWR_VMON_VRESET_MV (r : Nat) : Fld := ⟨0x40400 + 8 * r, 16, 16⟩
/-- R348, GRW, reset fuse. -/
def PWR_VMON_HYST_MV (r : Nat) : Fld := ⟨0x40400 + 8 * r, 32, 16⟩
/-- R348, RW, reset fuse. -/
def PWR_FMAX_MHZ (n : Nat) : Fld := .at (0xa3000 + 4 * n) 0 16
/-- R348, GRW, reset 0. -/
def PWR_TRAY_TRAY_MW : Fld := ⟨0x40080, 0, 32⟩
/-- R348, GRW, reset 0x01F4. -/
def PWR_TRAY_DIE_MIN_W : Fld := ⟨0x40080, 32, 16⟩
/-- R348, GRW, reset 0x0384. -/
def PWR_TRAY_DIE_MAX_W : Fld := ⟨0x40080, 48, 16⟩
/-- R348, GRW, reset 0x1388. -/
def PWR_TRAY_STEP_MW : Fld := ⟨0x40088, 0, 16⟩
/-- R348, GRW, reset 0x07D0. -/
def PWR_TRAY_SHIFT_LAG_NS : Fld := ⟨0x40088, 16, 16⟩
/-- R348, GRW, reset 0. -/
def PWR_TRAY_AUTO : Fld := ⟨0x40088, 32, 1⟩
/-- R348, RO, reset 0. -/
def PWR_TRAY_MOVE_BUSY : Fld := ⟨0x40088, 33, 1⟩
/-- R348, RO, reset 0. -/
def PWR_DIE_BUDGET_MW (p : Nat) : Fld := .at (0x40100 + 4 * p) 0 32
/-- R371, RO, reset 0b00. -/
def TRC_STATUS_PHASE : Fld := ⟨0x50000, 0, 2⟩
/-- R371, RO, reset 0x00. -/
def TRC_STATUS_OWNER : Fld := ⟨0x50000, 8, 8⟩
/-- R371, RC, reset 0x0000. -/
def TRC_STATUS_IGNORED : Fld := ⟨0x50000, 16, 16⟩
/-- R371, RO, reset 0x0000_0000. -/
def TRC_STATUS_TRIGGERS : Fld := ⟨0x50000, 32, 32⟩
/-- R371, RW, reset 0x0. -/
def TRC_CFG_PRE : Fld := ⟨0x50008, 0, 4⟩
/-- R371, RW, reset 0x00. -/
def TRC_CFG_TRIG_EN : Fld := ⟨0x50008, 8, 8⟩
/-- R371, RW, reset 0. -/
def TRC_CFG_REARM : Fld := ⟨0x50008, 16, 1⟩
/-- R371, RW, reset 0. -/
def TRC_CFG_COMPRESS : Fld := ⟨0x50008, 17, 1⟩
/-- R371, RW, reset 0x00. -/
def TRC_CFG_TRIG_TAG : Fld := ⟨0x50008, 24, 8⟩
/-- R371, RW, reset 0x0000_0000. -/
def TRC_CFG_POST_US : Fld := ⟨0x50008, 32, 32⟩
/-- R371, RW, reset 0x0064. -/
def TRC_SYNC_SYNC_US : Fld := ⟨0x50010, 0, 16⟩
/-- R371, RC, reset 0. -/
def TRC_LOST_WORDS : Fld := ⟨0x50018, 0, 64⟩
/-- R371, RO, reset 0. -/
def TRC_TRIG_NS_NS : Fld := ⟨0x50020, 0, 64⟩
/-- R371, RW, reset 0x0000. -/
def TRC_FILT_SRC_FIRST (i : Nat) : Fld := ⟨0x50100 + 8 * i, 0, 16⟩
/-- R371, RW, reset 0x0000. -/
def TRC_FILT_SRC_LAST (i : Nat) : Fld := ⟨0x50100 + 8 * i, 16, 16⟩
/-- R371, RW, reset 0x00. -/
def TRC_FILT_TAG_VAL (i : Nat) : Fld := ⟨0x50100 + 8 * i, 32, 8⟩
/-- R371, RW, reset 0x00. -/
def TRC_FILT_TAG_MASK (i : Nat) : Fld := ⟨0x50100 + 8 * i, 40, 8⟩
/-- R371, RW, reset 0. -/
def TRC_FILT_VALID (i : Nat) : Fld := ⟨0x50100 + 8 * i, 48, 1⟩
/-- R371, GRW, reset 0x0000. -/
def TRC_STREAM_STREAM (p : Nat) : Fld := .at (0x50400 + 4 * p) 0 16
/-- R371, GRW, reset 0. -/
def TRC_STREAM_VALID (p : Nat) : Fld := .at (0x50400 + 4 * p) 16 1
/-- R371, GRW, reset 0. -/
def TRC_STREAM_ORD (p : Nat) : Fld := .at (0x50400 + 4 * p) 17 1
/-- R371, GRW, reset 0. -/
def TRC_STREAM_SIG (p : Nat) : Fld := .at (0x50400 + 4 * p) 18 1
/-- R371, RO, reset 0b00. -/
def TRC_DUMP_STATE (c : Nat) : Fld := ⟨0x50800 + 32 * c, 0, 2⟩
/-- R371, W1C, reset 0. -/
def TRC_DUMP_HALT (c : Nat) : Fld := ⟨0x50800 + 32 * c, 2, 1⟩
/-- R371, RO, reset 0b000. -/
def TRC_DUMP_CAUSE (c : Nat) : Fld := ⟨0x50800 + 32 * c, 3, 3⟩
/-- R371, RO, reset 0. -/
def TRC_DUMP_NAME (c : Nat) : Fld := ⟨0x50800 + 32 * c, 32, 32⟩
/-- R371, RO, reset 0. -/
def TRC_DUMP_STEP (c : Nat) : Fld := ⟨0x50808 + 32 * c, 0, 32⟩
/-- R371, RO, reset 0. -/
def TRC_DUMP_DONE (c : Nat) : Fld := ⟨0x50810 + 32 * c, 0, 64⟩
/-- R371, GRW, reset 0b11. -/
def CMP_CFG_UNIT_KIB : Fld := ⟨0x51000, 0, 2⟩
/-- R371, GRW, reset 0. -/
def CMP_CFG_FIXED_ONLY : Fld := ⟨0x51000, 2, 1⟩
/-- R371, RO, reset 0x00. -/
def CMP_STATUS_BUSY : Fld := ⟨0x51000, 32, 5⟩
/-- R371, RC, reset 0x00. -/
def CMP_STATUS_STORED : Fld := ⟨0x51000, 48, 8⟩
/-- R371, RC, reset 0x00. -/
def CMP_STATUS_BYPASS : Fld := ⟨0x51000, 56, 8⟩
/-- R371, RO, reset 0. -/
def CMP_BYTES_IN : Fld := ⟨0x51008, 0, 64⟩
/-- R371, RO, reset 0. -/
def CMP_BYTES_OUT : Fld := ⟨0x51010, 0, 64⟩
/-- R371, GRW, reset 0x0000. -/
def TRC_ARCH_PART_FIRST (p : Nat) : Fld := ⟨0x52000 + 8 * p, 0, 16⟩
/-- R371, GRW, reset 0x0000. -/
def TRC_ARCH_PART_COUNT (p : Nat) : Fld := ⟨0x52000 + 8 * p, 16, 16⟩
/-- R371, GRW, reset 0. -/
def TRC_ARCH_PART_MODE (p : Nat) : Fld := ⟨0x52000 + 8 * p, 32, 1⟩
/-- R371, GRW, reset 0. -/
def TRC_ARCH_PART_COMPRESS (p : Nat) : Fld := ⟨0x52000 + 8 * p, 33, 1⟩
/-- R371, GRW, reset 0. -/
def TRC_ARCH_PART_VALID (p : Nat) : Fld := ⟨0x52000 + 8 * p, 34, 1⟩
/-- R371, RC, reset 0x0000. -/
def TRC_ARCH_PART_REFUSED (p : Nat) : Fld := ⟨0x52000 + 8 * p, 48, 16⟩
/-- R371, GRW, reset 0x00. -/
def TRC_STAGE_PAGE_OWNER (i : Nat) : Fld := .at (0x53000 + 4 * i) 0 8
/-- R371, GRW, reset 0. -/
def TRC_STAGE_PAGE_VALID (i : Nat) : Fld := .at (0x53000 + 4 * i) 8 1
/-- R371, GRW, reset 0. -/
def TRC_STAGE_PAGE_GOLDEN (i : Nat) : Fld := .at (0x53000 + 4 * i) 9 1
/-- R400, RO, reset 0b001. -/
def FUR_PORT_STATE (k : Nat) : Fld := ⟨0x90000 + 64 * k, 0, 3⟩
/-- R400, RO, reset 0. -/
def FUR_PORT_FWD (k : Nat) : Fld := ⟨0x90000 + 64 * k, 3, 1⟩
/-- R400, RO, reset 0x0. -/
def FUR_PORT_PEER_GEN (k : Nat) : Fld := ⟨0x90000 + 64 * k, 4, 4⟩
/-- R400, RO, reset 0x000. -/
def FUR_PORT_PEER_PART (k : Nat) : Fld := ⟨0x90000 + 64 * k, 8, 12⟩
/-- R400, RO, reset 0. -/
def FUR_PORT_LANE_FAIL (k : Nat) : Fld := ⟨0x90000 + 64 * k, 32, 32⟩
/-- R400, RC, reset 0x0000. -/
def FUR_PORT_CRC_ERR (k : Nat) : Fld := ⟨0x90008 + 64 * k, 0, 16⟩
/-- R400, RC, reset 0x0000. -/
def FUR_PORT_RETRIES (k : Nat) : Fld := ⟨0x90008 + 64 * k, 16, 16⟩
/-- R400, RC, reset 0x00. -/
def FUR_PORT_RETRAINS (k : Nat) : Fld := ⟨0x90008 + 64 * k, 32, 8⟩
/-- R400, RC, reset 0x00. -/
def FUR_PORT_DUPS (k : Nat) : Fld := ⟨0x90008 + 64 * k, 40, 8⟩
/-- R400, RC, reset 0x00. -/
def FUR_PORT_REWOUND (k : Nat) : Fld := ⟨0x90008 + 64 * k, 48, 8⟩
/-- R400, RO, reset 0. -/
def FUR_PORT_TX_FLITS (k : Nat) : Fld := ⟨0x90010 + 64 * k, 0, 64⟩
/-- R400, RO, reset 0. -/
def FUR_PORT_RX_FLITS (k : Nat) : Fld := ⟨0x90018 + 64 * k, 0, 64⟩
/-- R400, RO, reset 0. -/
def FUR_PORT_UP_NS (k : Nat) : Fld := ⟨0x90020 + 64 * k, 0, 64⟩
/-- R400, GRW, reset 0x0032. -/
def SCH_GATE_GATE_START : Fld := ⟨0x91000, 0, 16⟩
/-- R400, GRW, reset 0x0258. -/
def SCH_GATE_GATE_END : Fld := ⟨0x91000, 16, 16⟩
/-- R400, GRW, reset 0x0001. -/
def SCH_SAMPLE_SAMPLE_US : Fld := ⟨0x91000, 32, 16⟩
/-- R400, GRW, reset 0x0064. -/
def SCH_SAMPLE_GAP_WAIT_US : Fld := ⟨0x91000, 48, 16⟩
/-- R400, RO, reset 0x00. -/
def SCH_INGRESS_OCC : Fld := ⟨0x91008, 0, 8⟩
/-- R400, GRW, reset 0x46. -/
def SCH_INGRESS_YELLOW_DROP : Fld := ⟨0x91008, 8, 8⟩
/-- R400, GRW, reset 0. -/
def SCH_HRING_BASE : Fld := ⟨0x91020, 0, 64⟩
/-- R400, GRW, reset 0x00. -/
def SCH_HRING_SIZE_LOG2 : Fld := ⟨0x91028, 0, 6⟩
/-- R400, GRW, reset 0. -/
def SCH_HRING_VALID : Fld := ⟨0x91028, 6, 1⟩
/-- R400, RO, reset 0. -/
def SCH_HRING_HEAD : Fld := ⟨0x91030, 0, 32⟩
/-- R400, RW, reset 0. -/
def SCH_HRING_TAIL : Fld := ⟨0x91030, 32, 32⟩
/-- R400, GRW, reset 8, 4, 2, 2, 1, 2. -/
def SCH_SVC_WEIGHT (s : Nat) : Fld := ⟨0x91100 + 8 * s, 0, 8⟩
/-- R400, GRW, reset 10, 5, 5, 5, 2, 3. -/
def SCH_SVC_MIN_PCT (s : Nat) : Fld := ⟨0x91100 + 8 * s, 8, 8⟩
/-- R400, GRW, reset 64, 16, 64, 64, 16, 16. -/
def SCH_SVC_BURST_KIB (s : Nat) : Fld := ⟨0x91100 + 8 * s, 16, 16⟩
/-- R400, GRW, reset p = 0: 0x04; else 0x01. -/
def SCH_PART_WEIGHT (p : Nat) : Fld := .at (0x91200 + 4 * p) 0 8
/-- R400, GRW, reset p = 0: 0x14; else 0x00. -/
def SCH_PART_MIN_PCT (p : Nat) : Fld := .at (0x91200 + 4 * p) 8 8
/-- R400, RO, reset 0. -/
def SCH_Q_DEPTH (p : Nat) (s : Nat) : Fld := ⟨0x92000 + 128 * p + 16 * s, 0, 24⟩
/-- R400, RC, reset 0. -/
def SCH_Q_DEPTH_MAX (p : Nat) (s : Nat) : Fld := ⟨0x92000 + 128 * p + 16 * s, 32, 24⟩
/-- R400, RC, reset 0. -/
def SCH_Q_DELAY_MAX_NS (p : Nat) (s : Nat) : Fld := ⟨0x92008 + 128 * p + 16 * s, 0, 32⟩
/-- R400, RC, reset 0. -/
def SCH_Q_DROPS (p : Nat) (s : Nat) : Fld := ⟨0x92008 + 128 * p + 16 * s, 32, 32⟩
/-- R400, GRW, reset 0. -/
def SCH_POL_CIR (p : Nat) : Fld := ⟨0x9a000 + 32 * p, 0, 32⟩
/-- R400, GRW, reset 0. -/
def SCH_POL_CBS (p : Nat) : Fld := ⟨0x9a000 + 32 * p, 32, 32⟩
/-- R400, GRW, reset 0. -/
def SCH_POL_PIR (p : Nat) : Fld := ⟨0x9a008 + 32 * p, 0, 32⟩
/-- R400, GRW, reset 0. -/
def SCH_POL_PBS (p : Nat) : Fld := ⟨0x9a008 + 32 * p, 32, 32⟩
/-- R400, GRW, reset 0. -/
def SCH_POL_AWARE (p : Nat) : Fld := ⟨0x9a010 + 32 * p, 0, 1⟩
/-- R400, RC, reset 0. -/
def SCH_POL_YELLOW_DROPPED (p : Nat) : Fld := ⟨0x9a018 + 32 * p, 0, 32⟩
/-- R400, RC, reset 0. -/
def SCH_POL_RED_DROPPED (p : Nat) : Fld := ⟨0x9a018 + 32 * p, 32, 32⟩
/-- R420, GRW, reset fuse. -/
def MEM_BCH_CFG_DDR_T : Fld := ⟨0x60000, 0, 7⟩
/-- R420, RO, reset From format header. -/
def MEM_BCH_CFG_FLASH_T : Fld := ⟨0x60000, 8, 7⟩
/-- R420, GRW, reset 0x18. -/
def MEM_BCH_CFG_PATROL_H : Fld := ⟨0x60000, 16, 8⟩
/-- R420, RO, reset fuse. -/
def MEM_BCH_CFG_REPAIR_LEFT : Fld := ⟨0x60000, 24, 8⟩
/-- R420, RC, reset 0. -/
def MEM_REGION_CE (r : Nat) : Fld := ⟨0x60100 + 32 * r, 0, 32⟩
/-- R420, RC, reset 0. -/
def MEM_REGION_UE (r : Nat) : Fld := ⟨0x60100 + 32 * r, 32, 32⟩
/-- R420, RO, reset 0. -/
def MEM_REGION_LAST_CE (r : Nat) : Fld := ⟨0x60108 + 32 * r, 0, 64⟩
/-- R420, RO, reset 0. -/
def MEM_REGION_LAST_UE (r : Nat) : Fld := ⟨0x60110 + 32 * r, 0, 64⟩
/-- R420, RO, reset See meaning. -/
def MEM_REGION_SPARES (r : Nat) : Fld := ⟨0x60118 + 32 * r, 0, 32⟩
/-- R420, RO, reset 0. -/
def EVR_HEAD_CURSOR : Fld := ⟨0x70000, 0, 64⟩
/-- R420, RO, reset 0. -/
def EVR_TAIL_CURSOR : Fld := ⟨0x70008, 0, 64⟩
/-- R420, RO, reset 0x0000. -/
def EVR_STATUS_FIRST_COUNT : Fld := ⟨0x70010, 0, 13⟩
/-- R420, RO, reset 0. -/
def EVR_STATUS_FIRST_CLOSED : Fld := ⟨0x70010, 13, 1⟩
/-- R420, RO, reset 0x40. -/
def EVR_STATUS_BUCKET : Fld := ⟨0x70010, 16, 8⟩
/-- R420, RO, reset 0x00. -/
def EVR_STATUS_SLOTS : Fld := ⟨0x70010, 24, 5⟩
/-- R420, RC, reset 0. -/
def EVR_STATUS_DROPPED : Fld := ⟨0x70010, 32, 32⟩
/-- R420, RO, reset From journal. -/
def EVR_COUNT_HOURS : Fld := ⟨0x70018, 0, 32⟩
/-- R420, RO, reset From journal. -/
def EVR_COUNT_CYCLES : Fld := ⟨0x70018, 32, 24⟩
/-- R420, GRW, reset HTU 0x0FA0, VTA 0x03E8. -/
def EVR_CFG_CLOSE_MS : Fld := ⟨0x70020, 0, 16⟩
/-- R420, GRW, reset HTU 0x0400, VTA 0x1000. -/
def EVR_CFG_RATE : Fld := ⟨0x70020, 16, 16⟩
/-- R427, RO, reset 0. -/
def VTA_STATUS_FUSES : Fld := ⟨0, 32, 1⟩
/-- R427, RO, reset 0. -/
def VTA_STATUS_REF_LOCK : Fld := ⟨0, 33, 1⟩
/-- R427, RO, reset 0. -/
def VTA_STATUS_MEM_INIT : Fld := ⟨0, 34, 1⟩
/-- R427, RO, reset 0. -/
def VTA_STATUS_GORSE_UP : Fld := ⟨0, 35, 1⟩
/-- R427, RO, reset 0. -/
def VTA_STATUS_RECORDER_OPEN : Fld := ⟨0, 36, 1⟩
/-- R427, RO, reset 0. -/
def VTA_STATUS_PCIE_OPEN : Fld := ⟨0, 37, 1⟩
/-- R427, RO, reset 0. -/
def VTA_STATUS_DDR_READY : Fld := ⟨0, 38, 1⟩
/-- R427, RO, reset 0. -/
def VTA_STATUS_BRACKEN_UP : Fld := ⟨0, 39, 1⟩
/-- R427, RO, reset 0. -/
def VTA_STATUS_POLICY : Fld := ⟨0, 40, 1⟩
/-- R427, RO, reset 0. -/
def VTA_STATUS_DDR_SLOW : Fld := ⟨0, 41, 1⟩
/-- R427, RO, reset 0x00. -/
def VTA_STATUS_BOOT_FAIL : Fld := ⟨0, 48, 8⟩
/-- R443, RO, reset 0x000. -/
def VTA_CLK_PLL_RDY : Fld := ⟨0x40, 0, 10⟩
/-- R443, RO, reset 0. -/
def VTA_CLK_REF_LOST : Fld := ⟨0x40, 16, 1⟩
/-- R443, RO, reset 0x000. -/
def VTA_THERM_TJ_MAX : Fld := ⟨0x50, 0, 10⟩
/-- R443, RO, reset 0. -/
def VTA_THERM_THROTTLE : Fld := ⟨0x50, 10, 1⟩
/-- R443, RO, reset 0. -/
def VTA_THERM_STOPPED : Fld := ⟨0x50, 11, 1⟩
/-- R443, RC, reset 0x00. -/
def VTA_THERM_EVENTS : Fld := ⟨0x50, 16, 8⟩
/-- R443, RO, reset 0b00. -/
def VTA_SWG_STATE (g : Nat) : Fld := ⟨0x2000000 + 64 * g, 0, 2⟩
/-- R443, RO, reset 0x28. -/
def VTA_SWG_LOGICAL (g : Nat) : Fld := ⟨0x2000000 + 64 * g, 8, 6⟩
/-- R443, RO, reset 2 for g ≤ 17, 1 otherwise. -/
def VTA_SWG_SPARES (g : Nat) : Fld := ⟨0x2000000 + 64 * g, 16, 2⟩
/-- R443, RO, reset 0. -/
def VTA_SWG_CYCLES (g : Nat) : Fld := ⟨0x2000008 + 64 * g, 0, 64⟩
/-- R443, RO, reset See meaning. -/
def VTA_SWC_LOGICAL (p : Nat) : Fld := .at (0x2010000 + 4 * p) 0 6
/-- R443, RO, reset 0b00 or 0b01. -/
def VTA_SWC_STATE (p : Nat) : Fld := .at (0x2010000 + 4 * p) 6 2
/-- R443, RO, reset fuse. -/
def VTA_SWC_GROUP (p : Nat) : Fld := .at (0x2010000 + 4 * p) 8 5
/-- R119, GRW, reset 0x0000_0000. -/
def SEC_PART_EPOCH_PEND_EPOCH : Fld := ⟨0x81400, 0, 32⟩
/-- R99, RO, reset 0x0000_0010. -/
def CAP_ROOT_OFFSET : Fld := ⟨0x10, 0, 16⟩
/-- R431, RW, reset 0. -/
def MSIX_ADDR (i : Nat) : Fld := ⟨0x3f00000 + 16 * i, 0, 64⟩
/-- R431, RW, reset 0. -/
def MSIX_DATA (i : Nat) : Fld := ⟨0x3f00008 + 16 * i, 0, 32⟩
/-- R431, RW, reset 1. -/
def MSIX_MASK (i : Nat) : Fld := ⟨0x3f00008 + 16 * i, 32, 1⟩
/-- R431, RO, reset 0. -/
def MSIX_PBA_PENDING : Fld := ⟨0x3f01000, 0, 32⟩

end Reg

/-- Access table, offsets 0x0 and up. -/
def Row.rows000_0 : List Row := [
  ⟨true, true, 0, 20, 12, .ro, 0, []⟩,
  ⟨true, true, 0, 16, 4, .ro, 0, []⟩,
  ⟨true, true, 0, 8, 8, .ro, 0, []⟩,
  ⟨true, true, 0, 0, 8, .ro, 0, []⟩,
  ⟨true, false, 4, 0, 1, .ro, 0, []⟩,
  ⟨true, false, 4, 1, 1, .ro, 0, []⟩,
  ⟨true, false, 4, 2, 1, .ro, 0, []⟩,
  ⟨true, false, 4, 3, 1, .ro, 0, []⟩,
  ⟨true, false, 4, 4, 1, .ro, 0, []⟩,
  ⟨true, false, 4, 5, 1, .ro, 0, []⟩,
  ⟨true, false, 4, 6, 1, .ro, 0, []⟩,
  ⟨true, false, 4, 16, 8, .ro, 0, []⟩,
  ⟨true, true, 0x1000, 0, 64, .wo, 0, [(256, 3, 10)]⟩,
  ⟨true, true, 0x1008, 0, 1, .wo, 0, [(256, 3, 10)]⟩,
  ⟨true, true, 0x1010, 0, 64, .rc, 0, [(256, 3, 10)]⟩,
  ⟨true, true, 0x1018, 0, 1, .ro, 0, [(256, 3, 10)]⟩,
  ⟨true, true, 0x1018, 1, 1, .ro, 0, [(256, 3, 10)]⟩,
  ⟨true, true, 0x1018, 2, 9, .ro, 0, [(256, 3, 10)]⟩,
  ⟨true, true, 0x1018, 12, 16, .ro, 0, [(256, 3, 10)]⟩,
  ⟨true, true, 0x101c, 0, 16, .ro, 0, [(256, 3, 10)]⟩,
  ⟨true, true, 0x1020, 0, 1, .rw, 0, [(256, 3, 10)]⟩,
  ⟨true, true, 0x1024, 0, 1, .w1c, 0, [(256, 3, 10)]⟩,
  ⟨true, true, 0x1024, 1, 1, .w1c, 0, [(256, 3, 10)]⟩,
  ⟨true, true, 0x1028, 0, 2, .rw, 0, [(256, 3, 10)]⟩,
  ⟨true, true, 0x102c, 0, 8, .rc, 0, [(256, 3, 10)]⟩,
  ⟨true, true, 0x102c, 8, 8, .rc, 0, [(256, 3, 10)]⟩,
  ⟨true, true, 0x102c, 16, 8, .rc, 0, [(256, 3, 10)]⟩,
  ⟨true, true, 0x102c, 24, 8, .rc, 0, [(256, 3, 10)]⟩,
  ⟨true, true, 0x1030, 0, 32, .ro, 0, [(256, 3, 10)]⟩,
  ⟨true, true, 0x1034, 0, 8, .grw, 0, [(256, 3, 10)]⟩,
  ⟨true, true, 0x1034, 8, 8, .grw, 0, [(256, 3, 10)]⟩,
  ⟨true, true, 0x1038, 0, 8, .rc, 0, [(256, 3, 10)]⟩,
  ⟨true, true, 0x1038, 8, 8, .rc, 0, [(256, 3, 10)]⟩,
  ⟨true, true, 0x2000, 0, 2, .grw, 0, []⟩,
  ⟨true, true, 0x2000, 2, 1, .grw, 0, []⟩,
  ⟨true, true, 0x2000, 8, 4, .grw, 0, []⟩,
  ⟨true, true, 0x2000, 16, 8, .grw, 0, []⟩,
  ⟨true, true, 0x2000, 24, 8, .grw, 0, []⟩,
  ⟨true, true, 0x2004, 0, 1, .ro, 0, []⟩,
  ⟨true, true, 0x2004, 1, 1, .ro, 0, []⟩,
  ⟨true, true, 0x2004, 2, 3, .ro, 0, []⟩,
  ⟨true, true, 0x2004, 5, 1, .ro, 0, []⟩,
  ⟨true, true, 0x2004, 6, 1, .ro, 0, []⟩,
  ⟨true, true, 0x2004, 7, 1, .ro, 0, []⟩,
  ⟨true, true, 0x2004, 8, 1, .ro, 0, []⟩,
  ⟨true, true, 0x2004, 9, 1, .ro, 0, []⟩,
  ⟨true, true, 0x2004, 16, 8, .rc, 0, []⟩,
  ⟨true, true, 0x2004, 24, 8, .rc, 0, []⟩,
  ⟨true, true, 0x2008, 0, 64, .ro, 0, []⟩,
  ⟨true, true, 0x2010, 0, 16, .ro, 0, []⟩,
  ⟨true, true, 0x2018, 0, 40, .ro, 0, []⟩,
  ⟨true, true, 0x2020, 0, 32, .ro, 0, []⟩,
  ⟨true, true, 0x2024, 0, 32, .ro, 0, []⟩,
  ⟨true, true, 0x2028, 0, 64, .ro, 0, []⟩,
  ⟨true, true, 0x2030, 0, 16, .grw, 0, []⟩,
  ⟨true, true, 0x2030, 16, 1, .grw, 0, []⟩,
  ⟨true, false, 0x2040, 0, 16, .grw, 0, []⟩,
  ⟨true, false, 0x2044, 0, 16, .grw, 0, []⟩,
  ⟨false, true, 0x2100, 0, 16, .grw, 0, [(4, 0, 64)]⟩,
  ⟨true, false, 0x2040, 16, 16, .ro, 0, []⟩]

/-- Access table: the capability list (R100): 14 entries on the HTU and 11 on the VTA, 16 bytes apart. -/
def Row.capRows : List Row := [
  ⟨true, true, 0x100, 0, 8, .ro, 0, [(16, 14, 11)]⟩,
  ⟨true, true, 0x100, 8, 8, .ro, 0, [(16, 14, 11)]⟩,
  ⟨true, true, 0x100, 16, 16, .ro, 0, [(16, 14, 11)]⟩,
  ⟨true, true, 0x104, 0, 32, .ro, 0, [(16, 14, 11)]⟩,
  ⟨true, true, 0x108, 0, 32, .ro, 0, [(16, 14, 11)]⟩,
  ⟨true, true, 0x10C, 0, 32, .ro, 0, [(16, 14, 11)]⟩]

/-- Access table, offsets 0x0 and up. -/
def Row.rows000_1 : List Row := [
  ⟨true, false, 0x2044, 16, 16, .ro, 0, []⟩,
  ⟨false, true, 0x2100, 16, 16, .ro, 0, [(4, 0, 64)]⟩,
  ⟨false, true, 0x2040, 0, 8, .grw, 0, []⟩,
  ⟨false, true, 0x2040, 8, 1, .grw, 0, []⟩,
  ⟨false, true, 0x2040, 9, 1, .grw, 0, []⟩,
  ⟨false, true, 0x2040, 12, 4, .grw, 0, []⟩,
  ⟨false, true, 0x2040, 16, 4, .grw, 0, []⟩,
  ⟨false, true, 0x2044, 0, 3, .ro, 0, []⟩,
  ⟨false, true, 0x2044, 3, 3, .ro, 0, []⟩,
  ⟨false, true, 0x2044, 6, 2, .ro, 0, []⟩,
  ⟨false, true, 0x2044, 16, 16, .rc, 0, []⟩,
  ⟨false, true, 0x2060, 0, 64, .grw, 0, [(8, 0, 4)]⟩,
  ⟨true, true, 0x2200, 0, 2, .ro, 0, [(32, 8, 16)]⟩,
  ⟨true, true, 0x2200, 2, 1, .ro, 0, [(32, 8, 16)]⟩,
  ⟨true, true, 0x2200, 4, 4, .ro, 0, [(32, 8, 16)]⟩,
  ⟨true, true, 0x2204, 0, 32, .ro, 0, [(32, 8, 16)]⟩,
  ⟨true, true, 0x2208, 0, 64, .ro, 0, [(32, 8, 16)]⟩,
  ⟨true, true, 0x2210, 0, 64, .ro, 0, [(32, 8, 16)]⟩,
  ⟨true, true, 0x2218, 0, 32, .rc, 0, [(32, 8, 16)]⟩,
  ⟨true, true, 0x221c, 0, 32, .rc, 0, [(32, 8, 16)]⟩,
  ⟨true, false, 0x800, 0, 32, .ro, 0, []⟩,
  ⟨true, false, 0x804, 0, 2, .ro, 0, []⟩,
  ⟨true, false, 0x804, 2, 1, .w1c, 0, []⟩,
  ⟨true, false, 0x804, 3, 1, .rw, 0, []⟩,
  ⟨true, false, 0x804, 4, 1, .ro, 0, []⟩,
  ⟨true, false, 0x804, 5, 1, .ro, 0, []⟩,
  ⟨true, false, 0x804, 6, 2, .ro, 0, []⟩,
  ⟨true, false, 0x804, 8, 8, .ro, 0, []⟩,
  ⟨true, false, 0x808, 0, 64, .ro, 0, []⟩,
  ⟨false, true, 4, 0, 1, .ro, 0, []⟩,
  ⟨false, true, 4, 1, 1, .ro, 0, []⟩,
  ⟨false, true, 4, 2, 1, .ro, 0, []⟩,
  ⟨false, true, 4, 3, 1, .ro, 0, []⟩,
  ⟨false, true, 4, 4, 1, .ro, 0, []⟩,
  ⟨false, true, 4, 5, 1, .ro, 0, []⟩,
  ⟨false, true, 4, 6, 1, .ro, 0, []⟩,
  ⟨false, true, 4, 7, 1, .ro, 0, []⟩,
  ⟨false, true, 4, 8, 1, .ro, 0, []⟩,
  ⟨false, true, 4, 9, 1, .ro, 0, []⟩,
  ⟨false, true, 4, 16, 8, .ro, 0, []⟩,
  ⟨false, true, 0x40, 0, 10, .ro, 0, []⟩,
  ⟨false, true, 0x40, 16, 1, .ro, 0, []⟩,
  ⟨false, true, 0x50, 0, 10, .ro, 0, []⟩,
  ⟨false, true, 0x50, 10, 1, .ro, 0, []⟩,
  ⟨false, true, 0x50, 11, 1, .ro, 0, []⟩,
  ⟨false, true, 0x50, 16, 8, .rc, 0, []⟩,
  ⟨true, true, 0x10, 0, 16, .ro, 0, []⟩]

/-- Access table, offsets 0x10000 and up. -/
def Row.rows001_0 : List Row := [
  ⟨true, false, 0x10000, 0, 1, .grw, 0, []⟩,
  ⟨true, false, 0x10000, 1, 1, .grw, 0, []⟩,
  ⟨true, false, 0x10000, 8, 4, .grw, 0, []⟩,
  ⟨true, false, 0x10000, 16, 8, .grw, 0, []⟩,
  ⟨true, false, 0x10008, 0, 16, .grw, 0, []⟩,
  ⟨true, false, 0x10010, 0, 64, .ro, 0, []⟩,
  ⟨true, false, 0x10100, 0, 64, .ro, 0, [(8, 13, 0)]⟩,
  ⟨true, false, 0x10200, 0, 16, .grw, 0, [(16, 16, 0)]⟩,
  ⟨true, false, 0x10200, 16, 16, .grw, 0, [(16, 16, 0)]⟩,
  ⟨true, false, 0x10204, 0, 16, .grw, 0, [(16, 16, 0)]⟩,
  ⟨true, false, 0x10204, 16, 16, .grw, 0, [(16, 16, 0)]⟩,
  ⟨true, false, 0x10208, 0, 16, .grw, 0, [(16, 16, 0)]⟩,
  ⟨true, false, 0x10208, 16, 16, .grw, 0, [(16, 16, 0)]⟩,
  ⟨true, false, 0x10800, 0, 1, .ro, 0, [(8, 256, 0)]⟩,
  ⟨true, false, 0x10800, 1, 1, .ro, 0, [(8, 256, 0)]⟩,
  ⟨true, false, 0x10804, 0, 32, .ro, 0, [(8, 256, 0)]⟩,
  ⟨true, false, 0x11000, 0, 64, .ro, 0, [(16, 256, 0)]⟩,
  ⟨true, false, 0x11008, 0, 32, .ro, 0, [(16, 256, 0)]⟩,
  ⟨true, false, 0x1100c, 0, 32, .ro, 0, [(16, 256, 0)]⟩,
  ⟨true, false, 0x12000, 0, 64, .ro, 0, [(64, 256, 0)]⟩,
  ⟨true, false, 0x12008, 0, 64, .ro, 0, [(64, 256, 0), (8, 6, 0)]⟩,
  ⟨true, false, 0x16000, 0, 32, .ro, 0, [(16, 256, 0), (4, 4, 0)]⟩,
  ⟨true, false, 0x18000, 0, 64, .ro, 0, [(128, 256, 0), (8, 16, 0)]⟩]

/-- Access table, offsets 0x20000 and up. -/
def Row.rows002_0 : List Row := [
  ⟨true, true, 0x20000, 0, 32, .ro, 0, []⟩,
  ⟨true, true, 0x20004, 0, 3, .ro, 0, []⟩,
  ⟨true, true, 0x20004, 4, 3, .ro, 0, []⟩,
  ⟨true, true, 0x20004, 7, 1, .ro, 0, []⟩,
  ⟨true, true, 0x20004, 8, 1, .ro, 0, []⟩,
  ⟨true, true, 0x20008, 0, 32, .ro, 0, []⟩,
  ⟨true, true, 0x2000c, 0, 8, .rc, 0, []⟩,
  ⟨true, true, 0x2000c, 8, 8, .rc, 0, []⟩,
  ⟨true, true, 0x2000c, 16, 8, .rc, 0, []⟩,
  ⟨true, true, 0x2000c, 24, 8, .rc, 0, []⟩,
  ⟨true, true, 0x20010, 0, 16, .ro, 0, []⟩,
  ⟨true, true, 0x20010, 16, 16, .ro, 0, []⟩,
  ⟨true, true, 0x20020, 0, 1, .grw, 0, []⟩,
  ⟨true, true, 0x20020, 1, 4, .grw, 0, []⟩,
  ⟨true, true, 0x20020, 8, 8, .grw, 0, []⟩,
  ⟨true, true, 0x20020, 16, 3, .grw, 0, []⟩,
  ⟨false, true, 0x20040, 0, 32, .grw, 0, []⟩,
  ⟨false, true, 0x20044, 0, 32, .grw, 0, []⟩,
  ⟨false, true, 0x20048, 0, 32, .grw, 0, []⟩,
  ⟨false, true, 0x2004c, 0, 32, .grw, 0, []⟩,
  ⟨false, true, 0x20060, 0, 64, .ro, 0, []⟩,
  ⟨false, true, 0x20068, 0, 8, .ro, 0, []⟩,
  ⟨false, true, 0x20068, 8, 16, .ro, 0, []⟩,
  ⟨false, true, 0x20068, 24, 16, .ro, 0, []⟩,
  ⟨false, true, 0x20080, 0, 8, .grw, 0, [(4, 0, 4)]⟩,
  ⟨false, true, 0x20080, 8, 8, .grw, 0, [(4, 0, 4)]⟩,
  ⟨false, true, 0x20090, 0, 32, .grw, 0, []⟩,
  ⟨true, true, 0x21000, 0, 16, .rw, 1, [(16, 1024, 4096)]⟩,
  ⟨true, true, 0x21000, 16, 1, .rw, 1, [(16, 1024, 4096)]⟩,
  ⟨true, true, 0x21000, 17, 1, .rw, 1, [(16, 1024, 4096)]⟩,
  ⟨true, true, 0x21000, 18, 6, .rw, 1, [(16, 1024, 4096)]⟩,
  ⟨true, true, 0x21000, 24, 7, .ro, 0, [(16, 1024, 4096)]⟩,
  ⟨true, true, 0x21004, 0, 32, .ro, 0, [(16, 1024, 4096)]⟩,
  ⟨true, true, 0x21008, 0, 64, .rw, 1, [(16, 1024, 4096)]⟩]

/-- Access table, offsets 0x30000 and up. -/
def Row.rows003_0 : List Row := [
  ⟨true, false, 0x30000, 0, 2, .rw, 2, []⟩,
  ⟨true, false, 0x30000, 4, 4, .rw, 2, []⟩,
  ⟨true, false, 0x30000, 8, 2, .grw, 0, []⟩,
  ⟨true, false, 0x30000, 10, 1, .grw, 0, []⟩,
  ⟨true, false, 0x30000, 11, 1, .rw, 2, []⟩,
  ⟨true, false, 0x30000, 12, 1, .rw, 2, []⟩,
  ⟨true, false, 0x30000, 16, 2, .ro, 0, []⟩,
  ⟨true, false, 0x30004, 0, 5, .rw, 2, []⟩,
  ⟨true, false, 0x30004, 8, 4, .rw, 2, []⟩,
  ⟨true, false, 0x30008, 0, 32, .rw, 2, []⟩,
  ⟨true, false, 0x3000c, 0, 4, .rw, 2, []⟩,
  ⟨true, false, 0x3000c, 8, 8, .rw, 2, []⟩,
  ⟨true, false, 0x3000c, 16, 16, .rw, 2, []⟩,
  ⟨true, false, 0x30010, 0, 3, .ro, 0, []⟩,
  ⟨true, false, 0x30010, 3, 1, .ro, 0, []⟩,
  ⟨true, false, 0x30010, 4, 1, .w1c, 0, []⟩,
  ⟨true, false, 0x30010, 8, 9, .ro, 0, []⟩,
  ⟨true, false, 0x30014, 0, 32, .ro, 0, []⟩,
  ⟨true, false, 0x30018, 0, 14, .grw, 0, []⟩,
  ⟨true, false, 0x30018, 14, 1, .grw, 0, []⟩,
  ⟨true, false, 0x30018, 16, 16, .rc, 0, []⟩,
  ⟨true, false, 0x30020, 0, 64, .grw, 0, []⟩,
  ⟨true, false, 0x30028, 0, 64, .grw, 0, []⟩,
  ⟨true, false, 0x30040, 0, 64, .ro, 0, [(8, 8, 0)]⟩,
  ⟨true, false, 0x30080, 0, 2, .ro, 0, []⟩,
  ⟨true, false, 0x30080, 8, 8, .ro, 0, []⟩,
  ⟨true, false, 0x30080, 16, 8, .ro, 0, []⟩,
  ⟨true, false, 0x30084, 0, 32, .ro, 0, []⟩,
  ⟨true, false, 0x30088, 0, 32, .rc, 0, []⟩,
  ⟨true, false, 0x30090, 0, 17, .ro, 0, []⟩,
  ⟨true, false, 0x30090, 17, 1, .ro, 0, []⟩,
  ⟨true, false, 0x30090, 18, 1, .w1c, 0, []⟩,
  ⟨true, false, 0x30094, 0, 32, .ro, 0, []⟩,
  ⟨true, false, 0x30098, 0, 16, .ro, 0, []⟩,
  ⟨true, false, 0x3009c, 0, 32, .ro, 0, []⟩,
  ⟨true, false, 0x300a0, 0, 64, .grw, 0, []⟩,
  ⟨true, false, 0x300a8, 0, 64, .grw, 0, []⟩,
  ⟨true, false, 0x300b0, 0, 4, .ro, 0, []⟩,
  ⟨true, false, 0x300b0, 8, 8, .rc, 0, []⟩,
  ⟨true, false, 0x300b0, 16, 8, .rc, 0, []⟩,
  ⟨true, false, 0x31000, 0, 2, .ro, 0, [(8, 272, 0)]⟩,
  ⟨true, false, 0x31000, 16, 16, .rc, 0, [(8, 272, 0)]⟩,
  ⟨true, false, 0x31004, 0, 32, .ro, 0, [(8, 272, 0)]⟩,
  ⟨true, false, 0x32000, 0, 16, .ro, 0, [(32, 64, 0)]⟩,
  ⟨true, false, 0x32000, 16, 2, .ro, 0, [(32, 64, 0)]⟩,
  ⟨true, false, 0x32004, 0, 32, .ro, 0, [(32, 64, 0)]⟩,
  ⟨true, false, 0x32008, 0, 64, .ro, 0, [(32, 64, 0)]⟩,
  ⟨true, false, 0x32010, 0, 64, .ro, 0, [(32, 64, 0)]⟩,
  ⟨true, false, 0x32018, 0, 64, .ro, 0, [(32, 64, 0)]⟩]

/-- Access table, offsets 0x40000 and up. -/
def Row.rows004_0 : List Row := [
  ⟨true, true, 0x40000, 0, 16, .grw, 0, []⟩,
  ⟨true, true, 0x40000, 16, 1, .grw, 0, []⟩,
  ⟨true, true, 0x40000, 17, 1, .grw, 0, []⟩,
  ⟨true, true, 0x40004, 0, 1, .ro, 0, []⟩,
  ⟨true, true, 0x40004, 1, 1, .ro, 0, []⟩,
  ⟨true, true, 0x40004, 2, 1, .ro, 0, []⟩,
  ⟨true, true, 0x40004, 3, 1, .ro, 0, []⟩,
  ⟨true, true, 0x40004, 4, 1, .ro, 0, []⟩,
  ⟨true, true, 0x40004, 5, 1, .ro, 0, []⟩,
  ⟨true, true, 0x40004, 6, 1, .ro, 0, []⟩,
  ⟨true, true, 0x40004, 8, 8, .rc, 0, []⟩,
  ⟨true, true, 0x40004, 16, 8, .rc, 0, []⟩,
  ⟨true, true, 0x40004, 24, 8, .rc, 0, []⟩,
  ⟨true, false, 0x40008, 0, 32, .ro, 0, []⟩,
  ⟨true, false, 0x4000c, 0, 32, .ro, 0, []⟩,
  ⟨true, false, 0x40010, 0, 10, .rw, 5, []⟩,
  ⟨true, false, 0x40010, 16, 16, .rw, 5, []⟩,
  ⟨true, false, 0x40014, 0, 32, .rw, 5, []⟩,
  ⟨true, false, 0x40018, 0, 16, .grw, 0, []⟩,
  ⟨true, false, 0x40018, 16, 16, .grw, 0, []⟩,
  ⟨true, false, 0x4001c, 0, 8, .grw, 0, []⟩,
  ⟨true, false, 0x40020, 0, 10, .grw, 0, []⟩,
  ⟨true, false, 0x40020, 16, 10, .grw, 0, []⟩,
  ⟨true, false, 0x40024, 0, 5, .ro, 0, []⟩,
  ⟨true, false, 0x40024, 8, 8, .ro, 0, []⟩,
  ⟨true, false, 0x40024, 16, 1, .ro, 0, []⟩,
  ⟨true, false, 0x40024, 17, 1, .ro, 0, []⟩,
  ⟨true, false, 0x40028, 0, 16, .ro, 0, []⟩,
  ⟨true, false, 0x40028, 16, 16, .rc, 0, []⟩,
  ⟨true, false, 0x40030, 0, 2, .ro, 0, []⟩,
  ⟨true, false, 0x40030, 8, 5, .ro, 0, []⟩,
  ⟨true, false, 0x40038, 0, 1, .ro, 0, []⟩,
  ⟨true, false, 0x40038, 1, 5, .ro, 0, []⟩,
  ⟨true, false, 0x40038, 6, 1, .ro, 0, []⟩,
  ⟨true, false, 0x40040, 0, 64, .ro, 0, []⟩,
  ⟨true, false, 0x40050, 0, 16, .grw, 0, []⟩,
  ⟨true, false, 0x40050, 16, 10, .grw, 0, []⟩,
  ⟨true, false, 0x40050, 26, 1, .grw, 0, []⟩,
  ⟨true, false, 0x40054, 0, 4, .ro, 0, []⟩,
  ⟨true, false, 0x40048, 0, 32, .ro, 0, []⟩,
  ⟨true, false, 0x4004c, 0, 32, .ro, 0, []⟩,
  ⟨true, false, 0x40100, 0, 16, .ro, 0, [(4, 16, 0)]⟩,
  ⟨true, false, 0x40100, 16, 16, .ro, 0, [(4, 16, 0)]⟩,
  ⟨true, false, 0x40200, 0, 4, .ro, 0, [(32, 16, 0)]⟩,
  ⟨true, false, 0x40200, 4, 4, .ro, 0, [(32, 16, 0)]⟩,
  ⟨true, false, 0x40200, 8, 4, .rw, 0, [(32, 16, 0)]⟩,
  ⟨true, false, 0x40200, 12, 4, .ro, 0, [(32, 16, 0)]⟩,
  ⟨true, false, 0x40200, 16, 4, .ro, 0, [(32, 16, 0)]⟩,
  ⟨true, false, 0x40200, 20, 4, .ro, 0, [(32, 16, 0)]⟩,
  ⟨true, false, 0x40200, 24, 1, .ro, 0, [(32, 16, 0)]⟩,
  ⟨true, false, 0x40204, 0, 24, .ro, 0, [(32, 16, 0)]⟩,
  ⟨true, false, 0x40208, 0, 24, .ro, 0, [(32, 16, 0)]⟩,
  ⟨true, false, 0x4020c, 0, 16, .ro, 0, [(32, 16, 0)]⟩,
  ⟨true, false, 0x4020c, 16, 16, .ro, 0, [(32, 16, 0)]⟩,
  ⟨true, false, 0x40210, 0, 64, .ro, 0, [(32, 16, 0)]⟩,
  ⟨true, false, 0x40400, 0, 16, .grw, 0, [(8, 18, 0)]⟩,
  ⟨true, false, 0x40400, 16, 16, .grw, 0, [(8, 18, 0)]⟩,
  ⟨true, false, 0x40404, 0, 16, .grw, 0, [(8, 18, 0)]⟩,
  ⟨false, true, 0x40080, 0, 32, .grw, 0, []⟩,
  ⟨false, true, 0x40084, 0, 16, .grw, 0, []⟩]

/-- Access table, offsets 0x40000 and up. -/
def Row.rows004_1 : List Row := [
  ⟨false, true, 0x40084, 16, 16, .grw, 0, []⟩,
  ⟨false, true, 0x40088, 0, 16, .grw, 0, []⟩,
  ⟨false, true, 0x40088, 16, 16, .grw, 0, []⟩,
  ⟨false, true, 0x4008c, 0, 1, .grw, 0, []⟩,
  ⟨false, true, 0x4008c, 1, 1, .ro, 0, []⟩,
  ⟨false, true, 0x40100, 0, 32, .ro, 0, [(4, 0, 64)]⟩]

/-- Access table, offsets 0x50000 and up. -/
def Row.rows005_0 : List Row := [
  ⟨true, true, 0x50000, 0, 2, .ro, 0, []⟩,
  ⟨true, true, 0x50000, 8, 8, .ro, 0, []⟩,
  ⟨true, true, 0x50000, 16, 16, .rc, 0, []⟩,
  ⟨true, true, 0x50004, 0, 32, .ro, 0, []⟩,
  ⟨true, true, 0x50008, 0, 4, .rw, 4, []⟩,
  ⟨true, true, 0x50008, 8, 8, .rw, 4, []⟩,
  ⟨true, true, 0x50008, 16, 1, .rw, 4, []⟩,
  ⟨true, true, 0x50008, 17, 1, .rw, 4, []⟩,
  ⟨true, true, 0x50008, 24, 8, .rw, 4, []⟩,
  ⟨true, true, 0x5000c, 0, 32, .rw, 4, []⟩,
  ⟨true, true, 0x50010, 0, 16, .rw, 4, []⟩,
  ⟨true, true, 0x50018, 0, 64, .rc, 0, []⟩,
  ⟨true, true, 0x50020, 0, 64, .ro, 0, []⟩,
  ⟨true, true, 0x50100, 0, 16, .rw, 4, [(8, 32, 32)]⟩,
  ⟨true, true, 0x50100, 16, 16, .rw, 4, [(8, 32, 32)]⟩,
  ⟨true, true, 0x50104, 0, 8, .rw, 4, [(8, 32, 32)]⟩,
  ⟨true, true, 0x50104, 8, 8, .rw, 4, [(8, 32, 32)]⟩,
  ⟨true, true, 0x50104, 16, 1, .rw, 4, [(8, 32, 32)]⟩,
  ⟨true, true, 0x50400, 0, 16, .grw, 0, [(4, 256, 256)]⟩,
  ⟨true, true, 0x50400, 16, 1, .grw, 0, [(4, 256, 256)]⟩,
  ⟨true, true, 0x50400, 17, 1, .grw, 0, [(4, 256, 256)]⟩,
  ⟨true, true, 0x50400, 18, 1, .grw, 0, [(4, 256, 256)]⟩,
  ⟨true, false, 0x50800, 0, 2, .ro, 0, [(32, 8, 0)]⟩,
  ⟨true, false, 0x50800, 2, 1, .w1c, 0, [(32, 8, 0)]⟩,
  ⟨true, false, 0x50800, 3, 3, .ro, 0, [(32, 8, 0)]⟩,
  ⟨true, false, 0x50804, 0, 32, .ro, 0, [(32, 8, 0)]⟩,
  ⟨true, false, 0x50808, 0, 32, .ro, 0, [(32, 8, 0)]⟩,
  ⟨true, false, 0x50810, 0, 64, .ro, 0, [(32, 8, 0)]⟩,
  ⟨true, true, 0x51000, 0, 2, .grw, 0, []⟩,
  ⟨true, true, 0x51000, 2, 1, .grw, 0, []⟩,
  ⟨true, true, 0x51004, 0, 5, .ro, 0, []⟩,
  ⟨true, true, 0x51004, 16, 8, .rc, 0, []⟩,
  ⟨true, true, 0x51004, 24, 8, .rc, 0, []⟩,
  ⟨true, true, 0x51008, 0, 64, .ro, 0, []⟩,
  ⟨true, true, 0x51010, 0, 64, .ro, 0, []⟩,
  ⟨false, true, 0x52000, 0, 16, .grw, 0, [(8, 0, 256)]⟩,
  ⟨false, true, 0x52000, 16, 16, .grw, 0, [(8, 0, 256)]⟩,
  ⟨false, true, 0x52004, 0, 1, .grw, 0, [(8, 0, 256)]⟩,
  ⟨false, true, 0x52004, 1, 1, .grw, 0, [(8, 0, 256)]⟩,
  ⟨false, true, 0x52004, 2, 1, .grw, 0, [(8, 0, 256)]⟩,
  ⟨false, true, 0x52004, 16, 16, .rc, 0, [(8, 0, 256)]⟩,
  ⟨false, true, 0x53000, 0, 8, .grw, 0, [(4, 0, 256)]⟩,
  ⟨false, true, 0x53000, 8, 1, .grw, 0, [(4, 0, 256)]⟩,
  ⟨false, true, 0x53000, 9, 1, .grw, 0, [(4, 0, 256)]⟩]

/-- Access table, offsets 0x60000 and up. -/
def Row.rows006_0 : List Row := [
  ⟨true, true, 0x60000, 0, 7, .grw, 0, []⟩,
  ⟨true, true, 0x60000, 8, 7, .ro, 0, []⟩,
  ⟨true, true, 0x60000, 16, 8, .grw, 0, []⟩,
  ⟨true, true, 0x60000, 24, 8, .ro, 0, []⟩,
  ⟨true, true, 0x60100, 0, 32, .rc, 0, [(32, 12, 12)]⟩,
  ⟨true, true, 0x60104, 0, 32, .rc, 0, [(32, 12, 12)]⟩,
  ⟨true, true, 0x60108, 0, 64, .ro, 0, [(32, 12, 12)]⟩,
  ⟨true, true, 0x60110, 0, 64, .ro, 0, [(32, 12, 12)]⟩,
  ⟨true, true, 0x60118, 0, 32, .ro, 0, [(32, 12, 12)]⟩]

/-- Access table, offsets 0x70000 and up. -/
def Row.rows007_0 : List Row := [
  ⟨true, true, 0x70000, 0, 64, .ro, 0, []⟩,
  ⟨true, true, 0x70008, 0, 64, .ro, 0, []⟩,
  ⟨true, true, 0x70010, 0, 13, .ro, 0, []⟩,
  ⟨true, true, 0x70010, 13, 1, .ro, 0, []⟩,
  ⟨true, true, 0x70010, 16, 8, .ro, 0, []⟩,
  ⟨true, true, 0x70010, 24, 5, .ro, 0, []⟩,
  ⟨true, true, 0x70014, 0, 32, .rc, 0, []⟩,
  ⟨true, true, 0x70018, 0, 32, .ro, 0, []⟩,
  ⟨true, true, 0x7001c, 0, 24, .ro, 0, []⟩,
  ⟨true, true, 0x70020, 0, 16, .grw, 0, []⟩,
  ⟨true, true, 0x70020, 16, 16, .grw, 0, []⟩]

/-- Access table, offsets 0x80000 and up. -/
def Row.rows008_0 : List Row := [
  ⟨true, false, 0x81000, 0, 8, .gro, 0, [(4, 256, 0)]⟩,
  ⟨true, false, 0x81000, 8, 8, .grw, 0, [(4, 256, 0)]⟩,
  ⟨true, false, 0x81000, 16, 1, .grw, 0, [(4, 256, 0)]⟩,
  ⟨true, true, 0x80000, 0, 1, .grw, 0, []⟩,
  ⟨true, true, 0x80000, 1, 1, .gro, 0, []⟩,
  ⟨true, true, 0x80000, 2, 1, .gro, 0, []⟩,
  ⟨true, true, 0x80000, 3, 1, .gro, 0, []⟩,
  ⟨true, true, 0x80000, 8, 8, .gro, 0, []⟩,
  ⟨true, true, 0x80004, 0, 16, .gro, 0, []⟩,
  ⟨true, true, 0x80004, 16, 16, .gro, 0, []⟩,
  ⟨true, true, 0x80008, 0, 32, .gro, 0, []⟩,
  ⟨true, false, 0x81400, 0, 32, .grw, 0, []⟩]

/-- Access table, offsets 0x90000 and up. -/
def Row.rows009_0 : List Row := [
  ⟨true, true, 0x90000, 0, 3, .ro, 0, [(64, 2, 64)]⟩,
  ⟨true, true, 0x90000, 3, 1, .ro, 0, [(64, 2, 64)]⟩,
  ⟨true, true, 0x90000, 4, 4, .ro, 0, [(64, 2, 64)]⟩,
  ⟨true, true, 0x90000, 8, 12, .ro, 0, [(64, 2, 64)]⟩,
  ⟨true, true, 0x90004, 0, 32, .ro, 0, [(64, 2, 64)]⟩,
  ⟨true, true, 0x90008, 0, 16, .rc, 0, [(64, 2, 64)]⟩,
  ⟨true, true, 0x90008, 16, 16, .rc, 0, [(64, 2, 64)]⟩,
  ⟨true, true, 0x9000c, 0, 8, .rc, 0, [(64, 2, 64)]⟩,
  ⟨true, true, 0x9000c, 8, 8, .rc, 0, [(64, 2, 64)]⟩,
  ⟨true, true, 0x9000c, 16, 8, .rc, 0, [(64, 2, 64)]⟩,
  ⟨true, true, 0x90010, 0, 64, .ro, 0, [(64, 2, 64)]⟩,
  ⟨true, true, 0x90018, 0, 64, .ro, 0, [(64, 2, 64)]⟩,
  ⟨true, true, 0x90020, 0, 64, .ro, 0, [(64, 2, 64)]⟩,
  ⟨true, true, 0x91000, 0, 16, .grw, 0, []⟩,
  ⟨true, true, 0x91000, 16, 16, .grw, 0, []⟩,
  ⟨true, true, 0x91004, 0, 16, .grw, 0, []⟩,
  ⟨true, true, 0x91004, 16, 16, .grw, 0, []⟩,
  ⟨false, true, 0x91008, 0, 8, .ro, 0, []⟩,
  ⟨false, true, 0x91008, 8, 8, .grw, 0, []⟩,
  ⟨true, false, 0x91020, 0, 64, .grw, 0, []⟩,
  ⟨true, false, 0x91028, 0, 6, .grw, 0, []⟩,
  ⟨true, false, 0x91028, 6, 1, .grw, 0, []⟩,
  ⟨true, false, 0x91030, 0, 32, .ro, 0, []⟩,
  ⟨true, false, 0x91034, 0, 32, .rw, 0, []⟩,
  ⟨true, true, 0x91100, 0, 8, .grw, 0, [(8, 6, 6)]⟩,
  ⟨true, true, 0x91100, 8, 8, .grw, 0, [(8, 6, 6)]⟩,
  ⟨true, true, 0x91100, 16, 16, .grw, 0, [(8, 6, 6)]⟩,
  ⟨true, true, 0x91200, 0, 8, .grw, 0, [(4, 256, 256)]⟩,
  ⟨true, true, 0x91200, 8, 8, .grw, 0, [(4, 256, 256)]⟩,
  ⟨true, true, 0x92000, 0, 24, .ro, 0, [(128, 256, 256), (16, 6, 6)]⟩,
  ⟨true, true, 0x92004, 0, 24, .rc, 0, [(128, 256, 256), (16, 6, 6)]⟩,
  ⟨true, true, 0x92008, 0, 32, .rc, 0, [(128, 256, 256), (16, 6, 6)]⟩,
  ⟨true, true, 0x9200c, 0, 32, .rc, 0, [(128, 256, 256), (16, 6, 6)]⟩,
  ⟨false, true, 0x9a000, 0, 32, .grw, 0, [(32, 0, 256)]⟩,
  ⟨false, true, 0x9a004, 0, 32, .grw, 0, [(32, 0, 256)]⟩,
  ⟨false, true, 0x9a008, 0, 32, .grw, 0, [(32, 0, 256)]⟩,
  ⟨false, true, 0x9a00c, 0, 32, .grw, 0, [(32, 0, 256)]⟩,
  ⟨false, true, 0x9a010, 0, 1, .grw, 0, [(32, 0, 256)]⟩,
  ⟨false, true, 0x9a018, 0, 32, .rc, 0, [(32, 0, 256)]⟩,
  ⟨false, true, 0x9a01c, 0, 32, .rc, 0, [(32, 0, 256)]⟩]

/-- Access table, offsets 0xa0000 and up. -/
def Row.rows00A_0 : List Row := [
  ⟨true, false, 0xa0000, 0, 8, .ro, 0, [(8, 272, 0)]⟩,
  ⟨true, false, 0xa0000, 8, 3, .ro, 0, [(8, 272, 0)]⟩,
  ⟨true, false, 0xa0000, 16, 6, .ro, 0, [(8, 272, 0)]⟩,
  ⟨true, false, 0xa0000, 24, 6, .ro, 0, [(8, 272, 0)]⟩,
  ⟨true, false, 0xa0004, 0, 8, .rw, 0, [(8, 272, 0)]⟩,
  ⟨true, false, 0xa1000, 0, 9, .rw, 0, [(4, 256, 0)]⟩,
  ⟨true, false, 0xa2000, 0, 1, .wo, 0, []⟩,
  ⟨true, false, 0xa2000, 1, 1, .rw, 0, []⟩,
  ⟨true, false, 0xa2004, 0, 32, .rw, 0, []⟩,
  ⟨true, false, 0xa2008, 0, 2, .ro, 0, []⟩,
  ⟨true, false, 0xa2008, 4, 4, .ro, 0, []⟩,
  ⟨true, false, 0xa2008, 8, 9, .ro, 0, []⟩,
  ⟨true, false, 0xa2010, 0, 6, .ro, 0, []⟩,
  ⟨true, false, 0xa3000, 0, 16, .rw, 0, [(4, 272, 0)]⟩]

/-- Access table, offsets 0xc0000 and up. -/
def Row.rows00C_0 : List Row := [
  ⟨false, true, 0xc0000, 0, 4, .grw, 0, []⟩,
  ⟨false, true, 0xc0000, 16, 10, .grw, 0, []⟩,
  ⟨false, true, 0xc0004, 0, 16, .grw, 0, []⟩,
  ⟨false, true, 0xc0004, 16, 16, .grw, 0, []⟩,
  ⟨false, true, 0xc0008, 0, 32, .grw, 0, []⟩,
  ⟨false, true, 0xc000c, 0, 32, .grw, 0, []⟩,
  ⟨false, true, 0xc0010, 0, 32, .grw, 0, []⟩,
  ⟨false, true, 0xc0014, 0, 8, .grw, 0, []⟩,
  ⟨false, true, 0xc0014, 8, 8, .grw, 0, []⟩,
  ⟨false, true, 0xc0014, 16, 8, .grw, 0, []⟩,
  ⟨false, true, 0xc0014, 24, 8, .grw, 0, []⟩,
  ⟨false, true, 0xc0018, 0, 32, .grw, 0, []⟩,
  ⟨false, true, 0xc001c, 0, 8, .grw, 0, []⟩,
  ⟨false, true, 0xc001c, 8, 8, .grw, 0, []⟩,
  ⟨false, true, 0xc001c, 16, 8, .ro, 0, []⟩,
  ⟨false, true, 0xc001c, 24, 8, .ro, 0, []⟩,
  ⟨false, true, 0xc0020, 0, 16, .grw, 0, []⟩,
  ⟨false, true, 0xc0020, 16, 1, .grw, 0, []⟩,
  ⟨false, true, 0xc0024, 0, 16, .grw, 0, []⟩,
  ⟨false, true, 0xc0024, 16, 1, .grw, 0, []⟩,
  ⟨false, true, 0xc0040, 0, 32, .ro, 0, []⟩,
  ⟨false, true, 0xc0044, 0, 2, .ro, 0, []⟩,
  ⟨false, true, 0xc0044, 2, 1, .ro, 0, []⟩,
  ⟨false, true, 0xc0044, 8, 8, .ro, 0, []⟩,
  ⟨false, true, 0xc0048, 0, 64, .ro, 0, []⟩,
  ⟨false, true, 0xc1000, 0, 3, .ro, 0, [(32, 0, 64)]⟩,
  ⟨false, true, 0xc1000, 8, 8, .ro, 0, [(32, 0, 64)]⟩,
  ⟨false, true, 0xc1000, 16, 1, .ro, 0, [(32, 0, 64)]⟩,
  ⟨false, true, 0xc1000, 17, 1, .ro, 0, [(32, 0, 64)]⟩,
  ⟨false, true, 0xc1000, 18, 1, .ro, 0, [(32, 0, 64)]⟩,
  ⟨false, true, 0xc1004, 0, 32, .ro, 0, [(32, 0, 64)]⟩,
  ⟨false, true, 0xc1008, 0, 64, .ro, 0, [(32, 0, 64)]⟩,
  ⟨false, true, 0xc1010, 0, 64, .ro, 0, [(32, 0, 64)]⟩,
  ⟨false, true, 0xc1018, 0, 32, .ro, 0, [(32, 0, 64)]⟩,
  ⟨false, true, 0xc101c, 0, 32, .ro, 0, [(32, 0, 64)]⟩]

/-- Access table, offsets 0x1000000 and up. -/
def Row.rows100_0 : List Row := [
  ⟨false, true, 0x1000000, 0, 8, .ro, 0, []⟩,
  ⟨false, true, 0x1000000, 8, 8, .ro, 0, []⟩,
  ⟨false, true, 0x1000000, 16, 1, .ro, 0, []⟩,
  ⟨false, true, 0x1000004, 0, 8, .rc, 0, []⟩,
  ⟨false, true, 0x1000004, 8, 8, .rc, 0, []⟩,
  ⟨false, true, 0x1000004, 16, 8, .rc, 0, []⟩,
  ⟨false, true, 0x1000004, 24, 8, .rc, 0, []⟩,
  ⟨false, true, 0x1000008, 0, 8, .grw, 0, []⟩,
  ⟨false, true, 0x1000008, 8, 8, .grw, 0, []⟩,
  ⟨false, true, 0x100000c, 0, 16, .grw, 0, []⟩,
  ⟨false, true, 0x100000c, 16, 16, .grw, 0, []⟩,
  ⟨false, true, 0x1000010, 0, 64, .ro, 0, []⟩,
  ⟨false, true, 0x1000100, 0, 2, .ro, 0, [(8, 0, 64)]⟩,
  ⟨false, true, 0x1000100, 16, 14, .ro, 0, [(8, 0, 64)]⟩,
  ⟨false, true, 0x1000104, 0, 16, .ro, 0, [(8, 0, 64)]⟩,
  ⟨false, true, 0x1000104, 16, 8, .rc, 0, [(8, 0, 64)]⟩,
  ⟨false, true, 0x1001000, 0, 2, .ro, 0, [(64, 0, 16)]⟩,
  ⟨false, true, 0x1001000, 2, 1, .ro, 0, [(64, 0, 16)]⟩,
  ⟨false, true, 0x1001000, 3, 1, .ro, 0, [(64, 0, 16)]⟩,
  ⟨false, true, 0x1001000, 4, 4, .ro, 0, [(64, 0, 16)]⟩,
  ⟨false, true, 0x1001000, 8, 8, .ro, 0, [(64, 0, 16)]⟩,
  ⟨false, true, 0x1001000, 16, 16, .ro, 0, [(64, 0, 16)]⟩,
  ⟨false, true, 0x1001004, 0, 32, .ro, 0, [(64, 0, 16)]⟩,
  ⟨false, true, 0x1001008, 0, 8, .ro, 0, [(64, 0, 16)]⟩,
  ⟨false, true, 0x1001008, 16, 9, .ro, 0, [(64, 0, 16)]⟩,
  ⟨false, true, 0x100100c, 0, 32, .ro, 0, [(64, 0, 16)]⟩,
  ⟨false, true, 0x1001010, 0, 64, .ro, 0, [(64, 0, 16)]⟩,
  ⟨false, true, 0x1001018, 0, 32, .rc, 0, [(64, 0, 16)]⟩,
  ⟨false, true, 0x100101c, 0, 32, .rc, 0, [(64, 0, 16)]⟩,
  ⟨false, true, 0x1002000, 0, 4, .ro, 0, [(32, 0, 8)]⟩,
  ⟨false, true, 0x1002000, 4, 1, .ro, 0, [(32, 0, 8)]⟩,
  ⟨false, true, 0x1002000, 8, 4, .ro, 0, [(32, 0, 8)]⟩,
  ⟨false, true, 0x1002004, 0, 16, .grw, 0, [(32, 0, 8)]⟩,
  ⟨false, true, 0x1002004, 16, 1, .grw, 0, [(32, 0, 8)]⟩,
  ⟨false, true, 0x1002008, 0, 8, .grw, 0, [(32, 0, 8)]⟩,
  ⟨false, true, 0x1002008, 8, 10, .grw, 0, [(32, 0, 8)]⟩,
  ⟨false, true, 0x1002010, 0, 64, .grw, 0, [(32, 0, 8)]⟩,
  ⟨false, true, 0x1002018, 0, 64, .ro, 0, [(32, 0, 8)]⟩,
  ⟨false, true, 0x1003000, 0, 8, .grw, 0, [(4, 0, 16)]⟩,
  ⟨false, true, 0x1003000, 8, 3, .grw, 0, [(4, 0, 16)]⟩,
  ⟨false, true, 0x1003000, 11, 1, .grw, 0, [(4, 0, 16)]⟩,
  ⟨false, true, 0x1003000, 12, 4, .grw, 0, [(4, 0, 16)]⟩,
  ⟨false, true, 0x1004000, 0, 8, .grw, 0, [(4, 0, 256)]⟩]

/-- Access table, offsets 0x1800000 and up. -/
def Row.rows180_0 : List Row := [
  ⟨false, true, 0x1800000, 0, 4, .ro, 0, []⟩,
  ⟨false, true, 0x1800000, 4, 4, .ro, 0, []⟩,
  ⟨false, true, 0x1800004, 0, 8, .rc, 0, []⟩,
  ⟨false, true, 0x1800004, 8, 8, .rc, 0, []⟩,
  ⟨false, true, 0x1800004, 16, 8, .rc, 0, []⟩,
  ⟨false, true, 0x1800100, 0, 2, .ro, 0, [(16, 0, 8)]⟩,
  ⟨false, true, 0x1800100, 4, 4, .ro, 0, [(16, 0, 8)]⟩,
  ⟨false, true, 0x1800100, 8, 3, .ro, 0, [(16, 0, 8)]⟩,
  ⟨false, true, 0x1800108, 0, 64, .ro, 0, [(16, 0, 8)]⟩]

/-- Access table, offsets 0x2000000 and up. -/
def Row.rows200_0 : List Row := [
  ⟨false, true, 0x2000000, 0, 2, .ro, 0, [(64, 0, 30)]⟩,
  ⟨false, true, 0x2000000, 8, 6, .ro, 0, [(64, 0, 30)]⟩,
  ⟨false, true, 0x2000000, 16, 2, .ro, 0, [(64, 0, 30)]⟩,
  ⟨false, true, 0x2000008, 0, 64, .ro, 0, [(64, 0, 30)]⟩]

/-- Access table, offsets 0x2010000 and up. -/
def Row.rows201_0 : List Row := [
  ⟨false, true, 0x2010000, 0, 6, .ro, 0, [(4, 0, 1248)]⟩,
  ⟨false, true, 0x2010000, 6, 2, .ro, 0, [(4, 0, 1248)]⟩,
  ⟨false, true, 0x2010000, 8, 5, .ro, 0, [(4, 0, 1248)]⟩]

/-- Access table, offsets 0x3f00000 and up. -/
def Row.rows3F0_0 : List Row := [
  ⟨false, true, 0x3f00000, 0, 64, .rw, 0, [(16, 0, 32)]⟩,
  ⟨false, true, 0x3f00008, 0, 32, .rw, 0, [(16, 0, 32)]⟩,
  ⟨false, true, 0x3f0000c, 0, 1, .rw, 0, [(16, 0, 32)]⟩,
  ⟨false, true, 0x3f01000, 0, 32, .ro, 0, []⟩]

/-- The rows of one 64 KiB block of offsets; the VTA's SHF_COLL reaches into block 3. -/
def Row.ofBlock (b : Nat) : List Row :=
  match b with
  | 0 => Row.rows000_0 ++ Row.rows000_1 ++ Row.capRows
  | 1 => Row.rows001_0
  | 2 => Row.rows002_0
  | 3 => Row.rows003_0 ++ Row.rows002_0
  | 4 => Row.rows004_0 ++ Row.rows004_1
  | 5 => Row.rows005_0
  | 6 => Row.rows006_0
  | 7 => Row.rows007_0
  | 8 => Row.rows008_0
  | 9 => Row.rows009_0
  | 0xa => Row.rows00A_0
  | 0xc => Row.rows00C_0
  | 0x100 => Row.rows100_0
  | 0x180 => Row.rows180_0
  | 0x200 => Row.rows200_0
  | 0x201 => Row.rows201_0
  | 0x3f0 => Row.rows3F0_0
  | _ => []
/-- The count of an index on a unit. -/
def Row.count (u : UnitId) (d : Nat × Nat × Nat) : Nat := match u with | .htu => d.2.1 | .vta => d.2.2

/-- Whether a unit has the field. -/
def Row.onUnit (r : Row) (u : UnitId) : Bool := match u with | .htu => r.htu | .vta => r.vta

/-- The indexes at which distance `x` from the base falls on the register, outermost first. -/
def Row.index (u : UnitId) : List (Nat × Nat × Nat) → Nat → Option (List Nat)
  | [], x => if x = 0 then some [] else none
  | d :: ds, x =>
    if x / d.1 < Row.count u d then (Row.index u ds (x % d.1)).map (x / d.1 :: ·) else none

/-- The indexes of the field in the 32-bit half at byte offset `off`, if the field lies there. -/
def Row.hit (r : Row) (u : UnitId) (off : Nat) : Option (List Nat) :=
  if r.onUnit u && r.base ≤ off then Row.index u r.dims (off - r.base) else none

/-- The fields of the 32-bit half at `off` (fields wider than 32 bits start at the low half). -/
def Row.fields (u : UnitId) (off : Nat) : List (Row × List Nat) :=
  (Row.ofBlock (off / 65536)).filterMap fun r => (r.hit u off).map (r, ·)

/-- The field that a row and its indexes name, at byte offset `off`. -/
def Row.fld (r : Row) (off : Nat) : Fld := .at off r.lsb r.width

/-- One non-zero entry of the Reset column: base, lowest bit, the index strides and counts, and the value by unit and
indexes. -/
structure Rst where
  base : Nat
  lsb  : Nat
  dims : List (Nat × Nat × Nat)
  val  : UnitId → List Nat → Nat

namespace Reg

/-- An index, 0 where there is none. -/
def idx (i : List Nat) : Nat := i.headD 0

/-- TAP_HEDGE_DMAX: the largest HEDGE_DIST of the die (R447; fuse). -/
def dmax : Nat := (List.range 272).foldl (fun m n => max m ((Config.hedgeFuse n).val + 1)) 0

/-- HEDGE_DIST of a station (R47, R56; fuse). -/
def hedge (n : Nat) : Nat := (Config.hedgeFuse n).val + 1

/-- PWR_VF: the running sum of the fuses' steps, so that entries rise strictly (R322). -/
def vfSum (f : Nat → Nat) : Nat → Nat
  | 0 => f 0 + 1
  | n + 1 => vfSum f n + f (n + 1) + 1

/-- The rank of physical sward core `p` among the cores of its group (R421). -/
def swcRank (p : Nat) : Nat := ((List.range p).filter fun q => Config.swcGroup q == Config.swcGroup p).length

/-- The default map of R56: physical cluster of logical cluster `n`. -/
def defaultMap (n : Nat) : Nat := 17 * (n / 16) + n % 16

/-- One entry of the capability list (R101): ID, BASE, PARAM0, PARAM1. -/
structure Cap where
  id   : Nat
  base : Nat
  p0   : Nat
  p1   : Nat

/-- The capabilities of the HTU in ascending order (R101, R191, R349). R101 gives no number of stream contexts: it is a
free value (log entry 18). -/
def capsHtu : List Cap := [
  ⟨0x01, 0x0, 3 + 256 * 256, 16 + 65536 * 32⟩, ⟨0x02, 0x2000, 800, 0⟩, ⟨0x03, 0x10000, 272, 16 + 256 * 40⟩, ⟨0x04, 0x20000, 0xFFFF, (Config.streamContexts .htu).toNat⟩,
  ⟨0x05, 0x30000, 7, 272⟩, ⟨0x08, 0x40000, 16, 0⟩, ⟨0x09, 0x50000, 16384, 260⟩, ⟨0x0A, 0x50000, 2, 0⟩, ⟨0x0B, 0x70000, 64, 60⟩,
  ⟨0x0C, 0x80000, 0, 0⟩, ⟨0x0D, 0x1000, 0, 16⟩, ⟨0x0E, 0xA3000, 272, 0⟩, ⟨0x0F, 0x90000, 2, 0⟩, ⟨0x10, 0x30000, 0, 0⟩]

/-- The capabilities of the VTA in ascending order (R101, R191, R349). -/
def capsVta : List Cap := [
  ⟨0x01, 0x0, 10 + 256 * 256, 64 + 65536 * 128⟩, ⟨0x02, 0x2000, 800, 0⟩, ⟨0x04, 0x20000, 0xFFFF, (Config.streamContexts .vta).toNat⟩, ⟨0x06, 0x1000000, 64, 8192⟩,
  ⟨0x07, 0x1800000, 8, 128⟩, ⟨0x08, 0x40000, 64, 0⟩, ⟨0x09, 0x50000, 262144, 34⟩, ⟨0x0A, 0x50000, 16, 0⟩, ⟨0x0B, 0x70000, 256, 240⟩,
  ⟨0x0C, 0x80000, 0, 0⟩, ⟨0x0F, 0x90000, 64, 1⟩]

/-- A word of entry `i` of a capability list. -/
def capWord (l : List Cap) (f : Cap → Nat) (i : Nat) : Nat := ((l[i]?).map f).getD 0

/-- The header of entry `i` (R100): ID, version 0x01, and where the next entry stands in 16-byte units, 0 at the last. -/
def capHead (l : List Cap) (i : Nat) : Nat := capWord l Cap.id i + 256 + 65536 * (if i + 1 < l.length then 0x11 + i else 0)

/-- The words of a capability list, which R100 lays out from offset 0x100. -/
def rstCaps (l : List Cap) : List Rst := [
  ⟨0x100, 0, [(16, 14, 11)], fun _ i => capHead l (idx i)⟩, ⟨0x104, 0, [(16, 14, 11)], fun _ i => capWord l Cap.base (idx i)⟩,
  ⟨0x108, 0, [(16, 14, 11)], fun _ i => capWord l Cap.p0 (idx i)⟩, ⟨0x10C, 0, [(16, 14, 11)], fun _ i => capWord l Cap.p1 (idx i)⟩]

/-- The non-zero entries of the Reset column, HTU. -/
def rstHtu : List Rst := [
  ⟨0x0, 0, [], fun _ _ => 0x4A224200⟩,
  ⟨0x10, 0, [], fun _ _ => 0x10⟩,
  ⟨0xA0000, 0, [(8, 272, 0)], fun _ i => if idx i % 17 = 16 then 0 else 16 * (idx i / 17) + idx i % 17⟩,
  ⟨0xA0000, 8, [(8, 272, 0)], fun _ i => if idx i % 17 = 16 then 1 else 0⟩,
  ⟨0xA0000, 16, [(8, 272, 0)], fun _ i => hedge (idx i)⟩,
  ⟨0xA0000, 24, [(8, 272, 0)], fun _ i => dmax - hedge (idx i)⟩,
  ⟨0xA0004, 0, [(8, 272, 0)], fun _ _ => 0xFF⟩,
  ⟨0xA1000, 0, [(4, 256, 0)], fun _ i => defaultMap (idx i)⟩,
  ⟨0xA2010, 0, [], fun _ _ => dmax⟩,
  ⟨0xA3000, 0, [(4, 272, 0)], fun _ i => (Config.fmaxFuse (idx i)).toNat⟩,
  ⟨0x16000, 0, [(16, 256, 0), (4, 4, 0)], fun _ _ => 0xFFFFFFFF⟩,
  ⟨0x30000, 4, [], fun _ _ => 4⟩, ⟨0x30000, 12, [], fun _ _ => 1⟩,
  ⟨0x30004, 0, [], fun _ _ => 0x10A⟩, ⟨0x30008, 0, [], fun _ _ => 0x35800000⟩,
  ⟨0x3000C, 0, [], fun _ _ => 0x00400403⟩,
  ⟨0x40010, 0, [], fun _ _ => 0x2710000A⟩, ⟨0x40014, 0, [], fun _ _ => 0x7D0⟩,
  ⟨0x40018, 0, [], fun _ _ => 0x01E08AC0⟩, ⟨0x4001C, 0, [], fun _ _ => 5⟩,
  ⟨0x40020, 0, [], fun _ _ => 0x02A4027C⟩, ⟨0x40024, 0, [], fun _ _ => 0x21908⟩,
  ⟨0x40028, 0, [], fun _ _ => 0x3E8⟩, ⟨0x40050, 0, [], fun _ _ => 0x0E10 + 0x14 * 65536 + 2 ^ 26⟩,
  ⟨0x40054, 0, [], fun _ _ => Config.trimRefIdx.toNat⟩,
  ⟨0x40100, 0, [(4, 16, 0)], fun _ i => vfSum Config.vfMhzStep (idx i) % 65536⟩,
  ⟨0x40100, 16, [(4, 16, 0)], fun _ i => vfSum Config.vfMvStep (idx i) % 65536⟩,
  ⟨0x40200, 8, [(32, 16, 0)], fun _ _ => 0xFFFF⟩,
  ⟨0x40204, 0, [(32, 16, 0)], fun _ i => (Config.ageBase (idx i)).toNat⟩,
  ⟨0x4020C, 0, [(32, 16, 0)], fun _ i => (Config.grpFmaxFuse (idx i)).toNat⟩,
  ⟨0x40400, 0, [(8, 18, 0)], fun _ i => (Config.vmonFuse (idx i)).1.toNat⟩,
  ⟨0x40400, 16, [(8, 18, 0)], fun _ i => (Config.vmonFuse (idx i)).2.1.toNat⟩,
  ⟨0x40404, 0, [(8, 18, 0)], fun _ i => (Config.vmonFuse (idx i)).2.2.toNat⟩]

/-- The non-zero entries of the Reset column, VTA. -/
def rstVta : List Rst := [
  ⟨0x0, 0, [], fun _ _ => 0x76414101⟩,
  ⟨0x10, 0, [], fun _ _ => 0x10⟩,
  ⟨0x2040, 12, [], fun _ _ => 0xDD⟩,
  ⟨0x20040, 0, [], fun _ _ => 800⟩, ⟨0x20044, 0, [], fun _ _ => 5200⟩,
  ⟨0x20048, 0, [], fun _ _ => 11200⟩, ⟨0x2004C, 0, [], fun _ _ => 19200⟩,
  ⟨0x20080, 0, [(4, 0, 4)], fun _ i => [50, 65, 80, 90].getD (idx i) 0⟩,
  ⟨0x20080, 8, [(4, 0, 4)], fun _ i => [30, 45, 60, 70].getD (idx i) 0⟩,
  ⟨0x20090, 0, [], fun _ _ => 1000⟩,
  ⟨0x1000008, 0, [], fun _ _ => 0x0A32⟩, ⟨0x100000C, 0, [], fun _ _ => 0x003203E8⟩,
  ⟨0x1000100, 0, [(8, 0, 64)], fun _ _ => 2⟩,
  ⟨0x1001000, 4, [(64, 0, 16)], fun _ _ => 0xF⟩,
  ⟨0x1002000, 0, [(32, 0, 8)], fun _ _ => 0xF0F⟩,
  ⟨0x1002008, 0, [(32, 0, 8)], fun _ _ => 0x10⟩,
  ⟨0x1002010, 0, [(32, 0, 8)], fun _ _ => 0x7FFFFFFFFFFFFFFF⟩,
  ⟨0x1003000, 12, [(4, 0, 16)], fun _ _ => 4⟩,
  ⟨0x1004000, 0, [(4, 0, 256)], fun _ _ => 1⟩,
  ⟨0xC0000, 0, [], fun _ _ => 0x00320002⟩, ⟨0xC0004, 0, [], fun _ _ => 0x006403E8⟩,
  ⟨0xC0008, 0, [], fun _ _ => 0x20000⟩, ⟨0xC000C, 0, [], fun _ _ => 0x40000⟩,
  ⟨0xC0010, 0, [], fun _ _ => 0x80000⟩, ⟨0xC0014, 0, [], fun _ _ => 0x10⟩,
  ⟨0xC0018, 0, [], fun _ _ => 0x10000⟩, ⟨0xC001C, 0, [], fun _ _ => 0x0402⟩,
  ⟨0x40084, 0, [], fun _ _ => 0x038401F4⟩, ⟨0x40088, 0, [], fun _ _ => 0x07D01388⟩,
  ⟨0x91008, 8, [], fun _ _ => 0x46⟩,
  ⟨0x60000, 0, [], fun _ _ => (Config.bchFuse .vta).1.toNat⟩,
  ⟨0x3F0000C, 0, [(16, 0, 32)], fun _ _ => 1⟩,
  ⟨0x2000000, 8, [(64, 0, 30)], fun _ _ => 0x28⟩,
  ⟨0x2000000, 16, [(64, 0, 30)], fun _ i => if idx i ≤ 17 then 2 else 1⟩,
  ⟨0x2010000, 0, [(4, 0, 1248)], fun _ i => if swcRank (idx i) < 40 then swcRank (idx i) else 0⟩,
  ⟨0x2010000, 6, [(4, 0, 1248)], fun _ i => if swcRank (idx i) < 40 then 0 else 1⟩,
  ⟨0x2010000, 8, [(4, 0, 1248)], fun _ i => (Config.swcGroup (idx i)).toNat⟩]

/-- A value that differs between the units. -/
def hv (a b : Nat) (u : UnitId) (_ : List Nat) : Nat := match u with | .htu => a | .vta => b

/-- The non-zero entries of the Reset column of the blocks that both units have. -/
def rstBoth : List Rst := [
  ⟨0x1018, 12, [(256, 3, 10)], hv 2048 8192⟩,
  ⟨0x80004, 0, [], fun u _ => (Config.svnFuse u).1.toNat⟩,
  ⟨0x80004, 16, [], fun u _ => (Config.svnFuse u).2.toNat⟩,
  ⟨0x2000, 8, [], fun _ _ => 0x0A0104⟩,
  ⟨0x2018, 0, [], fun _ _ => 0xCCCCCCCD⟩,
  ⟨0x20010, 16, [], hv 0x1000 0x8000⟩,
  ⟨0x20020, 16, [], fun _ _ => 1⟩,
  ⟨0x50010, 0, [], fun _ _ => 0x64⟩,
  ⟨0x51000, 0, [], fun _ _ => 3⟩,
  ⟨0x90000, 0, [(64, 2, 64)], fun _ _ => 1⟩,
  ⟨0x91000, 0, [], fun _ _ => 0x02580032⟩, ⟨0x91004, 0, [], fun _ _ => 0x00640001⟩,
  ⟨0x91100, 0, [(8, 6, 6)], fun _ i =>
    [8, 4, 2, 2, 1, 2].getD (idx i) 0 + 256 * [10, 5, 5, 5, 2, 3].getD (idx i) 0
      + 65536 * [64, 16, 64, 64, 16, 16].getD (idx i) 0⟩,
  ⟨0x91200, 0, [(4, 256, 256)], fun _ i => if idx i = 0 then 0x1404 else 1⟩,
  ⟨0x60000, 8, [], fun u _ => (Config.bchFuse u).2.2.toNat⟩,
  ⟨0x60000, 16, [], fun _ _ => 0x18⟩,
  ⟨0x60000, 24, [], fun u _ => (Config.bchFuse u).2.1.toNat⟩,
  ⟨0x70010, 16, [], fun _ _ => 0x40⟩,
  ⟨0x70020, 0, [], hv 0x04000FA0 0x100003E8⟩]

/-- The value of the 32-bit half at `off` that a list of entries gives. -/
def rstHalf (l : List Rst) (u : UnitId) (off : Nat) : Nat :=
  l.foldl (fun n r =>
    if r.base ≤ off then
      match Row.index u r.dims (off - r.base) with
      | some i => n + r.val u i * 2 ^ r.lsb
      | none => n
    else n) 0

/-- The value of the 64-bit word at `off`: the entries' halves, and 64-bit entries from the low half. -/
def rstNat (l : List Rst) (u : UnitId) (off : Nat) : Nat := rstHalf l u off + 2 ^ 32 * rstHalf l u (off + 4)

/-- The register word at `off` right after reset (R15). -/
def resetWord (u : UnitId) (off : Nat) : Word :=
  BitVec.ofNat 64 (rstNat rstBoth u off +
    rstNat (match u with | .htu => rstCaps capsHtu ++ rstHtu | .vta => rstCaps capsVta ++ rstVta) u off)

end Reg

end Sys2Proof.Machine
end

