-- ==== Sys2Proof/Machine/Bits.lean ====
section
/-! DEFINITION. Byte strings, serial arithmetic, and tables by number held sparse in one canonical form. -/

namespace Sys2Proof.Machine

/-- The `n` little-endian bytes of `v` (R7). -/
def le : Nat → Nat → List Byte
  | 0, _ => []
  | n + 1, v => BitVec.ofNat 8 v :: le n (v / 256)

/-- The number that little-endian bytes spell (R7). -/
def ofLe : List Byte → Nat
  | [] => 0
  | b :: bs => b.toNat + 256 * ofLe bs

/-- Bytes `a` to `a + n - 1` of a byte string. -/
def cut (bs : List Byte) (a n : Nat) : List Byte := (bs.drop a).take n

/-- The field of `n` bytes at byte `a`. -/
def fieldAt (bs : List Byte) (a n : Nat) : Nat := ofLe (cut bs a n)

/-- `n` zero bytes. -/
def zeros (n : Nat) : List Byte := List.replicate n 0

/-- A byte string padded with zeros to a multiple of 8. -/
def pad8 (bs : List Byte) : List Byte := bs ++ zeros ((8 - bs.length % 8) % 8)

/-- A byte string cut or padded with zeros to `n` bytes. -/
def fit (n : Nat) (bs : List Byte) : List Byte := (bs ++ zeros n).take n

/-- A number as a two's-complement value of `n` bits. -/
def toSigned (n v : Nat) : Int := if v % 2 ^ n < 2 ^ (n - 1) then (v % 2 ^ n : Nat) else (v % 2 ^ n : Nat) - (2 ^ n : Nat)

/-- The `n`-bit two's-complement pattern of an integer. -/
def ofSigned (n : Nat) (v : Int) : Nat := (v % (2 ^ n : Nat)).toNat

/-- `a` is serial-greater than `b` with `n` serial bits (RFC 1982, R386). -/
def serialGt (n a b : Nat) : Bool :=
  let d := (a % 2 ^ n + 2 ^ n - b % 2 ^ n) % 2 ^ n
  decide (0 < d ∧ d < 2 ^ (n - 1))

/-- `a` is serial-greater than `b` or equal to it. -/
def serialGe (n a b : Nat) : Bool := serialGt n a b || a % 2 ^ n == b % 2 ^ n

/-- The distance from `b` up to `a` with `n` serial bits. -/
def serialDiff (n a b : Nat) : Nat := (a % 2 ^ n + 2 ^ n - b % 2 ^ n) % 2 ^ n

/-- Saturating addition within `n` bits. -/
def satAdd (n a b : Nat) : Nat := min (a + b) (2 ^ n - 1)

/-- The value listed under a number. -/
def Sparse.find {α : Type} : List (Nat × α) → Nat → Option α
  | [], _ => none
  | (j, w) :: t, k => if j = k then some w else Sparse.find t k

/-- The list with number `k` listed with value `v`, numbers rising. -/
def Sparse.put {α : Type} : List (Nat × α) → Nat → α → List (Nat × α)
  | [], k, v => [(k, v)]
  | (j, w) :: t, k, v =>
    if k < j then (k, v) :: (j, w) :: t else if j = k then (k, v) :: t else (j, w) :: Sparse.put t k v

/-- The list without number `k`. -/
def Sparse.del {α : Type} (l : List (Nat × α)) (k : Nat) : List (Nat × α) := l.filter fun e => e.1 != k

/-- The value under a number, or the default. -/
def Sparse.get {α : Type} (d : α) (l : List (Nat × α)) (k : Nat) : α := (Sparse.find l k).getD d

/-- The list with number `k` at value `v`, where `d` is the default of `k`: a default value is not listed. -/
def Sparse.set {α : Type} [DecidableEq α] (d : α) (l : List (Nat × α)) (k : Nat) (v : α) : List (Nat × α) :=
  if v = d then Sparse.del l k else Sparse.put l k v

/-- The list with the value under `k` changed by `f` from default `d`. -/
def Sparse.mod {α : Type} (d : α) (l : List (Nat × α)) (k : Nat) (f : α → α) : List (Nat × α) :=
  Sparse.put l k (f (Sparse.get d l k))

/-- The canonical form of a sparse list whose default is `d`: numbers strictly rising, no value equal to its default. -/
abbrev Sparse.wf {α : Type} [DecidableEq α] (d : Nat → α) (l : List (Nat × α)) : Prop :=
  l.Pairwise (fun a b => a.1 < b.1) ∧ ∀ e ∈ l, e.2 ≠ d e.1

/-- The canonical form of a memory: addresses strictly rising, no byte equal to what an unlisted address reads as. -/
abbrev Memory.wf (m : List Host.Cell) : Prop := Sparse.wf (fun _ => (0 : Byte)) m

/-- What a memory reads at an address: an unlisted address reads as zero. -/
def Memory.read (m : List Host.Cell) (a : Nat) : Byte := Sparse.get 0 m a

/-- `n` bytes of a memory from address `a`. -/
def Memory.readN (m : List Host.Cell) (a n : Nat) : List Byte := (List.range n).map fun i => Memory.read m (a + i)

/-- One byte written. -/
def Memory.write (m : List Host.Cell) (a : Nat) (b : Byte) : List Host.Cell := Sparse.set 0 m a b

/-- A byte string written from address `a` up. -/
def Memory.writeN (m : List Host.Cell) (a : Nat) : List Byte → List Host.Cell
  | [] => m
  | b :: bs => Memory.writeN (Memory.write m a b) (a + 1) bs

end Sys2Proof.Machine
end

