-- ==== Sys2Proof/Machine/Ops.lean ====
section
/-! DEFINITION. What a command can do, said once: `Prog` lists the primitive changes of the block, and every meaning is a
`Prog`. Registers are read and written here and nowhere else, so that their canonical form holds by construction. -/

namespace Sys2Proof.Machine

/-- The registers of a unit. -/
def State.regs (s : State) (u : UnitId) : List (Nat × Word) := match u with | .htu => s.hregs | .vta => s.vregs

/-- The register word at a multiple of 8. -/
def State.word (s : State) (u : UnitId) (off : Nat) : Word := Sparse.get (Reg.resetWord u off) (s.regs u) off

/-- A field of a word. -/
def Fld.getW (f : Fld) (w : Word) : Nat := (w >>> f.lsb).toNat % 2 ^ f.width

/-- A word with one field replaced. -/
def Fld.setW (f : Fld) (w : Word) (v : Nat) : Word :=
  (w &&& ~~~ (BitVec.ofNat 64 (2 ^ f.width - 1) <<< f.lsb)) ||| (BitVec.ofNat 64 (v % 2 ^ f.width) <<< f.lsb)

/-- A register field's value. -/
def State.rd (s : State) (u : UnitId) (f : Fld) : Nat := f.getW (s.word u f.off)

/-- Whether a one-bit field is set. -/
def State.on (s : State) (u : UnitId) (f : Fld) : Bool := s.rd u f != 0

/-- The state with a register field changed. -/
def State.wr (s : State) (u : UnitId) (f : Fld) (v : Nat) : State :=
  match u with
  | .htu => { s with hregs := Sparse.set (Reg.resetWord u f.off) s.hregs f.off (f.setW (s.word u f.off) v) }
  | .vta => { s with vregs := Sparse.set (Reg.resetWord u f.off) s.vregs f.off (f.setW (s.word u f.off) v) }

/-- The part that both units have. -/
def State.dev (s : State) (u : UnitId) : Dev := match u with | .htu => s.h | .vta => s.v

/-- The state with one unit's common part changed. -/
def State.modDev (s : State) (u : UnitId) (f : Dev → Dev) : State :=
  match u with
  | .htu => { s with h := f s.h }
  | .vta => { s with v := f s.v }

/-- A program of primitive changes. -/
inductive Prog where
  /-- Nothing changes. -/
  | skip
  /-- A register field takes a value. -/
  | wr (u : UnitId) (f : Fld) (v : Nat)
  /-- Every register of a unit but the words listed takes its reset value (R15). -/
  | clearRegs (u : UnitId) (keep : List Nat)
  /-- The common part of a unit changes. -/
  | dev (u : UnitId) (f : Dev → Dev)
  /-- The HTU's own part changes. -/
  | htu (f : HtuX → HtuX)
  /-- The VTA's own part changes. -/
  | vta (f : VtaX → VtaX)
  /-- Bytes are written to DDR5. -/
  | ddr (a : Nat) (bs : List Byte)
  /-- Bytes are written to the entity table. -/
  | entity (a : Nat) (bs : List Byte)
  /-- The entity table loses its contents, and the DDR5 too where `all` says so. -/
  | clearMem (all : Bool)
  /-- A free value is drawn. -/
  | draw
  /-- What follows depends on the state. -/
  | get (k : State → Prog)
  /-- One program after another. -/
  | both (p q : Prog)

/-- What a program does to the state. -/
def Prog.run : Prog → State → State
  | .skip, s => s
  | .wr u f v, s => s.wr u f v
  | .clearRegs .htu keep, s => { s with hregs := s.hregs.filter fun e => keep.contains e.1 }
  | .clearRegs .vta keep, s => { s with vregs := s.vregs.filter fun e => keep.contains e.1 }
  | .dev u f, s => s.modDev u f
  | .htu f, s => { s with hx := f s.hx }
  | .vta f, s => { s with vx := f s.vx }
  | .ddr a bs, s => { s with ddr := Memory.writeN s.ddr a bs }
  | .entity a bs, s => { s with entity := Memory.writeN s.entity a bs }
  | .clearMem all, s => { s with ddr := if all then [] else s.ddr, entity := [] }
  | .draw, s => { s with free := s.free + 1 }
  | .get k, s => (k s).run s
  | .both p q, s => q.run (p.run s)

/-- Programs one after another. -/
def Prog.seq : List Prog → Prog
  | [] => .skip
  | [p] => p
  | p :: ps => .both p (Prog.seq ps)

/-- A program that runs under a condition. -/
def Prog.cond (b : Bool) (p : Prog) : Prog := if b then p else .skip

/-- One program for each element of a list, in order. -/
def Prog.each {α : Type} (l : List α) (f : α → Prog) : Prog := l.foldr (fun a p => .both (f a) p) .skip

/-- A program for the content of an option. -/
def Prog.opt {α : Type} (o : Option α) (f : α → Prog) : Prog := match o with | none => .skip | some a => f a

/-- A program that draws the next free value. -/
def Prog.free (k : Nat → Prog) : Prog := .get fun s => .both .draw (k (Config.freeNat s.free))

/-- A field saturates upward by `n`. -/
def Prog.bumpBy (u : UnitId) (f : Fld) (n : Nat) : Prog := .get fun s => .wr u f (satAdd f.width (s.rd u f) n)

/-- A saturating counter counts one event. -/
def Prog.bump (u : UnitId) (f : Fld) : Prog := .bumpBy u f 1

/-- A wrapping counter advances by `n`. -/
def Prog.count (u : UnitId) (f : Fld) (n : Nat := 1) : Prog := .get fun s => .wr u f (s.rd u f + n)

/-- A register field read, for what follows. -/
def Prog.rd (u : UnitId) (f : Fld) (k : Nat → Prog) : Prog := .get fun s => k (s.rd u f)

/-- Something is sent to an agent outside the model. -/
def Prog.send (u : UnitId) (o : Out) : Prog := .dev u fun d => { d with out := d.out ++ [o] }

/-- The mailboxes whose interrupt is a level line (R68): MBX0_IRQ and the analytics core's on the HTU, the sward cores' on the VTA. -/
def irqMbx : UnitId → Nat → Bool
  | .htu, m => m < 2
  | .vta, m => m == 8

/-- The level of a mailbox's interrupt: high while an enabled status bit is 1 (R74). MBX0_IRQ is low in the safe state (R43). -/
def State.irqLine (s : State) (u : UnitId) (m : Nat) : Bool := irqMbx u m && (u == .vta || m != 0 || s.on .htu Reg.HTU_STATUS_BOUNDARY_LIVE) &&
  ((u == .htu && m == 0 && s.on .htu Reg.HTU_JOB_ABORT && s.on .htu Reg.HTU_JOB_ABORT_IE)
    || (s.on u (Reg.MBX_IRQ_STATUS_NOTIFY_REPLY m) && (s.rd u (Reg.MBX_IRQ_EN_EN m)).testBit 0)
    || (s.on u (Reg.MBX_IRQ_STATUS_ERROR m) && (s.rd u (Reg.MBX_IRQ_EN_EN m)).testBit 1))

/-- A mailbox's interrupt line is driven where its level has changed since the state `was` (R40, R68, R74). -/
def Prog.irqEdge (u : UnitId) (m : Nat) (was : State) : Prog := .get fun s =>
  .cond (s.irqLine u m != was.irqLine u m) (.send u (.irq m (s.irqLine u m)))

/-- A meaning: the outcome of a program. -/
def Prog.next (p : Prog) (s : State) : Host.Outcome State Fault Refusal := .next (p.run s)

/-- A meaning with an operand that must name an instance of the unit. -/
def Prog.nextIf (ok : Bool) (p : Prog) (s : State) : Host.Outcome State Fault Refusal :=
  if ok then .next (p.run s) else .fault .noSuchInstance

/-- A program of a unit that its reset does not hold (R16, R39, R426). -/
def Prog.up (u : UnitId) (p : Prog) : Prog := .get fun s => .cond (!(s.dev u).inReset) p

/-- Number of mailboxes of a unit (R68). -/
def mbxCount : UnitId → Nat
  | .htu => 3
  | .vta => 10

/-- Number of Furrow ports of a unit (R400). -/
def portCount : UnitId → Nat
  | .htu => 2
  | .vta => 64

/-- Fleet time of a unit in whole ns: the upper 64 bits of the counter (R131). -/
def State.ns (s : State) (u : UnitId) : Nat := ((s.dev u).cnt >>> 32).toNat % 2 ^ 64

/-- Fleet time in units of 2^-16 ns. -/
def State.ns16 (s : State) (u : UnitId) : Nat := ((s.dev u).cnt >>> 16).toNat

/-- TIMEV of a unit (R132). -/
def State.timev (s : State) (u : UnitId) : Bool := s.on u Reg.TIM_STATUS_TIMEV

/-- The epoch of an instant (R35). -/
def epochOf (t : Nat) : Nat := t / 1000 % 2 ^ 32

/-- The epoch now (R35). -/
def State.epoch (s : State) (u : UnitId) : Nat := epochOf (s.ns u)

/-- POLICY of a unit (R23, R427). -/
def State.policy (s : State) (u : UnitId) : Bool :=
  match u with
  | .htu => s.on .htu Reg.HTU_STATUS_POLICY
  | .vta => s.on .vta Reg.VTA_STATUS_POLICY

/-- What the sections of the policy in force say: nothing while POLICY is 0, as before the first policy and from a lockstep restart until
the policy is reapplied (R106, R120). -/
def State.polBody (s : State) (u : UnitId) : Option PolicyBody := if s.policy u then (s.dev u).pol.body else none

/-- The die ID in force: the HTU's from policy, 0xFFFF_FFFF before it (R23); the VTA's row, rack and tray (R34). A policy in force that holds
no DIE_ID section leaves the HTU's die ID unassigned (DESIGN CHOICE, log entry 33: R23 names policy as its only source). -/
def State.dieId (s : State) (u : UnitId) : Nat :=
  match u with
  | .htu => ((s.polBody .htu).bind (·.dieId)).getD 0xFFFFFFFF
  | .vta => Config.vtaAddr.toNat * 64

/-- The unit's die ID is assigned: only then does it produce stream records (R23). -/
def State.assigned (s : State) (u : UnitId) : Bool := s.dieId u != 0xFFFFFFFF

/-- RECORDER_OPEN of a unit (R62, R427). -/
def State.recorderOpen (s : State) (u : UnitId) : Bool :=
  match u with
  | .htu => s.on .htu Reg.HTU_STATUS_RECORDER_OPEN
  | .vta => s.on .vta Reg.VTA_STATUS_RECORDER_OPEN

/-- The Gorse pair runs (R62, R106, R427). -/
def State.gorseUp (s : State) (u : UnitId) : Bool :=
  match u with
  | .htu => s.on .htu Reg.HTU_STATUS_GORSE_UP
  | .vta => s.on .vta Reg.VTA_STATUS_GORSE_UP

/-- The HTU outputs are under its control (R43). -/
def State.live (s : State) : Bool := s.on .htu Reg.HTU_STATUS_BOUNDARY_LIVE

/-- The state of a function (R90: STOPPED unless listed). -/
def State.fn (s : State) (u : UnitId) (fid : Nat) : Fn := Sparse.get {} (s.dev u).fns fid

/-- Function IDs (R89). -/
def fidCollector (c : Nat) : Nat := 0x1000 + c
def fidSentinel : Nat := 0x2000
def fidSlot (n : Nat) : Nat := 0x3000 + n
def fidTrace : Nat := 0x4000
def fidPower : Nat := 0x5000
def fidPort (k : Nat) : Nat := 0x6000 + k

/-- A function takes a state. -/
def Prog.setFn (u : UnitId) (fid : Nat) (f : Fn → Fn) : Prog :=
  .dev u fun d => { d with fns := Sparse.mod {} d.fns fid f }

/-- A mailbox. -/
def State.mb (s : State) (u : UnitId) (m : Nat) : Mbx := Sparse.get {} (s.dev u).mbx m

/-- A mailbox changes. -/
def Prog.modMb (u : UnitId) (m : Nat) (f : Mbx → Mbx) : Prog :=
  .dev u fun d => { d with mbx := Sparse.mod {} d.mbx m f }

/-- Time-domain ticks in a second, a millisecond and a microsecond (R131: 1.25 GHz). -/
def ticksPerS : Nat := 1250000000
def ticksPerMs : Nat := 1250000
def ticksPerUs : Nat := 1250

end Sys2Proof.Machine
end

