-- ==== Sys2Proof/Machine/Records.lean ====
section
/-! DEFINITION. Event records with folding, staging and programming (R414 to R418), stream records with loss ranges and
signed chains (R124 to R126, R385 to R387, R395), the bulk queues, the retention and host rings, and the archive (R369). -/

namespace Sys2Proof.Machine

-- event records

/-- Length of an event record in bytes (R414). -/
def EvRec.size (e : EvRec) : Nat := 16 + (if e.ext.isSome then 16 else 0) + e.payload.length

/-- The types for which the staging buffer keeps 4 KiB (R416): x01 to x03 of block 0x6, and the boot, brownout and key
records. -/
def EvRec.keyType (e : EvRec) : Bool := [0x0601, 0x0602, 0x0603, 0x0402, 0x0801, 0x0802, 0x0804].contains e.typ

/-- An event record as bytes (R414). -/
def EvRec.bytes (e : EvRec) : List Byte :=
  le 2 e.typ ++ le 2 e.size ++ le 4 (min e.hours 0xFFFFFFFF) ++ le 3 (min e.cycles 0xFFFFFF)
    ++ le 2 (min e.repeat' 65535)
    ++ le 1 ((if e.ext.isSome then 1 else 0) + (if e.folded then 2 else 0) + (if e.trunc then 4 else 0)
        + (if e.deferred then 8 else 0) + (if e.retained then 16 else 0))
    ++ zeros 2 ++ (match e.ext with | some (a, b) => le 8 a ++ le 8 b | none => []) ++ e.payload

/-- The first-area copy: at most 256 bytes, marked TRUNC when cut (R416). -/
def EvRec.cut256 (e : EvRec) : EvRec :=
  if e.size ≤ 256 then e
  else { e with trunc := true, payload := e.payload.take (256 - 16 - (if e.ext.isSome then 16 else 0)) }

/-- Bytes of records in the staging buffer. -/
def Evr.stagedBytes (v : Evr) : Nat := (v.staged.map EvRec.size).sum

/-- A record committed to the staging buffer, or dropped and counted (R416). -/
def Evr.commit (v : Evr) (e : EvRec) : Evr :=
  let lost : EvRec := { e with typ := 0x0702, repeat' := 0, folded := false, payload := le 8 v.dropped }
  let new := if v.dropped = 0 then [e] else [lost, e]
  if v.stagedBytes + (new.map EvRec.size).sum ≤ (if e.keyType then 65536 else 61440) then
    { v with staged := v.staged ++ new, dropped := 0
             firstArea := (v.firstArea ++ new.map EvRec.cut256).take 4096 }
  else { v with dropped := v.dropped + 1 }

/-- Sectors of the last area (R412): 60 MiB on the HTU, 240 MiB on the VTA. -/
def lastSectors : UnitId → Nat
  | .htu => 15360
  | .vta => 61440

/-- The records at the head of the staging buffer that fill one page of 3,952 bytes (R402). -/
def pageFill : List EvRec → Nat → List EvRec
  | [], _ => []
  | e :: es, room => if e.size ≤ room then e :: pageFill es (room - e.size) else []

/-- Sequence number of the page that is programmed next. -/
def Evr.nextSeq (v : Evr) : Nat := match v.pages.getLast? with | some p => (p.seq + 1) % 2 ^ 32 | none => 0

/-- The open page is programmed and the last area advances; the sector after the head is erased ahead of it (R416, R417). -/
def Evr.programOpen (u : UnitId) (v : Evr) : Evr :=
  let recs := pageFill v.staged 3952
  if recs = [] then v else
  let pages := v.pages ++ [{ seq := v.nextSeq, recs := recs }]
  { v with pages := pages.drop (pages.length - (lastSectors u - 1)), staged := v.staged.drop recs.length }

/-- Flash sector of a last-area page (R412). -/
def pageSector (u : UnitId) (seq : Nat) : Nat := (match u with | .htu => 0x400 | .vta => 0x1000) + seq % lastSectors u

/-- The open page is programmed into its sector, which replaces an uncorrectable page (R405, R416). -/
def Dev.programOpen (u : UnitId) (d : Dev) : Dev :=
  { d with evr := d.evr.programOpen u
           bad := if d.evr.staged = [] then d.bad else d.bad.filter (· != (5, 4096 * pageSector u d.evr.nextSeq)) }

/-- Whether a whole page stands in the staging buffer. -/
def Evr.pageFull (v : Evr) : Bool := decide ((pageFill v.staged 3952).length < v.staged.length)

/-- The cursor of staged record number `i`: page sequence and byte offset in the page (R419). -/
def stagedCursor : List EvRec → Nat → Nat → Nat → Nat × Nat
  | [], _, seq, off => (seq, off)
  | e :: es, i, seq, off =>
    let p := if off + e.size ≤ 3968 then (seq, off) else (seq + 1, 16)
    match i with
    | 0 => p
    | i + 1 => stagedCursor es i p.1 (p.2 + e.size)

/-- A cursor as 8 bytes: sector sequence number, byte offset, reserved (R419). -/
def cursorBytes (c : Nat × Nat) : List Byte := le 4 c.1 ++ le 2 c.2 ++ zeros 2

/-- Operating time in seconds (R414): HOURS at the unit's start and the time since, in time-domain ticks. -/
def State.hours (s : State) (u : UnitId) : Nat := (s.dev u).evr.baseHours + (s.dev u).ticks / ticksPerS

/-- A new event record of this instant (R414). -/
def State.newEvent (s : State) (u : UnitId) (typ : Nat) (payload : List Byte) : EvRec :=
  { typ, hours := s.hours u, cycles := (s.dev u).evr.jCycles, repeat' := 0, folded := false
    deferred := s.on u Reg.PWR_STATUS_HOLD, retained := false
    ext := if s.timev u then some (s.ns u, 0) else none, payload }

/-- The recorder changes. -/
def Prog.evr (u : UnitId) (f : Evr → Evr) : Prog := .dev u fun d => { d with evr := f d.evr }

/-- Pages of program credit now: those at the last refill, and RATE pages per hour since, up to 64 (R416). -/
def State.bucketPages (s : State) (u : UnitId) : Nat :=
  min 64 (s.rd u Reg.EVR_STATUS_BUCKET + s.rd u Reg.EVR_CFG_RATE * ((s.dev u).ticks - (s.dev u).evr.bucketT) / (3600 * ticksPerS))

/-- Program credit is refilled at RATE pages per hour up to 64; the time of a page begun is kept (R416). -/
def Prog.refill (u : UnitId) : Prog := .get fun s =>
  let d := s.dev u
  let part := s.rd u Reg.EVR_CFG_RATE * (d.ticks - d.evr.bucketT)
  .cond (part / (3600 * ticksPerS) != 0) <| .seq [
    .wr u Reg.EVR_STATUS_BUCKET (s.bucketPages u),
    .evr u fun v => { v with bucketT := d.ticks - part % (3600 * ticksPerS) / s.rd u Reg.EVR_CFG_RATE }]

/-- The open page is programmed if the recorder is open, no brownout hold stands and the bucket holds a page (R416). -/
def Prog.programPage (u : UnitId) : Prog := .both (.refill u) <| .get fun s => .both
  (.cond (u == .htu && s.on u Reg.PWR_STATUS_HOLD && (s.dev u).evr.staged != []) (.htu fun x => { x with deferred := x.deferred + 1 })) <|
  .cond (s.recorderOpen u && !s.on u Reg.PWR_STATUS_HOLD && s.on u Reg.EVR_STATUS_BUCKET
      && (s.dev u).evr.staged != []) <| .seq [
    .wr u Reg.EVR_STATUS_BUCKET (s.rd u Reg.EVR_STATUS_BUCKET - 1),
    .dev u (Dev.programOpen u)]

/-- A record is committed; a full page is programmed. -/
def Prog.commitEv (u : UnitId) (e : EvRec) : Prog := .get fun s => .seq [
  .cond (((s.dev u).evr.commit e).dropped = (s.dev u).evr.dropped + 1) (.bump u Reg.EVR_STATUS_DROPPED),
  .evr u (·.commit e),
  .get fun s => .cond (s.dev u).evr.pageFull (.programPage u)]

/-- The FOLDED copy of a slot (R415). -/
def Fold.copy (f : Fold) : EvRec :=
  { f.first with repeat' := f.count, folded := true, payload := f.latest
                 ext := f.first.ext.map fun t => (t.1, f.latestT) }

/-- Two events are the same when TYPE and payload bytes 0 to 7 are equal (R415). -/
def EvRec.same (e : EvRec) (typ : Nat) (payload : List Byte) : Bool := e.typ == typ && e.payload.take 8 == payload.take 8

/-- A fold slot of the same event that 1 s has passed without a repeat commits its copy and closes (R415). -/
def Prog.foldEnd (u : UnitId) (typ : Nat) (payload : List Byte) : Prog := .get fun s =>
  .opt ((s.dev u).evr.slots.find? fun f => f.first.same typ payload && f.tick + ticksPerS < (s.dev u).ticks) fun f => .both
    (.commitEv u f.copy) (.evr u fun v => { v with slots := v.slots.filter fun g => !g.first.same typ payload })

/-- An event is recorded under the folding rules of R415. -/
def Prog.event (u : UnitId) (typ : Nat) (payload : List Byte) : Prog := .both (.foldEnd u typ payload) <| .get fun s =>
  let v := (s.dev u).evr
  let t := (s.dev u).ticks
  let e := s.newEvent u typ payload
  let latestT := if s.timev u then s.ns u else 0
  if v.slots.any (fun f => f.first.same typ payload) then
    let upd (f : Fold) : Fold :=
      if f.first.same typ payload then
        { f with latest := payload, latestT := latestT, tick := t, count := f.count + 1 } else f
    .evr u fun v => { v with slots := v.slots.map upd }
  else match v.recent.find? (fun r => r.1.same typ payload && t ≤ r.2 + ticksPerS) with
  | some (first, _) => .seq [
      .cond (v.slots.length ≥ 16) (.opt v.slots.head? fun f =>
        .both (.commitEv u f.copy) (.evr u fun v => { v with slots := v.slots.drop 1 })),
      .evr u fun v => { v with
        slots := v.slots ++ [{ first, latest := payload, latestT := latestT, tick := t, count := 1 }]
        recent := v.recent.filter fun r => !r.1.same typ payload }]
  | none => .both (.commitEv u e) <| .evr u fun v => { v with
      recent := (v.recent.filter fun r => !r.1.same typ payload && t ≤ r.2 + ticksPerS) ++ [(e, t)] }

/-- An event written at start-up from a retained flag (FLAGS bit 4). -/
def Prog.eventRetained (u : UnitId) (typ : Nat) (payload : List Byte) : Prog := .get fun s =>
  .commitEv u { s.newEvent u typ payload with retained := true }

-- stream records

end Sys2Proof.Machine

namespace Sys2Proof

open Machine

/-- A record header's flag byte (R385). -/
def Rec.flagByte (r : Rec) : Nat :=
  r.ord.toNat + 2 * r.sig.toNat + 4 * r.loss.toNat + 8 * r.taint.toNat + 16 * r.timev.toNat
    + 32 * r.partial'.toNat + 64 * r.degraded.toNat + 128 * r.rstCo.toNat

/-- A record as bytes: header and payload padded to whole words (R385). -/
def Rec.bytes (r : Rec) : List Byte :=
  let p := pad8 r.payload
  le 1 r.typ ++ le 1 r.flagByte ++ le 2 (3 + p.length / 8)
    ++ le 4 (r.die % 2 ^ 17 + 2 ^ 17 * (r.unit % 16) + 2 ^ 21 * (r.part % 256))
    ++ le 2 r.stream ++ le 2 r.epoch ++ le 4 r.seq ++ le 8 r.time ++ p

/-- The side whose stream a record belongs to: 0 for an HTU's, whose LOSS records at ingress carry UNIT 0xF (R395), 8 for a VTA's. Stream IDs
are unique on a side (R446). -/
def Rec.side (r : Rec) : Nat := if r.unit = 0 ∨ r.unit = 1 ∨ r.unit = 15 then 0 else 8

/-- Length of a record in bytes. -/
def Rec.size (r : Rec) : Nat := 24 + (pad8 r.payload).length

/-- The reserved bytes of a payload, by record type: offset and count (R202, R214, R244, R246). -/
def payloadRsvd (typ : Nat) : List (Nat × Nat) :=
  match typ with
  | 0x30 => [(28, 4)]
  | 0x31 => [(6, 2)]
  | 0x41 => [(11, 5)]
  | 0x45 => [(5, 3)]
  | _ => []

/-- A record with its reserved fields taken as zero (R8). -/
def Rec.clean (r : Rec) : Rec := { r with rsvd := false }

/-- A record read from bytes; bytes past its LENGTH are ignored, and a reserved field that is not zero is remembered (R8). -/
def Rec.ofBytes (b : List Byte) : Option Rec :=
  let len := 8 * fieldAt b 2 2
  if b.length < 24 || len < 24 || b.length < len then none else
  let f := fieldAt b 1 1
  let w := fieldAt b 4 4
  some { typ := fieldAt b 0 1, ord := f.testBit 0, sig := f.testBit 1, loss := f.testBit 2, taint := f.testBit 3
         timev := f.testBit 4, partial' := f.testBit 5, degraded := f.testBit 6, rstCo := f.testBit 7
         die := w % 2 ^ 17, unit := w / 2 ^ 17 % 16, part := w / 2 ^ 21 % 256
         stream := fieldAt b 8 2, epoch := fieldAt b 10 2, seq := fieldAt b 12 4, time := fieldAt b 16 8
         payload := cut b 24 (len - 24)
         rsvd := w / 2 ^ 29 != 0 || (payloadRsvd (fieldAt b 0 1)).any fun e => fieldAt b (24 + e.1) e.2 != 0 }

end Sys2Proof

namespace Sys2Proof.Machine

/-- UNIT of a unit's own records (R34, R385): on the VTA the role that produces them (0 tray to 3 hall), or the Bracken code. -/
def unitCode (u : UnitId) (bracken : Bool) (rank : Nat := 0) : Nat :=
  match u, bracken with
  | .htu, false => 0
  | .htu, true => 1
  | .vta, false => 8 + rank % 4
  | .vta, true => 12

/-- The SHA-384 chain value as bytes, byte 0 first. -/
def digestBytes (d : BitVec 384) : List Byte := (List.range 48).map fun i => (d >>> (8 * i)).setWidth 8

/-- The chain value when a SIG stream is armed: SHA-384 over the 32-byte descriptor (R124). -/
def chainStart (u : UnitId) (die unit sid t key : Nat) : BitVec 384 :=
  Config.sha384 (le 4 die ++ le 4 unit ++ le 4 sid ++ le 8 t ++ le 8 (Config.rskKeyId u key).toNat ++ zeros 4)

/-- LOSS causes of R395. -/
def lossQueue : Nat := 1
def lossLink : Nat := 2
def lossPolice : Nat := 3
def lossLadder : Nat := 4
def lossArchive : Nat := 5
def lossDrain : Nat := 6
def lossOverwrite : Nat := 7
def lossMedia : Nat := 8
def lossRestart : Nat := 9
def lossReset : Nat := 10

/-- The payload of a LOSS record (R395). -/
def lossPayload (first last count cause : Nat) : List Byte :=
  le 4 first ++ le 4 last ++ le 4 count ++ le 1 cause ++ zeros 3

/-- Largest transmit buffer in bytes: 2 MiB on the HTU (R391), the record ingress buffer's 32 MiB on the VTA. -/
def txLimit : UnitId → Nat
  | .htu => 2 ^ 21
  | .vta => 2 ^ 25

/-- Bytes in the VC4 and VC5 transmit queues, packets that await their acknowledgement included (R379, R391). -/
def Dev.bulkBytes (d : Dev) : Nat :=
  (d.bulk.map fun q => q.r.size).sum
    + (d.conns.map fun c => ((c.2.tx.filter fun k => k.vc == 4 || k.vc == 5).map fun k => k.bytes.length).sum).sum

/-- The VC of a service: trace and dump records travel on VC5 (R358, R362, R377). -/
def vcOf (svc : Nat) : Nat := if svc = 2 ∨ svc = 3 then 5 else 4

/-- A stream context changes. -/
def Prog.modStream (u : UnitId) (sid : Nat) (f : Stream → Stream) : Prog :=
  .dev u fun d => { d with streams := d.streams.map fun e => if e.1 = sid then (e.1, f e.2) else e }

-- the archive

/-- Bytes of input at which a segment closes (CMP_CFG.UNIT_KIB, R369). -/
def State.unitBytes (s : State) (u : UnitId) : Nat := 4096 * 2 ^ s.rd u Reg.CMP_CFG_UNIT_KIB

/-- One stored DEFLATE block with BFINAL = 1 (RFC 1951). -/
def storedBlock (input : List Byte) : List Byte := le 1 1 ++ le 2 input.length ++ le 2 (65535 - input.length) ++ input

/-- DEFLATE engines of a unit: 16 GB/s and 128 GB/s at 8 GB/s each (R365). -/
def engineCount : UnitId → Nat
  | .htu => 2
  | .vta => 16

/-- Engines at work now. -/
def Dev.busyEngines (d : Dev) : List Nat := d.engines.filter (d.ticks < ·)

/-- Time-domain ticks of 0.8 ns that an engine takes for `n` bytes at 8 GB/s (R365). -/
def engineTicks (n : Nat) : Nat := (5 * n + 31) / 32

/-- The tick at which the next engine is free. -/
def State.engineFree (s : State) (u : UnitId) : Nat :=
  let d := s.dev u
  match d.busyEngines with
  | [] => d.ticks
  | a :: t => if t.length + 1 < engineCount u then d.ticks else t.foldl min a

/-- The engines' states are shown in CMP_STATUS.BUSY. -/
def Prog.showEngines (u : UnitId) : Prog := .both (.dev u fun d => { d with engines := d.busyEngines })
  (.get fun s => .wr u Reg.CMP_STATUS_BUSY (s.dev u).engines.length)

/-- A unit of `n` bytes goes to the first free engine (R365). -/
def Prog.takeEngine (u : UnitId) (n : Nat) : Prog := .get fun s =>
  let at' := s.engineFree u
  .both (.dev u fun d => { d with engines := d.busyEngines.erase at' ++ [at' + engineTicks n] }) (.showEngines u)

/-- The transmit queue has room for a record of `n` bytes of input, which takes at most 5 bytes more (R365). -/
def State.roomFor (s : State) (u : UnitId) (n : Nat) : Bool := (s.dev u).bulkBytes + n + 5 + 64 ≤ txLimit u

/-- A unit of trace or of a dump starts (R365): room for it is reserved, and where it is compressed an engine is free and no unit of the other
kind that waits has the turn. -/
def State.unitStarts (s : State) (u : UnitId) (comp turn : Bool) (n : Nat) : Bool :=
  s.roomFor u n && (!comp || (turn && s.engineFree u == (s.dev u).ticks))

/-- One unit of input goes through a DEFLATE engine; a coding longer than one stored block is replaced by one (R364, R365). -/
def Prog.compress (u : UnitId) (input : List Byte) (k : List Byte → Prog) : Prog := .get fun s =>
  let huff := Config.deflate (s.on u Reg.CMP_CFG_FIXED_ONLY) input
  let stored := huff.length > input.length + 5
  let out := if stored then storedBlock input else huff
  .seq [.takeEngine u input.length, .count u Reg.CMP_BYTES_IN input.length, .count u Reg.CMP_BYTES_OUT out.length,
        .cond stored (.bump u Reg.CMP_STATUS_STORED), k out]

/-- Pages that the rings of a partition hold now. -/
def VtaX.archPages (x : VtaX) (p : Nat) : Nat := ((x.arch.filter (·.part == p)).map (·.pages)).sum

/-- The ring of partition `p` gives up its oldest pages until `n` more fit. -/
def archTrim (p n cap : Nat) : List ArchPage → List ArchPage
  | [] => []
  | a :: t =>
    if a.part = p ∧ ((((a :: t).filter (·.part == p)).map (·.pages)).sum + n > cap) then archTrim p n cap t
    else a :: archTrim p n cap t

/-- Record types of trace and dump streams, which are stored as received (R369). -/
def traceType (t : Nat) : Bool := 0x80 ≤ t && t ≤ 0x8F

/-- The records of a segment that begin in its page `i`: every record of a compressed segment of one page; none is told for a compressed
segment of several pages. -/
def Segment.begins (g : Segment) (comp : Bool) (pages i : Nat) : List Rec :=
  if comp then (if pages = 1 then g.recs else [])
  else (g.recs.foldl (fun (acc : Nat × List Rec) r =>
    (acc.1 + r.size, if acc.1 / 4064 = i then acc.2 ++ [r] else acc.2)) (0, [])).2

/-- Page `i` of a segment as it is written: the header of R370, then at most 4,064 data bytes. -/
def Segment.page (g : Segment) (comp : Bool) (pages : Nat) (data : List Byte) (i : Nat) : List Byte :=
  let d := cut data (4064 * i) 4064
  let l := g.begins comp pages i
  let open' (k : Nat) : Nat := Config.archiveField g.recs i k
  le 2 g.stream ++ le 1 g.part ++ le 1 (comp.toNat + (if i = 0 then 0 else 2)) ++ cut ((g.recs.head?.map Rec.bytes).getD (zeros 8)) 4 4
    ++ le 4 ((l.head?.map Rec.seq).getD (open' 0)) ++ le 4 ((l.getLast?.map Rec.seq).getD (open' 1))
    ++ le 8 ((l.head?.map Rec.time).getD (open' 2)) ++ le 2 d.length ++ zeros 6 ++ d

/-- Where a page of a partition's ring stands: the archive area begins at 2 GiB and holds granules of 64 MiB, each of 16,384 pages of
4 KiB in ring order (R367, R369). -/
def State.archPageAt (s : State) (p i : Nat) : Nat :=
  0x80000000 + s.rd .vta (Reg.TRC_ARCH_PART_FIRST p) * 0x4000000 + i % (s.rd .vta (Reg.TRC_ARCH_PART_COUNT p) * 16384) * 4096

/-- The pages of a segment are written to DDR5 in ring order (R369, R370); a whole page replaces an uncorrectable one (R405). -/
def Prog.writePages (g : Segment) (comp : Bool) (pages : Nat) (data : List Byte) : Prog := .get fun s =>
  let at' := Sparse.get 0 s.vx.archPos g.part
  .both (.each (List.range pages) fun i => .both (.ddr (s.archPageAt g.part (at' + i)) (g.page comp pages data i))
      (.dev .vta fun d => { d with bad := d.bad.filter (· != (11, s.archPageAt g.part (at' + i))) }))
    (.vta fun x => { x with
      archPos := Sparse.put x.archPos g.part ((at' + pages) % (s.rd .vta (Reg.TRC_ARCH_PART_COUNT g.part) * 16384)) })

/-- A segment closes and is written to its partition's ring, or is refused (R369, R370); 2 µs, in which an engine must be free, are 2,500 ticks. -/
def Prog.closeSegment (g : Segment) : Prog := .get fun s =>
  let bytes := (g.recs.flatMap Rec.bytes)
  let p := g.part
  let isTrace := g.recs.any fun r => traceType r.typ
  let comp := s.on .vta (Reg.TRC_ARCH_PART_COMPRESS p) && !isTrace
  let cap := s.rd .vta (Reg.TRC_ARCH_PART_COUNT p) * 16384
  let same := fun (e : Segment) => e.die == g.die && e.unit == g.unit && e.stream == g.stream
  let store := fun (data : List Byte) => Prog.get fun s =>
    let pages := (data.length + 4063) / 4064
    if s.vx.archPages p + pages > cap && s.on .vta (Reg.TRC_ARCH_PART_MODE p) then
      .seq [.bump .vta (Reg.TRC_ARCH_PART_REFUSED p),
        .vta fun x => { x with refused := Sparse.mod 0 x.refused p (· + 1) },
        .get fun s =>
          let due := match Sparse.find s.vx.fullAt p with
            | some t => t + 60 * ticksPerS ≤ s.v.ticks
            | none => true
          .cond due <| .seq [
            .event .vta 0x0501 (le 1 p ++ zeros 3 ++ le 4 (Sparse.get 0 s.vx.refused p)),
            .vta fun x => { x with refused := Sparse.put x.refused p 0, fullAt := Sparse.put x.fullAt p s.v.ticks }]]
    else .cond (pages ≤ cap) <| .both (.writePages g comp pages data) <| .vta fun x => { x with
      arch := archTrim p pages cap x.arch ++
        [{ part := p, stream := g.stream, die := g.die, unit := g.unit, comp, pages, recs := g.recs }] }
  .seq [.vta fun x => { x with segs := x.segs.filter fun e => !same e },
    .cond (g.recs != []) <|
      if comp then
        if s.engineFree .vta ≤ s.v.ticks + 2500 then .compress .vta bytes store
        else .both (.bump .vta Reg.CMP_STATUS_BYPASS) (store (storedBlock bytes))
      else store bytes]

/-- A record of an archiving partition joins its stream's segment (R369); the archive needs the DDR5 (R443). -/
def Prog.archive (r : Rec) : Prog := .get fun s =>
  .cond (s.on .vta (Reg.TRC_ARCH_PART_VALID r.part) && s.on .vta Reg.VTA_STATUS_DDR_READY) <|
    let same := fun (e : Segment) => e.die == r.die && e.unit == r.side && e.stream == r.stream
    let old := (s.vx.segs.find? same).getD { die := r.die, unit := r.side, stream := r.stream, part := r.part, recs := [] }
    let g := { old with recs := old.recs ++ [r] }
    .both (.vta fun x => { x with segs := (x.segs.filter fun e => !same e) ++ [g] })
      (.cond ((g.recs.map Rec.size).sum ≥ s.unitBytes .vta) (.closeSegment g))

-- the host ring and the retention ring

/-- A range lies in one window that Gorse granted to a partition (R61). -/
def State.inWindow (s : State) (part addr len : Nat) : Bool :=
  (((s.polBody .htu).map (·.windows)).getD []).any fun w => w.1 == part && w.2.1 ≤ addr && addr + len ≤ w.2.1 + w.2.2

/-- A range of host memory as HDMA transfers: each of at most 256 bytes, a power of two, aligned to its size, on a 48-bit address (R60). -/
def hdmaSplit : Nat → Nat → Nat → List (Nat × Nat)
  | 0, _, _ => []
  | _, _, 0 => []
  | fuel + 1, a, n + 1 =>
    let size := 2 ^ (((List.range 9).reverse.find? fun i => a % 2 ^ i = 0 ∧ 2 ^ i ≤ n + 1).getD 0)
    (a % 2 ^ 48, size) :: hdmaSplit fuel (a + size) (n + 1 - size)

/-- The HDMA writes of bytes that go to offset `at'` of a ring, which wrap at its end (R60, R387). -/
def ringWrites (base size at' : Nat) (bytes : List Byte) : List (Nat × List Byte) :=
  let n := min bytes.length (size - at')
  let put (a : Nat) (b : List Byte) : List (Nat × List Byte) :=
    ((hdmaSplit b.length a b.length).foldl (fun x p => (x.1 ++ [(p.1, (b.drop x.2).take p.2)], x.2 + p.2)) ([], 0)).1
  put (base + at') (bytes.take n) ++ put base (bytes.drop n)

/-- A record is written by HDMA into the host ring in commit order, or dropped with a LOSS record (R60, R387). With a write outside the
partition's windows, or in the safe state, none of the record is issued (R43, R61): it is lost as with a full ring (log entry 139). -/
def Prog.hostRing (sid : Nat) (r : Rec) : Prog := .get fun s =>
  .cond (s.on .htu Reg.SCH_HRING_VALID) <|
    let size := 2 ^ s.rd .htu Reg.SCH_HRING_SIZE_LOG2
    let head := s.rd .htu Reg.SCH_HRING_HEAD
    let used := (head + size - s.rd .htu Reg.SCH_HRING_TAIL % size) % size
    let hl := (Sparse.find s.h.streams sid).bind (·.hostLoss)
    let bytes := (match hl with
      | some (f, n) => Rec.bytes { r with typ := 1, loss := true, seq := f
                                          payload := lossPayload f (f + n - 1) n lossQueue }
      | none => []) ++ r.bytes
    let writes := ringWrites (s.rd .htu Reg.SCH_HRING_BASE) size (head % size) bytes
    if used + bytes.length < size ∧ s.live ∧ (writes.all fun w => s.inWindow r.part w.1 w.2.length) then .seq [
      .each writes fun w => .send .htu (.hdmaWrite w.1 w.2),
      .wr .htu Reg.SCH_HRING_HEAD ((head + bytes.length) % size),
      .modStream .htu sid fun t => { t with hostLoss := none }]
    else .modStream .htu sid fun t => { t with hostLoss := some ((t.hostLoss.map (·.1)).getD r.seq,
                                                                 (t.hostLoss.map (·.2)).getD 0 + 1) }

/-- The newest records that fit in 1 MiB (R387). -/
def retainTrim (l : List Rec) : List Rec :=
  (l.reverse.foldl (fun (a : List Rec × Nat × Bool) r =>
    if a.2.2 && a.2.1 + r.size ≤ 2 ^ 20 then (r :: a.1, a.2.1 + r.size, true) else (a.1, a.2.1, false))
    ([], 0, true)).1

/-- The traffic class of a record of a service (R435). -/
def tcOf (svc : Nat) : Nat :=
  match svc with
  | 0 => 4
  | 1 => 3
  | 4 => 2
  | 5 => 1
  | _ => 0

/-- An uplink's gate for the traffic class of a service is open (R436); every gate is open until policy loads a list. -/
def State.gateOpen (s : State) (svc : Nat) : Bool :=
  (List.range 2).any fun k => (Sparse.get (BitVec.allOnes 8) s.vx.qbvNow k).getLsbD (tcOf svc)

/-- The uplink that carries a traffic class now: the first whose gate for it is open (R436). -/
def State.uplinkFor (s : State) (tc : Nat) : Nat :=
  ((List.range 2).find? fun k => (Sparse.get (BitVec.allOnes 8) s.vx.qbvNow k).getLsbD tc).getD 0

/-- The frame of a datagram of a traffic class (R434, R435): the MAC addresses are two consecutive ones from fuses, the rest is policy's, and 0
where policy gives none; the tag's priority is the class (log entry 141). -/
def State.frame (s : State) (dst tc : Nat) : Frame :=
  let net := ((s.polBody .vta).map (·.net)).getD {}
  let k := s.uplinkFor tc
  { mac := Config.macFuse + BitVec.ofNat 48 k, vlan := net.vlan, pcp := tc, src := net.ip.getD k 0
    dst := Sparse.get 0 net.dst dst, port := net.ports.getD tc 0 }

/-- Bytes of a frame beside its datagram's payload: Ethernet header, tag and check sequence, IPv6, UDP (log entry 141). -/
def Frame.overhead (f : Frame) : Nat := if f.vlan.isSome then 70 else 66

/-- A datagram of `n` bytes leaves in one frame of up to 9,216 bytes; it is never split (R434, R435). -/
def Prog.ether (dst tc n : Nat) (o : Out) : Prog := .get fun s =>
  .cond (n + (s.frame dst tc).overhead ≤ 9216) (.send .vta (.ether (s.frame dst tc) o))

/-- A record or message leaves for the unit above or for the units below. -/
def Prog.ethRec (up : Bool) (tc : Nat) (r : Rec) : Prog := .ether (if up then 0 else 1) tc r.size (.ethRec up r)

/-- The VTA's queued records leave on an uplink whose gate is open, in commit order (R29, R435, R436). -/
def Prog.uplink : Prog := .get fun s => .both
  (.dev .vta fun d => { d with bulk := d.bulk.filter fun q => !s.gateOpen q.svc })
  (.each (s.v.bulk.filter fun q => s.gateOpen q.svc) fun q => .ethRec true (tcOf q.svc) q.r)

/-- A finished record leaves its producer: to the bulk queue, the rings and, on the VTA, the archive and an uplink. -/
def Prog.deliver (u : UnitId) (sid svc : Nat) (st : Stream) (r : Rec) : Prog := .get fun s => .seq [
  .dev u fun d => { d with bulk := d.bulk ++ [{ part := r.part, svc, vc := vcOf svc, at' := s.ns u, r }] },
  match u with
  | .htu => .seq [.cond st.host (.hostRing sid r),
      .cond st.retain (.dev .htu fun d => { d with retain := retainTrim (d.retain ++ [r]) })]
  | .vta => .both (.archive r) .uplink]

/-- A record with the next sequence number is chained and delivered (R124). -/
def Prog.put (u : UnitId) (sid : Nat) (r : Rec) (svc : Option Nat := none) : Prog := .get fun s =>
  .opt (Sparse.find (s.dev u).streams sid) fun st =>
    .both (.modStream u sid fun t =>
        if t.sig then
          { t with chain := Config.sha384 (digestBytes t.chain ++ r.bytes)
                   segStart := if t.segCount = 0 then t.chain else t.segStart
                   segFirst := if t.segCount = 0 then r.seq else t.segFirst
                   segLast := r.seq
                   segTime := if t.segCount = 0 then s.ns u else t.segTime
                   segTick := if t.segCount = 0 then (s.dev u).ticks else t.segTick
                   segLive := if t.segCount = 0 then s.timev u else t.segLive
                   segCount := t.segCount + 1 }
        else t)
      (.deliver u sid (svc.getD st.svc) st r)

/-- A header of this stream at this instant. -/
def State.header (s : State) (u : UnitId) (sid : Nat) (st : Stream) (t : Option Nat) : Rec :=
  let now := t.getD (s.ns u)
  { typ := 0, ord := st.ord, sig := st.sig, timev := s.timev u, degraded := s.on u Reg.SHF_STATUS_LEVEL, die := s.dieId u % 2 ^ 17
    unit := unitCode u st.bracken st.rank, part := st.part, stream := sid
    epoch := if s.timev u then epochOf now % 65536 else 0, seq := st.seq, time := if s.timev u then now else 0 }

/-- The open segment of a SIG stream closes and its signature record is emitted (R125, R126). -/
def Prog.closeChain (u : UnitId) (sid : Nat) : Prog := .get fun s =>
  .opt (Sparse.find (s.dev u).streams sid) fun st =>
    .cond (st.sig && st.segCount != 0 && s.gorseUp u && s.assigned u) <|
      let key := (s.dev u).rsk
      let body := le 8 (Config.rskKeyId u key).toNat ++ le 4 st.segFirst ++ le 4 st.segLast
        ++ le 4 st.segCount ++ zeros 4 ++ digestBytes st.segStart ++ digestBytes st.chain
      let hdr := { s.header u sid st none with typ := 0xF1 }
      let sgn := Config.rskSign u key (body ++ (Rec.bytes { hdr with payload := zeros 216 }).take 24)
      let r := { hdr with payload := body ++ (List.range 96).map fun i => (sgn >>> (8 * i)).setWidth 8 }
      .both (.modStream u sid fun t => { t with seq := (t.seq + 1) % 2 ^ 32, segCount := 0 }) (.deliver u sid st.svc st r)

/-- A segment closes as it holds 4,096 records, LOSS records among them (R125). -/
def Prog.closeFull (u : UnitId) (sid : Nat) : Prog := .get fun s =>
  .cond (4096 ≤ ((Sparse.find (s.dev u).streams sid).map (·.segCount)).getD 0) (.closeChain u sid)

/-- The open range of lost records is written as one LOSS record before the next record (R395). -/
def Prog.flushLoss (u : UnitId) (sid : Nat) : Prog := .get fun s =>
  .opt (Sparse.find (s.dev u).streams sid) fun st => .opt st.lossFrom fun (first, n, cause) => .cond (s.assigned u) <| .seq [
    .put u sid { s.header u sid st none with typ := 1, loss := true, seq := first
                                             payload := lossPayload first (first + n - 1) n cause },
    .modStream u sid fun t => { t with lossFrom := none },
    .closeFull u sid]

/-- A stream's next record: what is lost before it, the record under the next sequence number, and the close of a full segment. -/
def Prog.putNext (u : UnitId) (sid : Nat) (svc : Option Nat) (t : Option Nat) (edit : Rec → Rec) : Prog := .seq [
  .flushLoss u sid,
  .get fun s => .opt (Sparse.find (s.dev u).streams sid) fun st => .put u sid (edit (s.header u sid st t)) svc,
  .modStream u sid fun t => { t with seq := (t.seq + 1) % 2 ^ 32 },
  .closeFull u sid]

/-- A producer drops `n` records of a stream: the range stays open until the next record (R395). -/
def Prog.dropRecs (u : UnitId) (sid n cause : Nat) : Prog := .get fun s =>
  .opt (Sparse.find (s.dev u).streams sid) fun st => .both
    (.modStream u sid fun t => { t with
      seq := (t.seq + n) % 2 ^ 32
      lossFrom := some ((t.lossFrom.map (·.1)).getD t.seq, (t.lossFrom.map (·.2.1)).getD 0 + n, cause) })
    (.bumpBy u (Reg.SCH_Q_DROPS st.part st.svc) n)

/-- A record of a stream is produced: a LOSS record first if a range is open, then the record; at ladder level L4 log and
analytics streams are paused (R218), at a full transmit queue the record is dropped (R386, R392, R395), and a unit without a die ID produces
none (R23). `edit` sets type, flags and payload; `t` is the event's instant. -/
def Prog.emitSvc (u : UnitId) (sid : Nat) (svc : Option Nat) (t : Option Nat) (edit : Rec → Rec) : Prog := .get fun s =>
  .cond (s.assigned u) <| .opt (Sparse.find (s.dev u).streams sid) fun st =>
    let r := edit (s.header u sid st t)
    let q := svc.getD st.svc
    if s.rd u Reg.SHF_STATUS_LEVEL ≥ 4 ∧ (q = 4 ∨ q = 5) then .dropRecs u sid 1 lossLadder
    else if (s.dev u).bulkBytes + r.size + 64 > txLimit u then .dropRecs u sid 1 lossQueue
    else .putNext u sid svc t edit

/-- A record of a stream under the stream's own service. -/
def Prog.emitAt (u : UnitId) (sid : Nat) (t : Option Nat) (edit : Rec → Rec) : Prog := .emitSvc u sid none t edit

/-- A record that waits for room in the transmit queue instead of being dropped (R358, R362), under a service of its own. -/
def Prog.emitWait (u : UnitId) (sid svc : Nat) (edit : Rec → Rec) : Prog := .get fun s =>
  .cond (s.assigned u) (.putNext u sid (some svc) none edit)

/-- A record produced at this instant. -/
def Prog.emit (u : UnitId) (sid : Nat) (typ : Nat) (payload : List Byte) : Prog :=
  .emitAt u sid none fun r => { r with typ, payload }

/-- A LOSS record that the VTA writes in a stream of another unit: UNIT 0xF, no SIG (R390, R394, R395). -/
def State.vtaLoss (s : State) (die part stream first last count cause : Nat) (ord : Bool) : Rec :=
  { typ := 1, loss := true, ord, timev := s.timev .vta, die, unit := 0xF, part, stream
    epoch := if s.timev .vta then s.epoch .vta % 65536 else 0, seq := first
    time := if s.timev .vta then s.ns .vta else 0, payload := lossPayload first last count cause }

/-- A LOSS record for queued records of one stream that are discarded (R91, R218, R395). -/
def Prog.lossOf (u : UnitId) (sid : Nat) (gone : List Rec) (cause : Nat) : Prog := .get fun s =>
  .cond (gone != []) <| .opt (Sparse.find (s.dev u).streams sid) fun st =>
    let first := (gone.head?.map Rec.seq).getD 0
    .put u sid { s.header u sid st none with
      typ := 1, loss := true, seq := first
      payload := lossPayload first ((gone.getLast?.map Rec.seq).getD 0) gone.length cause }

/-- A stream context opens (R446); on a SIG stream the chain starts at the descriptor, which holds the stream's arm time (R124). -/
def Prog.openStream (u : UnitId) (sid : Nat) (st : Stream) : Prog := .get fun s =>
  let c := chainStart u (s.dieId u) (unitCode u st.bracken st.rank) sid st.armT (s.dev u).rsk
  .dev u fun d => { d with streams := Sparse.put d.streams sid { st with chain := c, segStart := c } }

/-- A stream closes: its closing signature record follows and its ID is free (R125, R446). -/
def Prog.closeStream (u : UnitId) (sid : Nat) : Prog := .seq [
  .flushLoss u sid, .closeChain u sid, .dev u fun d => { d with streams := Sparse.del d.streams sid }]

/-- A record to a register-named stream: nothing where VALID is 0 (R446). -/
def Prog.emitReg (u : UnitId) (valid stream : Fld) (typ : Nat) (payload : List Byte) : Prog := .get fun s =>
  .cond (s.on u valid) (.emit u (s.rd u stream) typ payload)

/-- VTA_STATUS bits that change fire MSI-X vector 8 (R431); a masked vector is left pending. -/
def Prog.msix (n : Nat) : Prog := .get fun s =>
  if s.on .vta (Reg.MSIX_MASK n) then
    .wr .vta Reg.MSIX_PBA_PENDING (s.rd .vta Reg.MSIX_PBA_PENDING ||| 2 ^ n)
  else .send .vta (.msix n)

/-- A VTA_STATUS field takes a value. -/
def Prog.vtaStatus (f : Fld) (v : Nat) : Prog := .get fun s =>
  .cond (s.rd .vta f != v) (.both (.wr .vta f v) (.msix 8))

end Sys2Proof.Machine
end

