-- ==== Sys2Proof/Machine/Pins.lean ====
section
/-! DEFINITION. The test and management pins of the VTA (R438, R439): boundary scan under IEEE 1149.1 and 1149.6, and the two I3C buses with
SMBus targets on bus 0. No row of the table drives these pins; what stands here is what the device answers at them (log entry 142). -/

namespace Sys2Proof.Machine

-- JTAG

/-- The instructions of the JTAG port (R439): those of IEEE 1149.1, and EXTEST_PULSE and EXTEST_TRAIN of IEEE 1149.6 for the AC-coupled lanes of
Furrow, Ethernet and PCIe. -/
inductive Jtag where
  | bypass | samplePreload | extest | idcode | highz | clamp | extestPulse | extestTrain
deriving DecidableEq, Repr

/-- The instruction after a reset of the test logic: IDCODE (IEEE 1149.1). -/
def Jtag.reset : Jtag := .idcode

/-- IDCODE (R439): the part number field carries VTA_ID.PART, the version field the low four bits of VTA_ID.STEP, bit 0 is 1. PRESUMED (IEEE
1149.1), log entry 142. -/
def State.jtagId (s : State) : BitVec 32 :=
  BitVec.ofNat 32 (s.rd .vta Reg.ID_STEP % 16 * 2 ^ 28 + s.rd .vta Reg.ID_PART * 2 ^ 12 + Config.jtagMaker.toNat * 2 + 1)

/-- A word as bits, least significant first. -/
def bitsOf (n : Nat) (w : BitVec n) : List Bool := (List.range n).map w.getLsbD

/-- What the data register of an instruction captures: the one bypass bit, the IDCODE, or the pins (`pins` for IEEE 1149.1, with the lanes under
the AC instructions). -/
def State.jtagCapture (s : State) (i : Jtag) (pins lanes : List Bool) : List Bool :=
  match i with
  | .bypass | .highz | .clamp => [false]
  | .idcode => bitsOf 32 s.jtagId
  | .samplePreload | .extest => pins
  | .extestPulse | .extestTrain => pins ++ lanes

/-- Who drives the outputs under an instruction. -/
inductive PinSource where
  | device | boundary | none
deriving DecidableEq, Repr

def Jtag.drives : Jtag → PinSource
  | .bypass | .samplePreload | .idcode => .device
  | .extest | .clamp | .extestPulse | .extestTrain => .boundary
  | .highz => .none

-- I3C and SMBus

/-- What the controller of an I3C bus may do (R439): SDR transfers, dynamic address assignment, and taking an in-band interrupt. Bus 0 also
reaches SMBus targets, as legacy I2C targets. -/
inductive I3cOp where
  | assign (target : BitVec 7)
  | inBand (target : BitVec 7)
  | write (target : BitVec 7) (data : List Byte)
  | read (target : BitVec 7) (data : List Byte)
  | smbus (target : BitVec 7) (data : List Byte)
deriving DecidableEq, Repr

/-- One step of SMBus packet error checking: CRC-8 of x^8 + x^2 + x + 1 (SMBus 3.x). -/
def crc8Step (c b : Byte) : Byte :=
  (List.range 8).foldl (fun c _ => if c.getLsbD 7 then (c <<< 1) ^^^ 0x07 else c <<< 1) (c ^^^ b)

/-- Packet error checking is used with an SMBus target: its policy entry marks it (R439). -/
def State.smbusPec (s : State) (target : BitVec 7) : Bool := ((s.polBody .vta).map fun b => b.pec.contains target).getD false

/-- Bytes that a write to a target puts on the bus after its start: address and data, with the error code where it is used. -/
def State.busWrite (s : State) (target : BitVec 7) (data : List Byte) : List Byte :=
  let b := (target.setWidth 8 <<< 1) :: data
  if s.smbusPec target then b ++ [b.foldl crc8Step 0] else b

/-- Bytes that the controller puts on bus `b` for an operation, or none where the bus does not have it (R438, R439): SMBus targets are on bus 0
only. A dynamic address is assigned after ENTDAA, the broadcast code 0x07. -/
def State.i3c (s : State) (b : Nat) : I3cOp → Option (List Byte)
  | .assign t => some [0xFC, 0x07, t.setWidth 8 <<< 1]
  | .inBand t => some [(t.setWidth 8 <<< 1) ||| 1]
  | .write t d => some ((t.setWidth 8 <<< 1) :: d)
  | .read t _ => some [(t.setWidth 8 <<< 1) ||| 1]
  | .smbus t d => if b = 0 then some (s.busWrite t d) else none

end Sys2Proof.Machine
end

