-- ==== Sys2Proof/Machine/Flags.lean ====
section
/-! DEFINITION. Status codes (R79), refusal details (R76), the error counters and interrupts of a mailbox (R74, R87), and
the posting of replies (R72, R73, R76, R97). -/

namespace Sys2Proof.Machine

-- status codes of R79
def stOk : Nat := 0x00
def stAccepted : Nat := 0x01
def stBusy : Nat := 0x02
def stBadOpcode : Nat := 0x03
def stBadParam : Nat := 0x04
def stDenied : Nat := 0x05
def stNotStopped : Nat := 0x06
def stNoResource : Nat := 0x07
def stTimeInvalid : Nat := 0x08
def stDeadline : Nat := 0x09
def stFenced : Nat := 0x0A
def stUnsupportedGen : Nat := 0x0B
def stMedia : Nat := 0x0C
def stAborted : Nat := 0x0D
def stNotReady : Nat := 0x0E

/-- A refusal or an answer: STATUS, DETAIL, RESULT and reply data. -/
structure Ans where
  status : Nat
  detail : Nat := 0
  result : Nat := 0
  data   : List Byte := []
deriving DecidableEq, Repr

/-- BAD_PARAM with a detail. -/
def badParam (d : Nat) (result : Nat := 0) : Ans := { status := stBadParam, detail := d, result }

/-- The first answer of a list of checks that refuses. -/
def firstBad : List (Bool × Ans) → Option Ans
  | [] => none
  | (bad, a) :: t => if bad then some a else firstBad t

/-- A mailbox interrupt status bit rises (R74): the level lines follow, and the VTA's PCIe mailboxes signal it by MSI-X when it is enabled
(R68, R431). -/
def Prog.mbxIrq (u : UnitId) (m bit : Nat) : Prog := .get fun s => .seq [
  .wr u (match bit with | 0 => Reg.MBX_IRQ_STATUS_NOTIFY_REPLY m | _ => Reg.MBX_IRQ_STATUS_ERROR m) 1,
  .irqEdge u m s,
  .cond (u == .vta && m < 8 && (s.rd u (Reg.MBX_IRQ_EN_EN m)).testBit bit) (.msix m)]

/-- A counter of MBX_ERR or MBX_ERR2 counts, and the ERROR bit rises (R74). -/
def Prog.mbxErr (u : UnitId) (m : Nat) (f : Fld) : Prog := .both (.bump u f) (.mbxIrq u m 1)

/-- Words of a byte string, little-endian. -/
def toWords : List Byte → List Word
  | [] => []
  | b0 :: b1 :: b2 :: b3 :: b4 :: b5 :: b6 :: b7 :: t => BitVec.ofNat 64 (ofLe [b0, b1, b2, b3, b4, b5, b6, b7]) :: toWords t
  | bs => [BitVec.ofNat 64 (ofLe bs)]

/-- The bytes of words, little-endian. -/
def ofWords (ws : List Word) : List Byte := ws.flatMap fun w => le 8 w.toNat

/-- A v2 reply as bytes (R76). -/
def replyBytes (opcode : Nat) (tag : BitVec 16) (a : Ans) : List Byte :=
  let data := pad8 a.data
  le 1 opcode ++ le 1 a.status ++ le 2 tag.toNat ++ le 2 data.length ++ zeros 2 ++ le 4 a.detail ++ le 4 a.result ++ data

/-- A v1 reply (Hixel-1 form): 32 bytes, 16 of reply data, RESULT the count not returned where data is cut (R97). -/
def replyV1 (opcode : Nat) (tag : BitVec 16) (a : Ans) : List Byte :=
  let data := pad8 a.data
  let res := if data.length > 16 then data.length - 16 else a.result
  le 1 opcode ++ le 1 a.status ++ le 1 tag.toNat ++ zeros 1 ++ le 2 (min 16 data.length) ++ zeros 2
    ++ le 4 a.detail ++ le 4 res ++ fit 16 data

/-- A packet joins a connection's transmit queue of a VC (R377, R379). -/
def Prog.sendPkt (u : UnitId) (c vc : Nat) (bytes : List Byte) : Prog :=
  .dev u fun d => { d with conns := Sparse.mod {} d.conns c fun k => { k with tx := k.tx ++ [{ vc, bytes }] } }

/-- A reply leaves its mailbox: to Furrow VC1, to Ethernet, or to the reply queue as its last word is committed (R68, R73). -/
def Prog.postReply (u : UnitId) (m : Nat) (o : Outst) (a : Ans) : Prog := .get fun s =>
  if u = .htu ∧ m = 2 then .sendPkt .htu 0 1 (replyBytes o.opcode o.tag a)
  else if u = .vta ∧ m = 9 then
    .ether 0 5 (16 + (pad8 a.data).length) (.ethReply {
      opcode := BitVec.ofNat 8 o.opcode, status := BitVec.ofNat 8 a.status, tag := o.tag, detail := BitVec.ofNat 32 a.detail
      result := BitVec.ofNat 32 a.result, data := pad8 a.data })
  else
    let v1 := s.on u (Reg.MBX_STATUS_GEN m)
    let bytes := if v1 then replyV1 o.opcode o.tag a else replyBytes o.opcode o.tag a
    .modMb u m fun b => { b with replies := b.replies ++ [(toWords bytes, o.need)] }

/-- The reply of an outstanding command is posted. A status other than ACCEPTED is final (R79): the command is then no
longer outstanding and NOTIFY is raised (R87). -/
def Prog.reply (u : UnitId) (m : Nat) (tag : BitVec 16) (a : Ans) : Prog := .get fun s =>
  .opt ((s.mb u m).outst.find? (·.tag == tag)) fun o =>
    let final := a.status != stAccepted
    .seq [
      .cond (!o.discard) (.postReply u m (if final then o else { o with need := 0 }) a),
      .modMb u m fun b =>
        if final then { b with outst := b.outst.filter (·.tag != tag) }
        else { b with outst := b.outst.map fun x => if x.tag == tag then { x with first := true } else x },
      .cond (final && !o.discard && o.flags.getLsbD 2) (.mbxIrq u m 0)]

/-- The reply of the command (mailbox, tag) that an entry of the state names. -/
def Prog.answer (u : UnitId) (c : Option (Nat × BitVec 16)) (a : Ans) : Prog :=
  .opt c fun (m, tag) => .reply u m tag a

/-- A measurement takes its value (R110): where it changes while an SPDM session is open, a MEASUREMENT_CHANGE record names its index. -/
def Prog.measure (u : UnitId) (index : Nat) (v : BitVec 384) : Prog := .get fun s =>
  let old := Sparse.find (s.dev u).meas index
  .cond (old != some v) <| .both (.dev u fun d => { d with meas := Sparse.put d.meas index v })
    (.cond (old.isSome && (s.dev u).mbx.any (·.2.bound)) (.event u 0x0803 (le 1 index ++ zeros 7)))

/-- Indexes 2 and 3 take their values: the patch set with PATCH_SVN, and the fuse configuration (R110). -/
def Prog.measureFuses (u : UnitId) : Prog := .get fun s =>
  let svn := le 2 (s.rd u Reg.SEC_SVN_PATCH_SVN)
  .both (.measure u 2 (Config.sha384 (digestBytes (s.dev u).patch ++ svn)))
    (.measure u 3 (Config.sha384 (svn ++ le 2 (s.rd u Reg.SEC_SVN_BRACKEN_SVN) ++ le 48 Config.providerRoot)))

/-- The commands in flight on a function: started, outstanding, and naming it as TARGET (R91). -/
def State.inFlight (s : State) (u : UnitId) (fid : Nat) : List (Nat × BitVec 16) :=
  (s.dev u).mbx.flatMap fun e => (e.2.outst.filter fun o => o.target.toNat == fid && !e.2.held.any (·.2.tag == o.tag)).map fun o => (e.1, o.tag)

/-- A function goes FAULTED (R91): a FUNCTION_FAULT record names it with the state before, what its commands in flight left pending goes, and
they reply ABORTED, a stop command that waits for it among them. -/
def Prog.faultFn (u : UnitId) (fid : Nat) : Prog := .get fun s =>
  let f := s.fn u fid
  let code : Nat := match f.st with
    | .stopped => 0
    | .running => 1
    | .draining => 2
    | .faulted => 3
  let gone := s.inFlight u fid
  .seq [
    .setFn u fid fun f => { f with st := .faulted, stopper := none },
    .event u 0x0003 (le 2 fid ++ le 1 code ++ zeros 5),
    .dev u fun d => { d with sched := d.sched.filter fun e => !(e.cmd.map gone.contains).getD false },
    .cond (u == .vta) (.vta fun x => { x with swaps := x.swaps.filter fun e => !gone.contains e.2 }),
    .answer u f.stopper { status := stAborted },
    .each gone fun c => .answer u (some c) { status := stAborted }]

end Sys2Proof.Machine
end

