-- ==== Sys2Proof/Machine/Operands.lean ====
section
/-! DEFINITION. The operand forms: command packets (R75, R97), function IDs (R89), roles and grants (R115, R116, R120),
and `Op`, what a governing chapter says of one opcode. -/

namespace Sys2Proof

/-- FLAGS bits of R75. -/
def Packet.ordF (p : Packet) : Bool := p.flags.getLsbD 0
def Packet.fenceF (p : Packet) : Bool := p.flags.getLsbD 1
def Packet.asyncF (p : Packet) : Bool := p.flags.getLsbD 3

/-- The partition and role a packet acts for, as numbers. -/
def Packet.part (p : Packet) : Nat := p.partition.toNat
def Packet.roleN (p : Packet) : Nat := p.role.toNat

end Sys2Proof

namespace Sys2Proof.Machine

/-- Class and instance of a TARGET (R75). -/
def targetClass (t : BitVec 16) : Nat := t.toNat / 4096
def targetInst (t : BitVec 16) : Nat := t.toNat % 4096

/-- Whether a unit has a function ID (R89). -/
def validTarget (u : UnitId) (cls inst : Nat) : Bool :=
  match u, cls with
  | _, 0 => inst == 0
  | .htu, 1 => inst < 1024
  | .vta, 1 => true
  | .htu, 2 => inst == 0
  | .vta, 3 => inst < 16
  | _, 4 => inst == 0
  | _, 5 => inst == 0
  | u, 6 => inst < portCount u
  | _, _ => false

-- roles of R75
def roleProvider : Nat := 1
def roleTenant : Nat := 2
def roleAnalytics : Nat := 3
def roleFaultManager : Nat := 4
def roleOperator : Nat := 5
def rolePeer : Nat := 6

/-- What a role may do with an opcode (R116). -/
inductive Perm where
  | yes
  | own
  | no
deriving DecidableEq, Repr

/-- Permissions of one opcode for the roles 1 to 6 in order. -/
def permOf (l : List Perm) (role : Nat) : Perm := l.getD (role - 1) .no


/-- A parameter field of `n` bytes at byte `a`. -/
def arg (p : Packet) (a n : Nat) : Nat := fieldAt p.params a n

/-- Whether any of the parameter bytes `a` to `a + n - 1` is non-zero. -/
def anySet (p : Packet) (a n : Nat) : Bool := (cut p.params a n).any (· != 0)


/-- What the manual says of one opcode: its code, units, v1 mark and target classes (R96), accepted PLEN (R80 check 3),
reserved parameter bits (R8), roles (R116), the "own" test of its operands and the ownership test that binds every role (R117), whether
ASYNC acts (R82), and its governing chapter's checks 7 and 8, the
largest reply data (R72), its resource and time checks 9 and 10, and its effect, which posts the reply. -/
structure Op where
  code    : Nat
  onHtu   : Bool := true
  onVta   : Bool := true
  v1      : Bool := false
  classes : List Nat := [0]
  plen    : Nat → Bool
  rsvd    : UnitId → Packet → Bool := fun _ _ => false
  perms   : List Perm
  async   : Bool := true
  ready   : State → UnitId → Packet → Bool := fun _ _ _ => true
  own     : State → UnitId → Packet → Bool := fun _ _ _ => true
  owner   : State → UnitId → Packet → Bool := fun _ _ _ => true
  check   : State → UnitId → Nat → Packet → Option Ans := fun _ _ _ _ => none
  data    : Packet → Nat := fun _ => 0
  late    : State → UnitId → Nat → Packet → Option Ans := fun _ _ _ _ => none
  run     : UnitId → Nat → Packet → Prog

/-- Perms of R116 by its rows. -/
def permAll : List Perm := [.yes, .yes, .yes, .yes, .yes, .yes]
def permConfig : List Perm := [.yes, .own, .own, .yes, .yes, .yes]
def permSnap : List Perm := [.yes, .no, .no, .yes, .yes, .yes]
def permStep : List Perm := [.yes, .no, .no, .no, .no, .yes]
def permTree : List Perm := [.yes, .no, .yes, .no, .yes, .no]
def permSwap : List Perm := [.yes, .no, .no, .no, .yes, .no]
def permTrace : List Perm := [.yes, .own, .no, .no, .yes, .yes]
def permFlush : List Perm := [.yes, .own, .own, .no, .yes, .yes]
def permPolicy : List Perm := [.yes, .no, .no, .no, .yes, .yes]
def permLease : List Perm := [.yes, .own, .no, .yes, .yes, .yes]

/-- The partition numbers that the unit holds (R37); before policy only the provider partition 0. -/
def State.holds (s : State) (u : UnitId) (part : Nat) : Bool :=
  part == 0 || (match s.polBody u with | some b => b.partitions.contains part | none => false)

/-- The cells of R115 that are not "—". -/
def grantCell (u : UnitId) (m role : Nat) : Bool :=
  match u, m with
  | .htu, 0 => [1, 2, 4].contains role
  | .htu, 1 => role == 3
  | .htu, 2 => [1, 2, 4, 5, 6].contains role
  | .vta, 8 => role == 3
  | .vta, 9 => [1, 4, 5, 6].contains role
  | .vta, _ => [1, 2, 4, 5].contains role
  | .htu, _ => false

/-- The session of a PCIe mailbox grants a role (R115, R120): its certificate chains to the root listed for the role, or
with no policy in force to the provider root for PROVIDER. -/
def State.sessionGrants (s : State) (m role : Nat) : Bool :=
  let b := s.mb .vta m
  b.bound && (match s.polBody .vta with
    | some pol => (pol.roots.any fun r => r.1 == role && Config.sessionRole b.sessNo role r.2)
    | none => role == roleProvider && Config.sessionRole b.sessNo role Config.providerRoot)

/-- Whether a mailbox is granted a role for an opcode (R115, R120). ATTEST is accepted from every role (R112); Bracken acts with role
ANALYTICS alone (R103). -/
def State.granted (s : State) (u : UnitId) (m role opcode : Nat) : Bool :=
  let listed := match (s.polBody u).bind (·.grants) with
    | some l => some (l.contains (m, role))
    | none => none
  (opcode == 0x80 && m != (match u with | .htu => 1 | .vta => 8)) || (grantCell u m role && (match u, m with
    | .htu, 0 =>
      if s.policy .htu then listed == some true
      else role == roleProvider && [0x02, 0x80, 0x70, 0x07, 0x81].contains opcode
    | .vta, _ => if m < 8 then s.sessionGrants m role && listed != some false else listed != some false
    | _, _ => listed != some false))

/-- The "own" test of R116 on the TARGET: collectors, model slots and the trace of the command's own partition. -/
def State.ownTarget (s : State) (u : UnitId) (p : Packet) : Bool :=
  let inst := targetInst p.target
  match targetClass p.target with
  | 0 => true
  | 1 => match Sparse.find (s.dev u).colls inst with
    | some c => c.part == p.part
    | none => true
  | 3 => match Sparse.find s.vx.slots inst with
    | some c => c.part == p.part
    | none => true
  | 4 => s.rd u Reg.TRC_STATUS_PHASE == 0 || s.rd u Reg.TRC_STATUS_OWNER == p.part
  | _ => false

/-- Bytes of the reply-data area (R74): 32 KiB on the HTU, 128 KiB on the VTA. -/
def replyArea : UnitId → Nat
  | .htu => 32768
  | .vta => 131072

/-- Words of the request queue (R74). -/
def reqWords : UnitId → Nat
  | .htu => 2048
  | .vta => 8192

/-- Reply-data bytes reserved or not yet read (R72). -/
def Mbx.dataUsed (b : Mbx) : Nat := (b.outst.map (·.need)).sum + (b.replies.map (·.2)).sum

/-- Words of a packet in the request queue (R69). -/
def packetWords (p : Packet) (v1 : Bool) : Nat := if v1 then 4 else 2 + (p.params.length + 7) / 8

/-- Free request words: written words and committed packets not yet taken use the queue (R70, R71). -/
def State.reqFree (s : State) (u : UnitId) (m : Nat) : Nat :=
  let b := s.mb u m
  reqWords u - b.words.length - (b.waiting.map fun w => packetWords w.2 (s.on u (Reg.MBX_STATUS_GEN m))).sum

/-- A v2 packet read from its words, with its opcode (R75); `none` when the word count differs from the stated length
(R69). -/
def parseV2 (ws : List Word) : Option (Nat × Packet) :=
  let b := ofWords ws
  let plen := fieldAt b 4 2
  if ws.length < 2 || ws.length != 2 + (plen + 7) / 8 then none else
  some (fieldAt b 0 1,
    { flags := BitVec.ofNat 8 (fieldAt b 1 1), tag := BitVec.ofNat 16 (fieldAt b 2 2)
      target := BitVec.ofNat 16 (fieldAt b 6 2), partition := BitVec.ofNat 8 (fieldAt b 8 1)
      role := BitVec.ofNat 8 (fieldAt b 9 1), rsvd := BitVec.ofNat 16 (fieldAt b 10 2)
      seq := BitVec.ofNat 32 (fieldAt b 12 4), params := cut b 16 plen })

/-- A v1 packet (Hixel-1 form) with the partition and role of MBX_V1_IDENT (R97, R98): ORD set, no SEQ. A PLEN above 24 gives
more parameters than the packet can hold, which check 3 refuses. -/
def parseV1 (ws : List Word) (part role : Nat) : Option (Nat × Packet) :=
  let b := ofWords ws
  let plen := fieldAt b 6 2
  if ws.length != 4 then none else
  some (fieldAt b 0 1,
    { flags := BitVec.ofNat 8 (1 + 4 * (fieldAt b 1 1 % 2)), tag := BitVec.ofNat 16 (fieldAt b 2 1)
      target := BitVec.ofNat 16 (fieldAt b 4 2), partition := BitVec.ofNat 8 part, role := BitVec.ofNat 8 role
      rsvd := BitVec.ofNat 16 (fieldAt b 1 1 / 2 + 256 * fieldAt b 3 1), seq := 0
      params := if plen ≤ 24 then cut b 8 plen else zeros 4104 })

/-- A packet of a command row on a mailbox with v1 framing as its 32-byte form carries it (R97, R98): partition and role of MBX_V1_IDENT,
NOTIFY as the only flag, ORD implied, an 8-bit tag, no SEQ, and at most 24 parameter bytes; more fail check 3. -/
def asV1 (p : Packet) (part role : Nat) : Packet :=
  { flags := BitVec.ofNat 8 (1 + 4 * (p.flags.getLsbD 2).toNat), tag := BitVec.ofNat 16 (p.tag.toNat % 256), target := p.target
    partition := BitVec.ofNat 8 part, role := BitVec.ofNat 8 role, rsvd := p.rsvd, seq := 0
    params := if p.params.length ≤ 24 then p.params else zeros 4104 }

/-- A packet as the bytes of its v2 form (R75), for forwarding on VC0. -/
def packetBytes (opcode : Nat) (p : Packet) : List Byte :=
  le 1 opcode ++ le 1 p.flags.toNat ++ le 2 p.tag.toNat ++ le 2 p.params.length ++ le 2 p.target.toNat
    ++ le 1 p.partition.toNat ++ le 1 p.role.toNat ++ le 2 p.rsvd.toNat ++ le 4 p.seq.toNat ++ p.params

end Sys2Proof.Machine
end

