-- ==== Sys2Proof/Machine/Schedule.lean ====
section
/-! DEFINITION. The schedule comparators (R163), the spacing of capture instants (R36), the high-water mark and passed-over
instants (R143, R151), and forwarding of commands to peers (R378). -/

namespace Sys2Proof.Machine

/-- Schedule comparator entries of a unit (R163). -/
def schedSize : UnitId → Nat
  | .htu => 64
  | .vta => 256

/-- Whether a schedule entry captures. -/
def SKind.captures : SKind → Bool
  | .snapshot _ _ => true
  | .periodic _ _ => true
  | .digest _ _ _ => true
  | .pulseSnap _ _ => true
  | .sweep _ => true
  | _ => false

/-- The capture instants scheduled on a unit. -/
def Dev.captures (d : Dev) : List Nat := (d.sched.filter (·.kind.captures)).map (·.t)

/-- A capture of the same epoch is scheduled or taken on the unit (R36). -/
def State.epochTaken (s : State) (u : UnitId) (t : Nat) : Bool :=
  ((s.dev u).captures ++ (s.dev u).taken).any fun x => x / 1000 == t / 1000

/-- A capture instant scheduled or taken lies less than 1,000 ns from `t` (R36). -/
def State.tooNear (s : State) (u : UnitId) (t : Nat) : Bool :=
  ((s.dev u).captures ++ (s.dev u).taken).any fun x => x < t + 1000 && t < x + 1000

/-- The same, but for captures of another epoch. -/
def State.nearOther (s : State) (u : UnitId) (t : Nat) : Bool :=
  ((s.dev u).captures ++ (s.dev u).taken).any fun x => x / 1000 != t / 1000 && x < t + 1000 && t < x + 1000

/-- The (arm time, period) pairs of collectors that hold a comparator entry, each once (R183). -/
def State.pairs (s : State) (u : UnitId) : List (Nat × Nat) :=
  ((s.dev u).sched.filterMap fun e => match e.kind with
    | .armTime c => some (e.t, ((Sparse.find (s.dev u).colls c).map (·.period)).getD 0 * 1000)
    | .periodic arm per => some (arm, per)
    | _ => none).eraseDups

/-- No comparator is free (R163). Pulse generators take none, and collectors of one (arm time, period) pair share an entry (R183). -/
def State.schedFull (s : State) (u : UnitId) : Bool :=
  decide ((s.pairs u).length + ((s.dev u).sched.filter fun e => match e.kind with
    | .armTime _ => false
    | .periodic _ _ => false
    | .pulseSnap _ _ => false
    | _ => true).length ≥ schedSize u)

/-- After a step, an instant that is not later than TIM_HIGH_WATER, or whose epoch has been snapshot, is refused (R143). -/
def State.past (s : State) (u : UnitId) (t : Nat) : Bool :=
  (s.dev u).stepped && s.on u Reg.TIM_HIGH_WATER_NS &&
    (t ≤ s.rd u Reg.TIM_HIGH_WATER_NS || (s.dev u).taken.any fun x => x / 1000 == t / 1000)

/-- An entry joins the comparators. -/
def Prog.schedule (u : UnitId) (e : Sched) : Prog := .dev u fun d => { d with sched := d.sched ++ [e] }

/-- An entry leaves the comparators. -/
def Prog.unschedule (u : UnitId) (e : Sched) : Prog := .dev u fun d => { d with sched := d.sched.filter (· != e) }

/-- The unit has acted on instant `t` (R143). -/
def Prog.acted (u : UnitId) (t : Nat) : Prog := .get fun s =>
  .wr u Reg.TIM_HIGH_WATER_NS (max (s.rd u Reg.TIM_HIGH_WATER_NS) t)

/-- A capture instant is taken; instants that no longer bear on R36 are forgotten. -/
def Prog.takeInstant (u : UnitId) (t : Nat) : Prog := .both (.acted u t) <|
  .dev u fun d => { d with taken := (d.taken.filter fun x => t < x + 2000) ++ [t] }

/-- A comparator entry whose instant has come: its time domain runs and its counter has reached the instant (R163). -/
def State.due (s : State) (u : UnitId) (t : Nat) : Bool := !(s.dev u).gated && t ≤ s.ns u

/-- The SNAP capture of a generator's next firing joins the schedule unless a capture of its epoch, or one less than 1,000 ns away,
stands there already (R36, R158). -/
def Prog.armSnap (u : UnitId) (g : Nat) : Prog := .get fun s =>
  .opt (Sparse.find (s.dev u).gens g) fun gen =>
    let t := s.rd u (Reg.TIM_PULSE_NEXT g)
    let ok := (s.rd u (Reg.TIM_PULSE_DEST g)).testBit 3 && !s.epochTaken u t && !s.tooNear u t
    .both (.dev u fun d => { d with gens := Sparse.put d.gens g { gen with snap := ok } })
      (.cond ok (.schedule u { t, kind := .pulseSnap gen.part gen.role, cmd := none }))

/-- The SNAP capture of a generator's next firing leaves the schedule. -/
def Prog.dropSnap (u : UnitId) (g : Nat) : Prog := .get fun s =>
  .opt (Sparse.find (s.dev u).gens g) fun gen => .cond gen.snap <|
    .unschedule u { t := s.rd u (Reg.TIM_PULSE_NEXT g), kind := .pulseSnap gen.part gen.role, cmd := none }

/-- A generator returns to IDLE (R158, R159): COUNT reads 0 and no instant is next. -/
def Prog.idleGen (u : UnitId) (g : Nat) : Prog := .seq [
  .dropSnap u g, .wr u (Reg.TIM_PULSE_COUNT g) 0, .wr u (Reg.TIM_PULSE_STATE g) 0, .wr u (Reg.TIM_PULSE_NEXT g) 0,
  .dev u fun d => { d with gens := Sparse.del d.gens g }]

/-- `n` firings of a generator are over (R158): each uses one of COUNT, and after the last one it is IDLE. -/
def Prog.advanceGen (u : UnitId) (g n : Nat) : Prog := .get fun s =>
  .opt (Sparse.find (s.dev u).gens g) fun gen =>
    let left := s.rd u (Reg.TIM_PULSE_COUNT g)
    if left ≠ 0 ∧ left ≤ n then .idleGen u g else .seq [
      .dropSnap u g,
      .wr u (Reg.TIM_PULSE_COUNT g) (left - n),
      .wr u (Reg.TIM_PULSE_NEXT g) (gen.start + (gen.fired + n) * s.rd u (Reg.TIM_PULSE_PERIOD g)),
      .dev u fun d => { d with gens := Sparse.put d.gens g { gen with fired := gen.fired + n, tag := none, snap := false } },
      .armSnap u g]

/-- The generator's next instant in 2^-16 ns (R158). -/
def State.genInstant (s : State) (u : UnitId) (g : Nat) (gen : Gen) : Nat := s.rd u (Reg.TIM_PULSE_NEXT g) * 65536 + gen.frac

/-- A generator's firings earlier than `hi` (in 2^-16 ns), which did not act: each is skipped, counts in SKIPPED and uses one of COUNT; an
unanswered PULSE_PROGRAM replies DEADLINE_PASSED (R151, R158). -/
def Prog.skipFirings (u : UnitId) (g hi : Nat) : Prog := .get fun s =>
  .opt (Sparse.find (s.dev u).gens g) fun gen =>
    let next := s.genInstant u g gen
    let per := s.rd u (Reg.TIM_PULSE_PERIOD g) * 65536
    let left := s.rd u (Reg.TIM_PULSE_COUNT g)
    .cond (next < hi) <|
      let n := if s.rd u (Reg.TIM_PULSE_MODE g) = 0 ∨ per = 0 then 1 else (hi - 1 - next) / per + 1
      let n := if left = 0 then n else min n left
      .seq [.count u (Reg.TIM_PULSE_SKIPPED g) n, .answer u (gen.tag.map (gen.mbx, ·)) { status := stDeadline }, .advanceGen u g n]

/-- Comparator entries whose instants the counter passed over as it went from `lo` to `hi` (in 2^-16 ns; an instant equal to `hi` is still
to come, log entry 42) wait to be completed with DEADLINE_PASSED; periodic captures are skipped and counted (R143, R151, R183). A collector
that Gorse arms waits on (R122). -/
def Prog.passOver (u : UnitId) (lo hi : Nat) : Prog := .get fun s =>
  let waits (e : Sched) : Bool := match e.kind with
    | .armTime c => ((Sparse.find (s.dev u).colls c).map (·.gorse)).getD false
    | _ => false
  let gone := (s.dev u).sched.filter fun e => lo < e.t * 65536 && e.t * 65536 < hi && !waits e
  .seq [.each gone fun e => match e.kind with
      | .periodic arm per =>
        let n := if per = 0 then 1 else (hi - 1 - e.t * 65536) / (per * 65536) + 1
        let skip (c : Coll) : Coll := if c.arm = arm ∧ c.period * 1000 = per then { c with skipped := c.skipped + n } else c
        .seq [.unschedule u e,
          .dev u fun d => { d with colls := d.colls.map fun x => (x.1, skip x.2) },
          .cond (per != 0) (.schedule u { e with t := e.t + n * per })]
      | _ => .both (.unschedule u e) (.dev u fun d => { d with passed := d.passed ++ [e] }),
    .each (List.range (match u with | .htu => 8 | .vta => 16)) fun g => .skipFirings u g hi]

/-- A command is forwarded to the peer of a connection on VC0 with a tag and sequence number of this unit; its final reply
completes `cmd` (R340, R378). -/
def Prog.forward (u : UnitId) (c : Nat) (opcode : Nat) (p : Packet) (cmd : Option (Nat × BitVec 16)) : Prog := .get fun s =>
  let k := Sparse.get {} (s.dev u).conns c
  let tag := BitVec.ofNat 16 k.tagOut
  let q := { p with tag, seq := BitVec.ofNat 32 k.seqOut, flags := 0 }
  .both (.dev u fun d => { d with conns := Sparse.mod {} d.conns c fun k => { k with
      tagOut := (k.tagOut + 1) % 65536, seqOut := (k.seqOut + 1) % 2 ^ 32
      fwds := k.fwds ++ [{ peer := c, tag, opcode, cmd, packet := q }] } })
    (.sendPkt u c 0 (packetBytes opcode q))

end Sys2Proof.Machine
end

