-- ==== Sys2Proof/Machine/Time.lean ====
section
/-! DEFINITION. Fleet time (R130 to R156, R160 to R163): the counter, the two-way exchange and servo, PTP on the VTA, holdover,
source switching and clock loss. Stamps are in units of 2^-16 ns; an offset is kept as `n`, in units of 2^-16/20 ns. -/

namespace Sys2Proof.Machine

/-- Nominal INC (R131). -/
def incNominal : Nat := 0xCCCCCCCD

/-- num / den, exact or to one of the two nearest integers (the manual states no rounding). -/
def divOpen (num : Int) (den : Nat) : Int :=
  if num % den = 0 then num / den else if Config.timeRound num den then num / den + 1 else num / den

/-- num / den to the nearest integer; the manual states no rule for a tie. -/
def divNearest (num : Int) (den : Nat) : Int :=
  let r := num % den
  if 2 * r < den then num / den
  else if 2 * r > den then num / den + 1
  else if Config.timeRound num den then num / den + 1 else num / den

/-- INC within ±200 ppm of nominal (R131). -/
def clampInc (v : Int) : Nat := (max ((incNominal : Int) - 687194) (min v (incNominal + 687194))).toNat

/-- A correction rate c = num / den limited to ±50 ppm (R140). -/
def limit50 (num : Int) (den : Nat) : Int × Nat :=
  if num * 20000 > den then (1, 20000) else if num * 20000 < -(den : Int) then (-1, 20000) else (num, den)

/-- A servo of a port (uplinks of the VTA under 64 and 65). -/
def State.servo (s : State) (u : UnitId) (k : Nat) : Servo := Sparse.get {} (s.dev u).servos k

/-- A servo changes. -/
def Prog.modServo (u : UnitId) (k : Nat) (f : Servo → Servo) : Prog :=
  .dev u fun d => { d with servos := Sparse.mod {} d.servos k f }

/-- TIM_STATUS.SRC of a time port (R164): HTU ports A and B, VTA uplinks 64 and 65. -/
def srcCode (u : UnitId) (k : Nat) : Nat := match u with | .htu => k + 1 | .vta => k - 64 + 3

/-- The port whose exchanges set the counter: the one SRC names, or the one a switch moved to (R150). -/
def State.timePort (s : State) (u : UnitId) : Option Nat :=
  match (s.dev u).sw with
  | some w => if w.moved then some w.target else (match s.rd u Reg.TIM_STATUS_SRC with
      | 1 => some 0 | 2 => some 1 | 3 => some 64 | 4 => some 65 | _ => none)
  | none => match s.rd u Reg.TIM_STATUS_SRC with
      | 1 => some 0 | 2 => some 1 | 3 => some 64 | 4 => some 65 | _ => none

/-- PLL_RDY of a time port (R149); the VTA's reference-lane PLL serves both uplinks. -/
def pllRdy (u : UnitId) (k : Nat) : Fld :=
  match u, k with
  | .htu, 1 => Reg.TIM_STATUS_PLL_B_RDY
  | _, _ => Reg.TIM_STATUS_PLL_A_RDY

/-- One time-domain tick: the counter adds INC; every 8 ticks the value is published (R131, R161). -/
def Prog.tick (u : UnitId) : Prog := .get fun s => .cond (!(s.dev u).gated && !(s.dev u).inReset) <| .seq [
  .dev u fun d => { d with cnt := d.cnt + BitVec.ofNat 96 (s.rd u Reg.TIM_INC_INC), ticks := d.ticks + 1 },
  .get fun s => .cond ((s.dev u).ticks % 8 = 0) <| .seq [
    .wr u Reg.TIM_NOW_NS (s.ns u),
    .dev u fun d => { d with pubFrac := BitVec.ofNat 16 (s.ns16 u) }]]

/-- TIMEV and LOCK clear. -/
def Prog.timeLost (u : UnitId) : Prog := .seq [.wr u Reg.TIM_STATUS_TIMEV 0, .wr u Reg.TIM_STATUS_LOCK 0]

/-- TIMEV sets; SAFE clears with it (R141, R153). -/
def Prog.timeValid (u : UnitId) : Prog := .get fun s => .seq [
  .cond (!s.timev u) (.dev u fun d => { d with validSince := s.ns u }),
  .wr u Reg.TIM_STATUS_TIMEV 1, .wr u Reg.TIM_STATUS_SAFE 0]

/-- A time stamp with the PHY's resolution of 0.1 ns (R138, R146): the event comes `sub` tenths of a ns, of the 8 that a tick lasts, after
the tick that gave the counter its value. -/
def State.stampAt (s : State) (u : UnitId) (sub : Nat) : Nat := s.ns16 u + sub % 8 * 65536 / 10

/-- The counter steps by −offset (R140); instants that a forward step passes over complete (R143). The first setting of the HTU's time is
not counted (R155). INC keeps its value (DESIGN CHOICE, log entry 123). -/
def Prog.step (u : UnitId) (k : Nat) (n : Int) : Prog := .get fun s =>
  let lo := s.ns16 u
  .seq [.timeLost u,
    .cond (u == .vta || (s.dev u).timeSet) (.bump u Reg.TIM_STATUS_STEPS),
    .dev u fun d => { d with cnt := d.cnt + BitVec.ofInt 96 (divOpen (-n * 16384) 5), stepped := true },
    .modServo u k fun v => { v with good := 0, bad := 0, stepped := true, corr := (0, 1), lastOff := 0 },
    .get fun s => .cond (lo < s.ns16 u) (.passOver u lo (s.ns16 u))]

/-- LOCK and TIMEV after an exchange (R141). -/
def Prog.lockRule (u : UnitId) (k : Nat) : Prog := .get fun s =>
  let v := s.servo u k
  .seq [
    .cond (v.bad ≥ 2) (.wr u Reg.TIM_STATUS_LOCK 0),
    .cond (v.good ≥ 8 && !s.on u Reg.TIM_STATUS_LOCK) <| .both (.wr u Reg.TIM_STATUS_LOCK 1)
      (.cond (v.mTimev && !s.timev u) (.timeValid u))]

/-- The servo after a complete exchange on the active port (R140, R145): `n` the offset, `i` the interval in ns, `base` the
master's INC or INC_B. -/
def Prog.slew (u : UnitId) (k : Nat) (n : Int) (i base : Nat) : Prog :=
  let c := limit50 (-n) (20 * 65536 * i)
  let inc := clampInc (base + divNearest (base * c.1) c.2)
  .both (.wr u Reg.TIM_INC_INC inc) <| .modServo u k fun v => { v with
    good := if n.natAbs ≤ 20 * 65536 then v.good + 1 else 0
    bad := if n.natAbs > 3 * 20 * 65536 then v.bad + 1 else 0
    corr := c, lastOff := n, stepped := false }

/-- A complete exchange on port `k`: offset and delay (R139), then step or slew (R140) when the port is the active one. An HTU does not
step to the time of a master whose last SYNC carried TIMEV = 0 (R156). -/
def Prog.exchange (u : UnitId) (k : Nat) (t3 t4 : Nat) (asym : Int) (i : Nat) : Prog := .get fun s =>
  let v := s.servo u k
  let d1 : Int := (v.t2 : Int) - v.t1
  let d2 : Int := (t4 : Int) - t3
  let n : Int := 10 * (d1 - d2) - 65536 * asym
  let far := n.natAbs > s.rd u Reg.TIM_CTL_STEP_THRESH * 1000 * 20 * 65536
  .seq [
    .modServo u k fun w => { w with t3 := none, sync := false, missed := 0, sinceV := if v.mTimev then 0 else w.sinceV },
    .cond (s.timePort u == some k) <| .seq [
      .wr u Reg.TIM_OFFSET_OFFSET (ofSigned 32 (divOpen n 131072)),
      .wr u Reg.TIM_DELAY_DELAY (ofSigned 32 (divOpen ((d1 + d2) * 5) 65536)),
      .wr u Reg.TIM_STATUS_HOLD 0,
      .wr u Reg.TIM_STATUS_SRC (srcCode u k),
      .dev u fun d => { d with sw := none },
      if far then .cond (u == .vta || v.mTimev) (.both (.step u k n) (.dev u fun d => { d with timeSet := true }))
      else .both (.dev u fun d => { d with timeSet := true }) (match u with
        | .htu => .slew u k n i v.mInc
        | .vta =>
          -- INC_B moves by the frequency error e unless the exchange follows a step (R145)
          let base := if v.stepped then s.vx.incB else
            let den := 20 * 65536 * i * v.corr.2
            let e := (n - v.lastOff) * v.corr.2 - v.corr.1 * (20 * 65536 * i : Nat)
            clampInc (s.vx.incB - divNearest (s.vx.incB * e) den)
          .both (.vta fun x => { x with incB := base }) (.slew u k n i base)),
      .lockRule u k]]

/-- The exchange interval in force in ns (R141): 1 µs without LOCK, 2^EXCH_LOG2 µs as the master sets it. The master of the HTU's port B
is its partner, whose EXCH_LOG2 the block does not see: a free value (log entry 135). -/
def State.exchInterval (s : State) (u : UnitId) (k : Nat) : Nat :=
  if s.on u Reg.TIM_STATUS_LOCK then
    1000 * 2 ^ (match u, k with
      | .htu, 0 => s.rd .vta Reg.TIM_CTL_EXCH_LOG2
      | .htu, _ => Config.freeNat s.free % 9
      | .vta, _ => s.rd .vta Reg.TIM_CTL_EXCH_LOG2)
  else 1000

/-- ASYM = MEAS + CAL of an HTU port in 0.1 ns (R139). -/
def State.asym (s : State) (k : Nat) : Int :=
  match k with
  | 0 => toSigned 16 (s.rd .htu Reg.TIM_ASYM_A_MEAS) + toSigned 16 (s.rd .htu Reg.TIM_ASYM_A_CAL)
  | _ => toSigned 16 (s.rd .htu Reg.TIM_ASYM_B_MEAS) + toSigned 16 (s.rd .htu Reg.TIM_ASYM_B_CAL)

/-- A port changes. -/
def Prog.modPort (u : UnitId) (k : Nat) (f : Port → Port) : Prog :=
  .dev u fun d => { d with ports := Sparse.mod {} d.ports k f }

/-- A CONTROL message of 8 bytes waits on a port, with the die ID and FWD of its flit (R380). -/
def Prog.control (u : UnitId) (k : Nat) (body : List Byte) (die : Nat) (fwd : Bool) : Prog :=
  .modPort u k fun p => { p with ctl := p.ctl ++ [body ++ le 4 die ++ le 1 fwd.toNat] }

/-- A port. -/
def State.port (s : State) (u : UnitId) (k : Nat) : Port := Sparse.get {} (s.dev u).ports k

/-- The flags of a time message that the unit sends (R137). -/
def State.timeFlags (s : State) (u : UnitId) : Nat :=
  s.rd u Reg.TIM_STATUS_TIMEV + 2 * s.rd u Reg.TIM_STATUS_LOCK
    + (if s.on u Reg.TIM_STATUS_HOLD || s.on u Reg.TIM_STATUS_UP_HOLD then 4 else 0)

/-- A time message as 32 bytes (R137). -/
def timeBytes (msg flags seq ts inc : Nat) : List Byte :=
  le 1 msg ++ le 1 flags ++ le 2 seq ++ zeros 4 ++ le 8 (ts / 65536) ++ le 2 (ts % 65536) ++ zeros 6 ++ le 5 inc ++ zeros 3

/-- A time message waits on VC3 of a port. -/
def Prog.sendTime (u : UnitId) (k : Nat) (bytes : List Byte) : Prog :=
  .modPort u k fun p => { p with time := p.time ++ [bytes] }

/-- The unit is slave on a port: the HTU on both (R136). -/
def isSlave : UnitId → Bool
  | .htu => true
  | .vta => false

/-- The unit is master on a port: the VTA on all, the HTU on port B (R136). -/
def isMaster (u : UnitId) (k : Nat) : Bool := u == .vta || k == 1

/-- A SYNC received (R138, R142): one with TIMEV = 0 clears TIMEV and LOCK, and the exchanges before it count no more towards LOCK. -/
def Prog.syncRx (u : UnitId) (k : Nat) (m : TimeMsg) (t2 : Nat) : Prog := .get fun s =>
  .cond (isSlave u) <| .seq [
    .modServo u k fun v => { v with t1 := m.ts, t2 := t2, sync := true, mTimev := m.timev, mInc := m.inc },
    .cond (s.timePort u == some k) <| .seq [
      .cond (!m.timev) (.both (.timeLost u) (.modServo u k fun v => { v with good := 0, bad := 0 })),
      .wr u Reg.TIM_STATUS_UP_HOLD m.hold.toNat]]

/-- A DLY_REQ received by the master is answered with its arrival time t4 (R137, R138). -/
def Prog.dlyReqRx (u : UnitId) (k : Nat) (m : TimeMsg) (t4 : Nat) : Prog := .get fun s =>
  .cond (isMaster u k) (.sendTime u k (timeBytes 3 (s.timeFlags u) m.seq t4 0))

/-- A DLY_RESP received: one whose SEQ does not match the outstanding DLY_REQ is discarded (R138). The exchange is complete when a SYNC
has come for it too (R139). -/
def Prog.dlyRespRx (u : UnitId) (k : Nat) (m : TimeMsg) : Prog := .get fun s =>
  .cond (isSlave u) <| match (s.servo u k).t3 with
    | some (seq, t3) => .cond (seq == m.seq && (s.servo u k).sync)
        (.exchange u k t3 m.ts (s.asym k) (s.exchInterval u k))
    | none => .skip

/-- An exchange interval passes: SYNC as master, DLY_REQ as slave (R136, R141). The stamps are written at departure. -/
def Prog.exchangeTick (u : UnitId) (k : Nat) : Prog := .get fun s =>
  .cond (s.rd u (Reg.FUR_PORT_STATE k) == 3) <| .seq [
    .cond (isMaster u k) (.sendTime u k (timeBytes 1 (s.timeFlags u) (s.servo u k).seqOut 0 (s.rd u Reg.TIM_INC_INC))),
    .cond (isSlave u) (.sendTime u k (timeBytes 2 (s.timeFlags u) (s.servo u k).seqOut 0 0)),
    .modServo u k fun v => { v with seqOut := (v.seqOut + 1) % 65536, missed := v.missed + 1, sinceV := v.sinceV + 1 }]

/-- Holdover begins: four intervals without an exchange, or both uplinks without Announce, and the clock persists (R148). -/
def Prog.holdover (u : UnitId) : Prog := .get fun s =>
  let lost := match s.timePort u with
    | some k => (s.servo u k).missed ≥ 4
    | none => false
  let quiet := u == .vta && (s.servo .vta 64).annMiss ≥ 3 && (s.servo .vta 65).annMiss ≥ 3
  .cond ((lost || quiet) && !(s.dev u).gated && s.rd u Reg.TIM_STATUS_SRC != 5 && !s.on u Reg.TIM_STATUS_HOLD) <| .seq [
    .wr u Reg.TIM_STATUS_HOLD 1, .wr u Reg.TIM_STATUS_LOCK 0,
    .cond (!s.on u Reg.TIM_CTL_HOLD_MAX) (.wr u Reg.TIM_STATUS_TIMEV 0)]

/-- Holdover has lasted HOLD_MAX (R148). -/
def Prog.holdMax (u : UnitId) : Prog := .get fun s =>
  .cond (s.on u Reg.TIM_STATUS_HOLD) (.wr u Reg.TIM_STATUS_TIMEV 0)

/-- The Sync interval of the VTA in ns: 2^LOG_SYNC s (R144). -/
def State.syncInterval (s : State) : Nat := 1000000000 / 2 ^ ((16 - s.rd .vta Reg.TIM_PTP_CFG_LOG_SYNC) % 16)

/-- PORT0 or PORT1 of TIM_PTP_STATUS. -/
def ptpPort (k : Nat) : Fld := match k with | 0 => Reg.TIM_PTP_STATUS_PORT0 | _ => Reg.TIM_PTP_STATUS_PORT1

/-- The entry of TIM_PTP_GM that holds a clockIdentity (R145); entry value 0 is unused. -/
def State.gmIndex (s : State) (gm : Word) : Option Nat :=
  (List.range 4).find? fun i => gm != 0 && s.rd .vta (Reg.TIM_PTP_GM_CLOCK_ID i) == gm.toNat

/-- A PTP message on the transport chosen by policy is taken; a Pdelay, Signaling or Management message and one of another domain are
discarded and counted (R144). One on the other transport is not received at all (log entry 133). -/
def Prog.ptpTaken (m : PtpMsg) (p : Prog) : Prog := .get fun s =>
  .cond (m.udp == s.on .vta Reg.TIM_PTP_CFG_TRANSPORT) <|
    if m.other ∨ m.domain ≠ s.rd .vta Reg.TIM_PTP_CFG_DOMAIN then .bump .vta Reg.TIM_PTP_STATUS_DISCARDS else p

/-- t1 and t2 of an uplink's exchange are known (R145). -/
def Prog.ptpTimes (k t1 t2 : Nat) : Prog := .get fun s => .both
  (.modServo .vta (64 + k) fun v => { v with t1 := t1, t2 := t2, sync := true, wait := none })
  (.cond (s.timePort .vta == none && s.rd .vta Reg.TIM_STATUS_SRC != 5) (.wr .vta Reg.TIM_STATUS_SRC (3 + k)))

/-- A Sync or its Follow_Up from the chosen grandmaster on the SLAVE uplink gives t1 and t2 (R145): t1 with the correctionFields added, t2
stamped at the PCS and referred to the MDI (R144, R146). -/
def Prog.ptpSyncRx (k : Nat) (m : PtpMsg) (gm : Word) (x : PtpTime) (sub : Nat) : Prog := .ptpTaken m <| .get fun s =>
  let t2 := s.stampAt .vta sub - Config.mdiLatency k
  .cond (s.rd .vta (ptpPort k) == 5 && s.gmIndex gm == some (s.rd .vta Reg.TIM_PTP_STATUS_GM_INDEX)) <| match x.form with
    | .oneStep => .ptpTimes k (x.ts + m.corr).toNat t2
    | .twoStep => .modServo .vta (64 + k) fun v => { v with wait := some (x.seq, t2, m.corr) }
    | .followUp => .opt (s.servo .vta (64 + k)).wait fun w => .cond (w.1 == x.seq) (.ptpTimes k (x.ts + m.corr + w.2.2).toNat w.2.1)

/-- The SLAVE uplink sends a Delay_Req stamped at departure (R144, R146). -/
def Prog.delayReqTx (sub : Nat) : Prog := .get fun s =>
  .opt ((List.range 2).find? fun k => s.rd .vta (ptpPort k) == 5) fun k => .seq [
    .modServo .vta (64 + k) fun v => { v with
      t3 := some (s.vx.ptpSeq, s.stampAt .vta sub + Config.mdiLatency k), missed := v.missed + 1 },
    .send .vta (.delayReq k s.vx.ptpSeq),
    .vta fun x => { x with ptpSeq := (x.ptpSeq + 1) % 65536 }]

/-- A Delay_Resp completes an exchange for which a Sync has come (R145); its correctionField is taken from t4 (R144). -/
def Prog.delayRespRx (k : Nat) (m : PtpMsg) (seq ts : Nat) : Prog := .ptpTaken m <| .get fun s =>
  .cond (s.rd .vta (ptpPort k) == 5) <| match (s.servo .vta (64 + k)).t3 with
    | some (q, t3) => .cond (q == seq && (s.servo .vta (64 + k)).sync)
        (.exchange .vta (64 + k) t3 (ts - m.corr).toNat 0 s.syncInterval)
    | none => .skip

/-- An Announce: from a clockIdentity not listed it is discarded; the highest-priority listed grandmaster is taken, and
the uplinks take the roles of external port configuration (R144, R145, R156). The chosen grandmaster counts as no longer received once
another listed one has been heard three times since (DESIGN CHOICE, log entry 132). -/
def Prog.announceRx (k : Nat) (m : PtpMsg) (gm : Word) : Prog := .ptpTaken m <| .get fun s =>
  match s.gmIndex gm with
  | none => .bump .vta Reg.TIM_PTP_STATUS_DISCARDS
  | some i =>
    let had := (s.servo .vta 64).mTimev || (s.servo .vta 65).mTimev
    let cur := s.rd .vta Reg.TIM_PTP_STATUS_GM_INDEX
    let heard := Sparse.get 0 s.vx.gmHeard i + 1
    let take := decide (!had ∨ i ≤ cur ∨ heard ≥ 3)
    let other := 1 - k
    let role := if s.rd .vta (ptpPort other) = 5 then 3
      else if k = s.rd .vta Reg.TIM_PTP_CFG_PRIMARY ∨ (s.servo .vta (64 + other)).annMiss ≥ 3 then 5 else 3
    .seq [
      .cond take (.wr .vta Reg.TIM_PTP_STATUS_GM_INDEX i),
      .vta fun x => { x with gmHeard := if take then [] else Sparse.put x.gmHeard i heard },
      .modServo .vta (64 + k) fun v => { v with annMiss := 0, mTimev := true },
      .cond (s.rd .vta (ptpPort k) != 5) (.wr .vta (ptpPort k) role)]

/-- Three Announce intervals missed: the PASSIVE uplink becomes SLAVE (R145). -/
def Prog.announceLost (k : Nat) : Prog := .get fun s =>
  let other := 1 - k
  .seq [
    .modServo .vta (64 + k) fun v => { v with annMiss := 3, mTimev := false },
    .cond (s.rd .vta (ptpPort k) == 5 && s.rd .vta (ptpPort other) == 3) <| .seq [
      .wr .vta (ptpPort other) 5,
      .cond (s.rd .vta Reg.TIM_STATUS_SRC != 5) (.dev .vta fun d => { d with sw := some { target := 64 + other, moved := true } })],
    .wr .vta (ptpPort k) 2]

/-- The checks of R149 for the HTU: the other port's PLL is ready and it has had an exchange with master TIMEV = 1 in its last
four intervals. On the VTA the other uplink must have an accepted Announce. -/
def State.switchReady (s : State) (u : UnitId) (k : Nat) : Bool :=
  let v := s.servo u k
  s.on u (pllRdy u k) && match u with
    | .htu => v.sinceV < 4
    | .vta => v.mTimev

/-- A planned switch to a port is requested (R150). On the VTA the uplink becomes SLAVE with no clock mux to move (R146). -/
def Prog.planSwitch (u : UnitId) (k : Nat) : Prog := .get fun s =>
  .cond (s.switchReady u k && s.timePort u != some k) <| match u with
    | .htu => .dev .htu fun d => { d with sw := some { target := k, since := d.ticks } }
    | .vta => .seq [.wr .vta (ptpPort (k - 64)) 5, .wr .vta (ptpPort (65 - k)) 3,
        .dev .vta fun d => { d with sw := some { target := k, moved := true } }]

/-- The other time port. -/
def State.otherPort (s : State) (u : UnitId) : Nat :=
  match u, s.timePort u with
  | .htu, some 0 => 1
  | .htu, _ => 0
  | .vta, some 64 => 65
  | .vta, _ => 64

/-- The VTA enters FREE mode and keeps its value (R147). -/
def Prog.enterFree : Prog := .get fun s => .cond (s.on .vta Reg.TIM_STATUS_PLL_A_RDY) <| .seq [
  .wr .vta Reg.TIM_STATUS_LOCK 1, .wr .vta Reg.TIM_STATUS_HOLD 0, .wr .vta Reg.TIM_STATUS_SRC 5,
  .dev .vta fun d => { d with sw := none }, .timeValid .vta]

/-- SRC_PREF takes a value (R147, R150): a switch, or entry to or exit from FREE, which leaves for the uplink named, or with 0b00 for the
SLAVE one. 0b11 is reserved on the HTU. -/
def Prog.setSrcPref (u : UnitId) (v : Nat) : Prog := .get fun s =>
  let free := u == .vta && s.rd u Reg.TIM_STATUS_SRC == 5
  let base := match u with | .htu => 0 | .vta => 64
  .seq [
    .wr u Reg.TIM_CTL_SRC_PREF v,
    if u = .vta ∧ v = 3 then .enterFree
    else if free then
      let k := if v = 0 then (if s.rd .vta (ptpPort 1) = 5 then 1 else 0) else v - 1
      .seq [
        .cond (v != 0) (.both (.wr .vta (ptpPort k) 5) (.cond (s.rd .vta (ptpPort (1 - k)) == 5) (.wr .vta (ptpPort (1 - k)) 3))),
        .dev .vta fun d => { d with sw := some { target := 64 + k, moved := true } }]
    else if v = 1 then .planSwitch u base else if v = 2 then .planSwitch u (base + 1) else .skip]

/-- A scheduled instant of the HTU falls in the following 2 µs (R151). -/
def State.instantNear (s : State) : Bool :=
  let gens := (s.h.gens.map fun g => s.rd .htu (Reg.TIM_PULSE_NEXT g.1))
  (s.h.sched.map (·.t) ++ gens).any fun t => s.ns .htu ≤ t && t ≤ s.ns .htu + 2000

/-- The gate of a planned HTU switch: it waits while a scheduled instant falls in the following 2 µs, for up to 100 µs, which are 125,000
ticks; the 64 lost cycles are added, instants in the gap are passed over, and the mux has moved; SRC changes at the next exchange (R149 to
R151). -/
def Prog.gateSwitch : Prog := .get fun s => match s.h.sw with
  | some w => .cond (!w.moved && !s.h.gated && s.switchReady .htu w.target
      && (!s.instantNear || w.since + 125000 ≤ s.h.ticks)) <|
    let lo := s.ns16 .htu
    .seq [.dev .htu fun d => { d with
        cnt := d.cnt + BitVec.ofNat 96 (64 * s.rd .htu Reg.TIM_INC_INC), ticks := d.ticks + 64
        sw := some { w with moved := true } },
      .get fun s => .passOver .htu lo (s.ns16 .htu)]
  | none => .skip

/-- The HTU on port B with SRC_PREF automatic switches back when port A is usable (R150). -/
def Prog.backToA : Prog := .get fun s =>
  .cond (s.timePort .htu == some 1 && s.rd .htu Reg.TIM_CTL_SRC_PREF == 0 && s.rd .htu (Reg.FUR_PORT_STATE 0) == 3)
    (.planSwitch .htu 0)

/-- Loss of the time-domain source (R153). -/
def Prog.sourceLoss (u : UnitId) : Prog := .seq [
  .timeLost u, .wr u Reg.TIM_STATUS_SAFE 1, .bump u Reg.TIM_STATUS_LOSSES,
  .dev u fun d => { d with gated := true, sw := none }]

/-- The active port's forwarded clock stops, or the VTA's reference lane (R152, R153). -/
def Prog.timeSourceLost (u : UnitId) : Prog := .get fun s =>
  .cond (!(s.dev u).gated && (s.timePort u).isSome || (u == .vta && !(s.dev u).gated)) <| .both
    (.opt (s.timePort u) fun k => .cond (u == .htu) (.wr u (pllRdy u k) 0)) (.sourceLoss u)

/-- A time-domain clock returns: the counter runs on from the held value and resynchronises by the servo (R152, R153). -/
def Prog.sourceReturn (u : UnitId) : Prog := .get fun s =>
  let k := match u with
    | .htu => (s.timePort u).bind fun k =>
        if s.on u (pllRdy u (1 - k)) then some (1 - k) else if s.on u (pllRdy u k) then some k else none
    | .vta => if s.on u Reg.TIM_STATUS_PLL_A_RDY then some ((s.timePort u).getD 64) else none
  .cond ((s.dev u).gated && s.on u Reg.TIM_STATUS_SAFE) <| .opt k fun k => .seq [
    .dev u fun d => { d with gated := false },
    .cond (u == .htu) (.wr u Reg.TIM_STATUS_SRC (srcCode u k)),
    .modServo u k fun v => { v with good := 0, bad := 0, stepped := true },
    .cond (u == .vta && s.rd u Reg.TIM_STATUS_SRC == 5) .enterFree]

/-- A time PLL loses lock without loss of its input (R153). -/
def Prog.pllLost (u : UnitId) (k : Nat) : Prog := .get fun s => .both (.wr u (pllRdy u k) 0) <|
  .cond ((s.timePort u == some k || u == .vta) && !(s.dev u).gated) (.sourceLoss u)

/-- The mux selects port `k` at the first setting of time: the counter runs from 0 (R155). -/
def Prog.firstPort (k : Nat) : Prog := .seq [
  .wr .htu Reg.TIM_STATUS_SRC (srcCode .htu k), .dev .htu fun d => { d with gated := false, anyPort := false }]

/-- A time PLL gains lock (R149, R155, R156). -/
def Prog.pllGained (u : UnitId) (k : Nat) : Prog := .both (.wr u (pllRdy u k) 1) <| .get fun s => match u with
  | .htu => .cond (!s.on .htu Reg.TIM_STATUS_SRC && s.h.gated && (k == 0 || s.h.anyPort)) (.firstPort k)
  | .vta => .cond (s.v.gated && !s.on .vta Reg.TIM_STATUS_SAFE) <| .both
      (.dev .vta fun d => { d with gated := false }) (.cond (s.rd .vta Reg.TIM_CTL_SRC_PREF == 3) .enterFree)

/-- 20 ms after step 5 port A is not up: port B if it is up, else the first port that comes up (R155). -/
def Prog.portWait : Prog := .get fun s =>
  .cond (s.live && !s.on .htu Reg.TIM_STATUS_SRC && s.rd .htu (Reg.FUR_PORT_STATE 0) != 3) <|
    if s.rd .htu (Reg.FUR_PORT_STATE 1) = 3 ∧ s.on .htu Reg.TIM_STATUS_PLL_B_RDY then .firstPort 1
    else .dev .htu fun d => { d with anyPort := true }

/-- TIM_NOW is read: the published time is returned and its fraction latched for the agent (R11, R162). -/
def Prog.readNow (u : UnitId) (a : Agent) (wide : Bool) : Prog := .get fun s =>
  let now := BitVec.ofNat 64 (s.rd u Reg.TIM_NOW_NS)
  .dev u fun d => { d with
    bus := if wide then now else now &&& 0xFFFFFFFF
    fracs := (d.fracs.filter (·.1 != a)) ++ [(a, d.pubFrac)]
    hiLatch := if wide then d.hiLatch
      else (d.hiLatch.filter fun e => !(e.1 == a && e.2.1 == 0x2008)) ++ [(a, 0x2008, (now >>> 32).setWidth 32)] }

/-- TIME_STATUS (R160): reports without clearing the RC fields. -/
def opTimeStatus : Op where
  code := 0x20
  v1 := true
  plen := (· == 0)
  perms := permAll
  async := false
  data := fun _ => 32
  run := fun u m p => .get fun s =>
    .reply u m p.tag { status := stOk
                       data := le 4 ((s.word u 0x2000).toNat / 2 ^ 32) ++ zeros 4 ++ le 8 (s.rd u Reg.TIM_NOW_NS)
                         ++ le 2 (s.dev u).pubFrac.toNat ++ zeros 2 ++ le 4 (s.rd u Reg.TIM_OFFSET_OFFSET)
                         ++ le 4 (s.rd u Reg.TIM_DELAY_DELAY) ++ le 4 (s.rd u Reg.TIM_INC_INC) }

end Sys2Proof.Machine
end

