-- ==== Sys2Proof/Machine/Merge.lean ====
section
/-! DEFINITION. The merge operators (R191 to R198), lane payloads, and SHEAF_RESULT payloads (R202). -/

namespace Sys2Proof.Machine

/-- CRC-32 of IEEE 802.3: reflected polynomial 0xEDB88320, initial value and final complement of all ones. -/
def crc32Step (c : BitVec 32) (b : Byte) : BitVec 32 :=
  (List.range 8).foldl (fun c _ => if c.getLsbD 0 then (c >>> 1) ^^^ 0xEDB88320#32 else c >>> 1) (c ^^^ b.setWidth 32)

/-- CRC-32 over a byte string. -/
def crc32 (bs : List Byte) : Nat := (~~~ (bs.foldl crc32Step (BitVec.allOnes 32))).toNat

-- operator codes of R191
def opNone : Nat := 0x00
def opMinMax : Nat := 0x0F

/-- Buckets of LOGSKETCH512: the smallest k with a × 2^16 ≤ round(2^16 × 1.04^k), searched from `k` (R196). -/
def sketchSearch (a : Nat) : Nat → Nat → Nat → Nat → Nat
  | 0, k, _, _ => k
  | fuel + 1, k, n, d => if a * 65536 ≤ (2 * 65536 * n + d) / (2 * d) then k else sketchSearch a fuel (k + 1) (n * 26) (d * 25)

/-- The position k of |v| (R196); 1.04 = 26/25. -/
def sketchPos (a : Nat) : Nat := sketchSearch a 1132 0 1 1

/-- A list with entry `i` raised by one. -/
def bumpAt (l : List Nat) (i : Nat) : List Nat := l.mapIdx fun j c => if j = i then c + 1 else c

/-- Entry-wise sum saturating at `m`. -/
def addSat (m : Nat) (a b : List Nat) : List Nat := List.zipWith (fun x y => min m (x + y)) a b

/-- Fine buckets 2j and 2j + 1 summed, saturating (R197). -/
def coarsen : List Nat → List Nat
  | a :: b :: t => min (2 ^ 24 - 1) (a + b) :: coarsen t
  | _ => []

/-- A sketch in coarse form (R197). -/
def LaneVal.coarse : LaneVal → LaneVal
  | .sketch z b a o false n p => .sketch z b a o true (coarsen n) (coarsen p)
  | v => v

/-- Order of TOP8: higher value first, ties by lower SRC (R198). -/
def topLe (a b : Int × Nat) : Bool := decide (a.1 > b.1) || (a.1 == b.1 && decide (a.2 ≤ b.2))

/-- An entry inserted in the order of TOP8. -/
def topInsert (e : Int × Nat) : List (Int × Nat) → List (Int × Nat)
  | [] => [e]
  | x :: t => if topLe e x then e :: x :: t else x :: topInsert e t

/-- The first 8 of the union (R198). -/
def topMerge (a b : List (Int × Nat)) : List (Int × Nat) := (a.foldl (fun l e => topInsert e l) b).take 8

/-- The identity partial of an operator (R191); `offset` is the sheaf's OFFSET (R196). -/
def laneIdentity (op offset : Nat) : LaneVal :=
  match op with
  | 0x03 => .num (2 ^ 64 - 1)
  | 0x04 => .num (2 ^ 63 - 1)
  | 0x05 => .num 0
  | 0x06 => .num (-(2 ^ 63))
  | 0x07 => .arg (2 ^ 63 - 1) 0xFFFFFFFF 0
  | 0x08 => .arg (-(2 ^ 63)) 0xFFFFFFFF 0
  | 0x0A => .num (2 ^ 64 - 1)
  | 0x0C => .hist (List.replicate 64 0)
  | 0x0D => .sketch 0 0 0 offset false (List.replicate 256 0) (List.replicate 256 0)
  | 0x0E => .top []
  | 0x0F => .mm (2 ^ 128 - 1) 0
  | _ => .num 0

/-- The partial of one contribution: a 64-bit value with its source (R191 to R196). -/
def laneOne (op shift p0 : Nat) (v : Nat) (src : Nat) : LaneVal :=
  let sv := toSigned 64 v
  match op with
  | 0x02 => .num sv
  | 0x04 => .num sv
  | 0x06 => .num sv
  | 0x07 => .arg sv src 1
  | 0x08 => .arg sv src 1
  | 0x09 => .num (if v % 2 ^ 64 = 0 then 0 else 1)
  | 0x0C =>
    let b := (sv - toSigned 64 p0) / ((2 ^ shift : Nat) : Int)
    .hist (bumpAt (List.replicate 64 0) (min 63 b.toNat))
  | 0x0D =>
    let off := p0 % 65536
    let z := List.replicate 256 0
    if sv = 0 then .sketch 1 0 0 off false z z else
    let k := sketchPos sv.natAbs
    if k < off then .sketch 0 1 0 off false z z
    else if k - off > 255 then .sketch 0 0 1 off false z z
    else if sv < 0 then .sketch 0 0 0 off false (bumpAt z (k - off)) z
    else .sketch 0 0 0 off false z (bumpAt z (k - off))
  | 0x0E => .top [(sv, src)]
  | 0x0F => .mm v v
  | _ => .num (v % 2 ^ 64 : Nat)

/-- The merge of two partials of one operator (R191, R192, R195 to R198). -/
def laneMerge (op : Nat) (a b : LaneVal) : LaneVal :=
  match a, b with
  | .num x, .num y => .num (match op with
      | 0x03 => min x y
      | 0x04 => min x y
      | 0x05 => max x y
      | 0x06 => max x y
      | 0x0A => ((x.toNat &&& y.toNat : Nat) : Int)
      | 0x0B => ((x.toNat ||| y.toNat : Nat) : Int)
      | _ => x + y)
  | .arg x s n, .arg y t m =>
    let first := match op with
      | 0x07 => decide (x < y ∨ (x = y ∧ s ≤ t))
      | _ => decide (y < x ∨ (x = y ∧ s ≤ t))
    if first then .arg x s (n + m) else .arg y t (n + m)
  | .hist x, .hist y => .hist (addSat (2 ^ 32 - 1) x y)
  | .sketch z1 b1 a1 o c1 n1 p1, .sketch z2 b2 a2 _ c2 n2 p2 =>
    let m := 2 ^ 32 - 1
    let k := 2 ^ 24 - 1
    if c1 || c2 then
      let f (c : Bool) (l : List Nat) : List Nat := if c then l else coarsen l
      .sketch (min m (z1 + z2)) (min m (b1 + b2)) (min m (a1 + a2)) o true
        (addSat k (f c1 n1) (f c2 n2)) (addSat k (f c1 p1) (f c2 p2))
    else .sketch (min m (z1 + z2)) (min m (b1 + b2)) (min m (a1 + a2)) o false (addSat k n1 n2) (addSat k p1 p2)
  | .top x, .top y => .top (topMerge x y)
  | .mm l1 h1, .mm l2 h2 => .mm (min l1 l2) (max h1 h2)
  | a, _ => a

/-- All contributions of a lane merged, from the identity. -/
def laneMergeAll (op offset : Nat) (l : List LaneVal) : LaneVal := l.foldl (laneMerge op) (laneIdentity op offset)

/-- Lane payload (R191, R196 to R198). -/
def LaneVal.bytes (op : Nat) : LaneVal → List Byte
  | .num v => if op = 0x01 ∨ op = 0x02 then le 16 (ofSigned 128 v) else le 8 (ofSigned 64 v)
  | .arg v s n => le 8 (ofSigned 64 v) ++ le 4 s ++ le 4 n
  | .hist c => c.flatMap (le 4)
  | .sketch z b a o c n p =>
    le 4 z ++ le 4 b ++ le 4 a ++ le 2 o ++ le 1 c.toNat ++ zeros 1 ++ n.flatMap (le 3) ++ p.flatMap (le 3)
  | .top es => le 1 es.length ++ zeros 7 ++ (es.flatMap fun e => le 8 (ofSigned 64 e.1) ++ le 4 e.2 ++ zeros 4)
      ++ zeros (16 * (8 - es.length))
  | .mm l h => le 16 l ++ le 16 h

/-- Length of a lane payload that starts these bytes. -/
def laneLen (op : Nat) (b : List Byte) : Nat :=
  match op with
  | 0x01 => 16
  | 0x02 => 16
  | 0x07 => 16
  | 0x08 => 16
  | 0x0C => 256
  | 0x0D => if fieldAt b 14 1 = 1 then 784 else 1552
  | 0x0E => 136
  | 0x0F => 32
  | _ => 8

/-- Largest lane payload of an operator in bytes. -/
def laneMax (op : Nat) : Nat := laneLen op []

/-- A lane payload read back. -/
def laneOfBytes (op : Nat) (b : List Byte) : LaneVal :=
  let nums (a w n : Nat) : List Nat := (List.range n).map fun i => fieldAt b (a + w * i) w
  match op with
  | 0x01 => .num (toSigned 128 (fieldAt b 0 16))
  | 0x02 => .num (toSigned 128 (fieldAt b 0 16))
  | 0x04 => .num (toSigned 64 (fieldAt b 0 8))
  | 0x06 => .num (toSigned 64 (fieldAt b 0 8))
  | 0x07 => .arg (toSigned 64 (fieldAt b 0 8)) (fieldAt b 8 4) (fieldAt b 12 4)
  | 0x08 => .arg (toSigned 64 (fieldAt b 0 8)) (fieldAt b 8 4) (fieldAt b 12 4)
  | 0x0C => .hist (nums 0 4 64)
  | 0x0D =>
    if fieldAt b 14 1 = 1 then
      .sketch (fieldAt b 0 4) (fieldAt b 4 4) (fieldAt b 8 4) (fieldAt b 12 2) true (nums 16 3 128) (nums 400 3 128)
    else .sketch (fieldAt b 0 4) (fieldAt b 4 4) (fieldAt b 8 4) (fieldAt b 12 2) false (nums 16 3 256) (nums 784 3 256)
  | 0x0E => .top ((List.range (min 8 (fieldAt b 0 1))).map fun i =>
      (toSigned 64 (fieldAt b (8 + 16 * i) 8), fieldAt b (16 + 16 * i) 4))
  | 0x0F => .mm (fieldAt b 0 16) (fieldAt b 16 16)
  | _ => .num (fieldAt b 0 8 : Nat)

/-- `n` lanes read in entry order. -/
def lanesOfBytes (op : Nat) : Nat → List Byte → List LaneVal
  | 0, _ => []
  | n + 1, b => laneOfBytes op b :: lanesOfBytes op n (b.drop (laneLen op b))

-- FLAGS bits of R202
def flagPartial : Nat := 1
def flagSat : Nat := 2
def flagCoarse : Nat := 4
def flagLate : Nat := 8
def flagMismatch : Nat := 16
def flagMedia : Nat := 32

/-- SHEAF_RESULT payload (R202); a result with MEDIA carries no lane payload (R203). -/
def Part.payload (p : Part) (k : SheafKey) (lanes : Nat) : List Byte :=
  le 2 k.id ++ le 1 p.op ++ le 1 p.level ++ le 2 lanes ++ le 1 p.ladder ++ le 1 p.flags ++ le 4 p.epoch.toNat
    ++ le 2 p.members ++ le 2 p.contrib ++ le 4 p.dies ++ le 4 p.clusters ++ le 4 k.digest ++ zeros 4
    ++ p.lanes.flatMap (LaneVal.bytes p.op)

/-- A partial read from a SHEAF_RESULT payload, with its sheaf. -/
def Part.ofPayload (part : Nat) (b : List Byte) : SheafKey × Part :=
  let op := fieldAt b 2 1
  let flags := fieldAt b 7 1
  ({ id := fieldAt b 0 2, part, digest := fieldAt b 24 4 },
   { op, level := fieldAt b 3 1, flags, ladder := fieldAt b 6 1, epoch := BitVec.ofNat 32 (fieldAt b 8 4)
     members := fieldAt b 12 2, contrib := fieldAt b 14 2, dies := fieldAt b 16 4, clusters := fieldAt b 20 4
     lanes := if b.length ≤ 32 then [] else lanesOfBytes op (fieldAt b 4 2) (b.drop 32) })

/-- A partial that lost its lanes to a memory error (R203): merge points above treat it as a missing input. -/
def Part.lost (p : Part) : Bool := p.flags.testBit 5 && p.lanes == []

/-- DIGEST: the CRC-32 over the operator, the lane count, SHIFT and P0 (R199). -/
def sheafDigest (op lanes shift p0 : Nat) : Nat := crc32 (le 1 op ++ le 1 lanes ++ le 1 shift ++ le 8 p0)

end Sys2Proof.Machine
end

