-- ==== Sys2Proof/Machine/Trace.lean ====
section
/-! DEFINITION. Trace: filters, packets and chunks, trigger and readout (R349 to R359), and COMPRESS_FLUSH (R366). -/

namespace Sys2Proof.Machine

-- TRC_STATUS.PHASE of R371
def phaseStopped : Nat := 0
def phaseCirculate : Nat := 1
def phasePost : Nat := 2
def phaseHeld : Nat := 3

/-- Chunks of the trace buffer (R352): 16 MiB on the HTU, 256 MiB on the VTA. -/
def traceChunks : UnitId → Nat
  | .htu => 4096
  | .vta => 65536

/-- Bytes of a packet and of a chunk so far (R352); the CHUNK packet takes 24. -/
def TPkt.size (p : TPkt) : Nat := 8 + 8 * p.words.length
def Chunk.size (c : Chunk) : Nat := 24 + (c.pkts.map TPkt.size).sum

/-- A packet as bytes (R352). -/
def TPkt.bytes (p : TPkt) : List Byte :=
  le 2 p.src ++ le 1 (p.typ + 16 * p.words.length) ++ le 1 p.tag ++ le 4 p.delta ++ ofWords p.words

/-- A closed chunk as 4 KiB: the CHUNK packet, its packets, PAD (R352). -/
def Chunk.bytes (c : Chunk) : List Byte :=
  fit 4096 (TPkt.bytes { src := 0xFFFF, typ := 8, tag := 0, delta := 0
                         words := [BitVec.ofNat 64 c.base, BitVec.ofNat 64 (c.no + 2 ^ 32 * c.timev.toNat)] }
    ++ c.pkts.flatMap TPkt.bytes)

/-- The trace buffer changes. -/
def Prog.trace (u : UnitId) (f : Trace → Trace) : Prog := .dev u fun d => { d with trace := f d.trace }

/-- A new chunk opens; its base is fleet time, or the raw counter while TIMEV is 0 (R353). -/
def Prog.openChunk (u : UnitId) : Prog := .get fun s =>
  .trace u fun t => { t with cur := some { no := t.nextNo, base := s.ns u, timev := s.timev u, pkts := [] }
                             nextNo := t.nextNo + 1, since := (s.dev u).ticks }

/-- The open chunk closes: into the circulating history, or into the post region (R354). -/
def Prog.closeChunk (u : UnitId) : Prog := .get fun s =>
  let post := s.rd u Reg.TRC_STATUS_PHASE == phasePost
  .trace u fun t => match t.cur with
    | none => t
    | some c =>
      if post then { t with post := t.post ++ [c], cur := none }
      else
        let l := t.chunks ++ [c]
        { t with chunks := l.drop (l.length - (traceChunks u - 1)), cur := none }

/-- A packet joins the open chunk. -/
def Prog.addPkt (u : UnitId) (src typ tag : Nat) (words : List Word) : Prog := .get fun s =>
  let d := (s.dev u).ticks - (s.dev u).trace.since
  let p : TPkt := { src, typ, tag, delta := d, words }
  let span := (s.dev u).ticks / 1250
  .trace u fun t => { t with
    cur := t.cur.map fun c => { c with pkts := c.pkts ++ [p] }
    flow := (span, (if t.flow.1 = span then t.flow.2 else 0) + p.size) }

/-- The trace moves to HELD and its readout is queued (R354). -/
def Prog.traceHold (u : UnitId) : Prog := .get fun s => .seq [
  .cond ((s.dev u).trace.postLost != 0) (.addPkt u 0xFFFF 3 3 [BitVec.ofNat 64 (s.dev u).trace.postLost]),
  .closeChunk u,
  .wr u Reg.TRC_STATUS_PHASE phaseHeld,
  .trace u fun t => { t with queued := true, sent := 0 }]

/-- A packet is written: a chunk closes when it does not fit or TDELTA would overflow; a full post region drops it and ends the
post window (R352 to R354). -/
def Prog.writePkt (u : UnitId) (src typ tag : Nat) (words : List Word) : Prog := .get fun s =>
  let t := (s.dev u).trace
  let phase := s.rd u Reg.TRC_STATUS_PHASE
  let size := 8 + 8 * words.length
  let fits := match t.cur with
    | some c => c.size + size ≤ 4096 && (s.dev u).ticks - t.since < 2 ^ 32
    | none => false
  let region := traceChunks u - t.chunks.length
  let used := t.post.length + (if t.cur.isSome then 1 else 0)
  .cond (phase == phaseCirculate || phase == phasePost) <|
    if phase = phasePost ∧ used ≥ region ∧ (!fits || (match t.cur with
        | some c => c.size + size > 4096 - 16
        | none => true)) then
      .seq [.bumpBy u Reg.TRC_LOST_WORDS words.length,
        .trace u fun t => { t with postLost := t.postLost + words.length }, .traceHold u]
    else if fits then .addPkt u src typ tag words
    else .seq [.closeChunk u, .openChunk u, .addPkt u src typ tag words]

/-- A word is lost for a source (R351). -/
def Prog.loseWord (u : UnitId) (src cause : Nat) : Prog := .both (.bump u Reg.TRC_LOST_WORDS) <|
  .trace u fun t =>
    let n := ((t.lost.find? (·.1 == src)).map (·.2.2)).getD 0
    { t with lost := (t.lost.filter (·.1 != src)) ++ [(src, cause, n + 1)] }

/-- Whether a word passes the filter (R350). -/
def State.traceTakes (s : State) (u : UnitId) (src tag : Nat) : Bool :=
  (List.range 32).any fun i =>
    s.on u (Reg.TRC_FILT_VALID i) && s.rd u (Reg.TRC_FILT_SRC_FIRST i) ≤ src && src ≤ s.rd u (Reg.TRC_FILT_SRC_LAST i)
      && (tag &&& s.rd u (Reg.TRC_FILT_TAG_MASK i)) == s.rd u (Reg.TRC_FILT_TAG_VAL i)

/-- TRIG_EN allows a trigger cause (R350, R354); the stop cause needs no enable. -/
def State.trigEnabled (s : State) (u : UnitId) (cause : Nat) : Bool :=
  cause == 6 || (s.rd u Reg.TRC_CFG_TRIG_EN).testBit (cause - 1)

/-- The word of TRIGGER and IGNORED packets. -/
def trigWords (number cause : Nat) : List Word := [BitVec.ofNat 64 (number % 2 ^ 32 + 2 ^ 32 * cause)]

/-- A trigger event (R354): in CIRCULATE the history is frozen and the post window opens; else it is ignored and counted. -/
def Prog.trigger (u : UnitId) (cause : Nat) : Prog := .get fun s =>
  .cond (s.trigEnabled u cause) <|
  let phase := s.rd u Reg.TRC_STATUS_PHASE
  let keep := s.rd u Reg.TRC_CFG_PRE * traceChunks u / 16
  let n := s.rd u Reg.TRC_STATUS_TRIGGERS + 1
  if phase = phaseCirculate then .seq [
    .closeChunk u,
    .trace u fun t => { t with chunks := t.chunks.drop (t.chunks.length - keep), post := [], postLost := 0 },
    .wr u Reg.TRC_STATUS_TRIGGERS n, .wr u Reg.TRC_TRIG_NS_NS (s.ns u),
    .wr u Reg.TRC_STATUS_PHASE phasePost, .openChunk u, .addPkt u 0xFFFF 6 0 (trigWords n cause)]
  else if phase = phasePost then
    .both (.bump u Reg.TRC_STATUS_IGNORED) (.writePkt u 0xFFFF 7 0 (trigWords (n - 1) cause))
  else .cond (phase == phaseHeld) (.bump u Reg.TRC_STATUS_IGNORED)

/-- The funnel takes one more DATA packet (R351): 32 GB/s are 32,000 bytes in 1,250 ticks (DESIGN CHOICE, log entry 145). -/
def State.funnelTakes (s : State) (u : UnitId) : Bool :=
  let t := (s.dev u).trace
  t.flow.1 != (s.dev u).ticks / 1250 || t.flow.2 + 16 ≤ 32000

/-- A DATA word of a source: one beyond the funnel's rate is lost; else OVERFLOW first after a loss, then the word, and the tag trigger
follows it (R351, R354). -/
def Prog.traceData (u : UnitId) (src tag : Nat) (w : Word) : Prog := .get fun s =>
  let phase := s.rd u Reg.TRC_STATUS_PHASE
  .cond ((phase == phaseCirculate || phase == phasePost) && s.traceTakes u src tag) <|
  if !s.funnelTakes u then .loseWord u src 2 else .seq [
    .opt ((s.dev u).trace.lost.find? (·.1 == src)) fun (_, cause, n) => .both
      (.writePkt u src 3 cause [BitVec.ofNat 64 n]) (.trace u fun t => { t with lost := t.lost.filter (·.1 != src) }),
    .writePkt u src 1 tag [w],
    .cond (tag == s.rd u Reg.TRC_CFG_TRIG_TAG) (.trigger u 5)]

/-- A marker packet of a cluster source of the trace's partition that the filter admits (R350, R352, R357). -/
def Prog.traceMark (u : UnitId) (src typ : Nat) (words : List Word) : Prog := .get fun s =>
  .cond (s.rd u (Reg.SEC_CLUSTER_PART_PART src) == s.rd u Reg.TRC_STATUS_OWNER && (List.range 32).any fun i => s.on u (Reg.TRC_FILT_VALID i) && s.rd u (Reg.TRC_FILT_SRC_FIRST i) ≤ src
      && src ≤ s.rd u (Reg.TRC_FILT_SRC_LAST i)) (.writePkt u src typ 0 words)

/-- The trace starts in CIRCULATE with its buffer cleared (R354). -/
def Prog.traceStart (u : UnitId) (part role : Nat) : Prog := .seq [
  .wr u Reg.TRC_STATUS_PHASE phaseCirculate, .wr u Reg.TRC_STATUS_OWNER part,
  .trace u fun t => { nextNo := t.nextNo, role := role },
  .setFn u fidTrace fun f => { f with st := .running }]

/-- A trace filter entry of TRACE_ARM: first and last source, tag value and mask. -/
def filtEntry (p : Packet) (i : Nat) : Nat × Nat × Nat × Nat :=
  (arg p (16 + 8 * i) 2, arg p (18 + 8 * i) 2, arg p (20 + 8 * i) 1, arg p (21 + 8 * i) 1)

/-- A source range is admitted (R118, R350): cluster sources of the command's partition, internal sources only to partition 0
with a die-wide role. -/
def State.traceAdmits (s : State) (u : UnitId) (p : Packet) (e : Nat × Nat × Nat × Nat) : Bool :=
  let wide := p.part == 0 && [1, 4, 5, 6].contains p.roleN
  match u with
  | .vta => wide
  | .htu => (wide || e.2.1 ≤ 255) &&
      (List.range 256).all fun n => n < e.1 || e.2.1 < n || s.rd .htu (Reg.SEC_CLUSTER_PART_PART n) == p.part

/-- TRACE_ARM (R350). -/
def opTraceArm : Op where
  code := 0x60
  classes := [4]
  plen := fun _ => true
  perms := permTrace
  rsvd := fun _ p => anySet p 11 5 || arg p 1 1 / 32 != 0 || arg p 2 1 / 4 != 0
    || (List.range (arg p 10 1)).any fun i => anySet p (22 + 8 * i) 2
  check := fun s u _ p =>
    let n := arg p 10 1
    (firstBad [
      (arg p 0 1 > 15, badParam 0x100), (arg p 1 1 % 32 = 0, badParam 0x101),
      (arg p 4 4 = 0 ∨ arg p 4 4 > 10000000, badParam 0x102),
      (n = 0 ∨ n > 32 ∨ p.params.length ≠ 16 + 8 * n, badParam 0x103)]).orElse fun _ =>
    (((List.range n).find? fun i => !s.traceAdmits u p (filtEntry p i)).map fun i =>
      ({ status := stDenied, detail := i } : Ans)).orElse fun _ => firstBad [((s.fn u fidTrace).st ≠ .stopped, { status := stNotStopped })]
  run := fun u m p => .seq [
    .wr u Reg.TRC_CFG_PRE (arg p 0 1), .wr u Reg.TRC_CFG_TRIG_EN (arg p 1 1 % 32),
    .wr u Reg.TRC_CFG_REARM (arg p 2 1), .wr u Reg.TRC_CFG_COMPRESS (arg p 2 1 / 2),
    .wr u Reg.TRC_CFG_TRIG_TAG (arg p 3 1), .wr u Reg.TRC_CFG_POST_US (arg p 4 4),
    .wr u Reg.TRC_SYNC_SYNC_US (if arg p 8 2 = 0 then 100 else arg p 8 2),
    .each (List.range 32) fun i =>
      let e := filtEntry p i
      if i < arg p 10 1 then .seq [
        .wr u (Reg.TRC_FILT_SRC_FIRST i) e.1, .wr u (Reg.TRC_FILT_SRC_LAST i) e.2.1,
        .wr u (Reg.TRC_FILT_TAG_VAL i) e.2.2.1, .wr u (Reg.TRC_FILT_TAG_MASK i) e.2.2.2,
        .wr u (Reg.TRC_FILT_VALID i) 1]
      else .wr u (Reg.TRC_FILT_VALID i) 0,
    .traceStart u p.part p.roleN,
    .reply u m p.tag { status := stOk }]

/-- TRACE_TRIGGER (R356). -/
def opTraceTrigger : Op where
  code := 0x61
  classes := [4]
  plen := (· == 8)
  perms := permTrace
  rsvd := fun _ p => anySet p 0 8
  check := fun s u _ _ => firstBad [
    (!(s.rd u Reg.TRC_CFG_TRIG_EN).testBit 0, badParam 0x100),
    ((s.fn u fidTrace).st ≠ .running, { status := stBusy })]
  run := fun u m p => .get fun s =>
    let took := s.rd u Reg.TRC_STATUS_PHASE == phaseCirculate
    .both (.trigger u 1) (.reply u m p.tag { status := stOk, result := took.toNat })

/-- The post window has elapsed (R354). -/
def Prog.postExpiry (u : UnitId) : Prog := .get fun s =>
  .cond (s.rd u Reg.TRC_STATUS_PHASE == phasePost) (.traceHold u)

/-- One chunk as a TRACE_DATA record (R358): raw, or one DEFLATE unit; a chunk with a bad word ends before it (R359). -/
def Prog.traceRecord (u : UnitId) (sid number i total : Nat) (post comp : Bool) (c : Chunk) : Prog :=
  let raw := match c.media with
    | some n => c.bytes.take n
    | none => c.bytes
  let head (clen : Nat) : List Byte :=
    le 4 number ++ le 2 i ++ le 2 total ++ le 1 (post.toNat + 2 * c.media.isSome.toNat + 4 * (clen != 0).toNat)
      ++ zeros 1 ++ le 2 raw.length ++ le 2 clen ++ zeros 2
  if comp then .compress u raw fun o => .emitWait u sid 2 fun r => { r with typ := 0x80, payload := head o.length ++ o }
  else .emitWait u sid 2 fun r => { r with typ := 0x80, payload := head 0 ++ raw }

/-- The ladder level in force (R218). -/
def State.ladder (s : State) (u : UnitId) : Nat := s.rd u Reg.SHF_STATUS_LEVEL

/-- The level in force for an epoch (R219): the higher of the own level and of the level pushed from above for it. -/
def Ladder.at (l : Ladder) (ep : Nat) : Nat :=
  let last (pushed : Bool) (now : Nat) : Nat := l.pend.foldl (fun a e => if e.2.1 == pushed && serialGe 32 ep e.1 then e.2.2 else a) now
  max (last false l.ownIn) (last true l.pushIn)

/-- The ladder level of a unit for an epoch (R218). -/
def State.ladderAt (s : State) (u : UnitId) (ep : Nat) : Nat := (s.dev u).ladder.at ep

/-- The trace function is STOPPED, its stream's open segment closes (R125), and a stop command that waited for its drain gets its final
reply (R91). -/
def Prog.stopped (u : UnitId) (fid result : Nat) : Prog := .get fun s =>
  let owner := s.rd u Reg.TRC_STATUS_OWNER
  .seq [
    .setFn u fid fun f => { f with st := .stopped, stopper := none },
    .cond (s.on u (Reg.TRC_STREAM_VALID owner)) <| .both (.flushLoss u (s.rd u (Reg.TRC_STREAM_STREAM owner)))
      (.closeChain u (s.rd u (Reg.TRC_STREAM_STREAM owner))),
    .answer u (s.fn u fid).stopper { status := stOk, result }]

/-- A readout is due: the buffer is HELD, its stream is valid and the ladder is at L0 (R358, R359). -/
def State.readsOut (s : State) (u : UnitId) : Bool :=
  s.rd u Reg.TRC_STATUS_PHASE == phaseHeld && (s.dev u).trace.queued && s.on u (Reg.TRC_STREAM_VALID (s.rd u Reg.TRC_STATUS_OWNER))
    && s.ladder u == 0

/-- Chunks of the buffer in readout order, those of the post region marked (R358). -/
def Trace.all (t : Trace) : List (Bool × Chunk) := t.chunks.map (false, ·) ++ t.post.map (true, ·)

/-- The next chunk of a readout becomes a record, or waits with those after it (R358, R365): `i` is its place. -/
def Prog.readChunk (u : UnitId) (total i : Nat) (post : Bool) (c : Chunk) : Prog := .get fun s =>
  let comp := s.on u Reg.TRC_CFG_COMPRESS
  .cond ((s.dev u).trace.sent == i && s.unitStarts u comp (!((s.dev u).lastTrace && (s.dev u).dumpWaits)) 4096) <| .seq [
    .traceRecord u (s.rd u (Reg.TRC_STREAM_STREAM (s.rd u Reg.TRC_STATUS_OWNER))) (s.rd u Reg.TRC_STATUS_TRIGGERS) i total post comp c,
    .trace u fun t => { t with sent := i + 1 },
    .cond comp (.dev u fun d => { d with lastTrace := true })]

/-- The last record of a readout is committed (R354): the buffer is rearmed, stays HELD, or ends with its drain. -/
def Prog.readDone (u : UnitId) : Prog := .get fun s => .both (.trace u fun t => { t with queued := false }) <|
  if (s.fn u fidTrace).st = .draining then .seq [
    .wr u Reg.TRC_STATUS_PHASE phaseStopped, .trace u fun t => { nextNo := t.nextNo }, .stopped u fidTrace 0]
  else .cond (s.on u Reg.TRC_CFG_REARM) <| .both (.wr u Reg.TRC_STATUS_PHASE phaseCirculate)
    (.trace u fun t => { nextNo := t.nextNo, role := t.role })

/-- A readout that is due sends the chunks that find room, an engine and the turn, and completes with the last (R354, R358, R365). -/
def Prog.readout (u : UnitId) : Prog := .get fun s => .cond (s.readsOut u) <|
  let all := (s.dev u).trace.all
  .both (.each all.zipIdx fun e => .readChunk u all.length e.2 e.1.1 e.1.2)
    (.get fun s => .cond ((s.dev u).trace.sent ≥ all.length) (.readDone u))

/-- The trace stops: as a trigger of cause 0x06 with a post window of zero (R354). A held buffer with nothing left to send
is stopped at once. -/
def Prog.traceStop (u : UnitId) : Prog := .get fun s => .seq [
  .cond (s.rd u Reg.TRC_STATUS_PHASE == phaseCirculate) (.trigger u 6),
  .cond (s.rd u Reg.TRC_STATUS_PHASE == phaseCirculate || s.rd u Reg.TRC_STATUS_PHASE == phasePost) (.traceHold u),
  .get fun s => .cond (!(s.dev u).trace.queued) <|
    .both (.wr u Reg.TRC_STATUS_PHASE phaseStopped) (.stopped u fidTrace 0)]

/-- DRAIN_LIMIT ends a trace drain: the chunks left are discarded and counted in TRC_LOST (R354, R358). -/
def Prog.traceDiscard (u : UnitId) : Prog := .get fun s =>
  let t := (s.dev u).trace
  let words := ((t.all.drop t.sent).map (·.2) |>.map fun c => (c.pkts.map fun p => p.words.length).sum).sum
  .seq [.bumpBy u Reg.TRC_LOST_WORDS words, .wr u Reg.TRC_STATUS_PHASE phaseStopped,
    .trace u fun t => { nextNo := t.nextNo }, .stopped u fidTrace words]

/-- COMPRESS_FLUSH (R366). Units are committed as they are read, so only open archive segments wait. -/
def opCompressFlush : Op where
  code := 0x63
  plen := (· == 8)
  perms := permFlush
  rsvd := fun _ p => anySet p 3 5 || arg p 2 1 / 2 != 0
  check := fun s u _ p =>
    let sid := arg p 0 2
    firstBad [(sid != 0xFFFF && (match Sparse.find (s.dev u).streams sid with
      | some st => st.part != p.part
      | none => u == .vta && s.vx.segs.any fun g => g.stream == sid && g.part != p.part),
      { status := stDenied })]
  run := fun u m p => .get fun s =>
    let sid := arg p 0 2
    let segs := if u = .vta ∧ (arg p 2 1).testBit 0 then
      s.vx.segs.filter fun g => g.part == p.part && (sid == 0xFFFF || g.stream == sid) else []
    .both (.each segs .closeSegment) (.reply u m p.tag { status := stOk, result := segs.length })

end Sys2Proof.Machine
end

