-- ==== Sys2Proof/Machine/Taps.lean ====
section
/-! DEFINITION. Tap stations, the cluster map and spare switching (R45 to R57, R447), slices and accumulators (R165 to R174),
energy (R178, R179), and what a sample of a collector holds (R180 to R185, R190, R194, R218). -/

namespace Sys2Proof.Machine

-- TAP_PHYS.STATE of R56
def phActive : Nat := 0
def phSpare : Nat := 1
def phSilent : Nat := 2
def phRetired : Nat := 3

/-- A tap station. -/
def State.station (s : State) (n : Nat) : Station := Sparse.get {} s.hx.stations n

/-- A tap station changes. -/
def Prog.modStation (n : Nat) (f : Station → Station) : Prog :=
  .htu fun x => { x with stations := Sparse.mod {} x.stations n f }

/-- The physical cluster that serves logical cluster `n`: the ACTIVE one, else the SILENT one, else the RETIRED one. -/
def State.physOf (s : State) (n : Nat) : Nat :=
  let c := (List.range 17).map fun i => 17 * (n / 16) + i
  let at' (st : Nat) : Option Nat :=
    c.find? fun p => s.rd .htu (Reg.TAP_PHYS_STATE p) == st && s.rd .htu (Reg.TAP_PHYS_LOGICAL p) == n
  ((at' phActive).orElse fun _ => (at' phSilent).orElse fun _ => at' phRetired).getD (Reg.defaultMap n)

/-- The logical cluster has no ACTIVE station (R48, R410, R447). -/
def State.absent (s : State) (n : Nat) : Bool := s.rd .htu (Reg.TAP_PHYS_STATE (s.physOf n)) != phActive

/-- The partition that owns a logical cluster (R119). -/
def State.owner (s : State) (n : Nat) : Nat := s.rd .htu (Reg.SEC_CLUSTER_PART_PART n)

/-- A station serves the logical cluster in its LOGICAL field. -/
def State.serves (s : State) (p : Nat) : Bool := s.rd .htu (Reg.TAP_PHYS_STATE p) != phSpare

/-- TAP_CLU_STATE.ABSENT follows the serving station (R188, R447). -/
def Prog.showAbsent (n : Nat) : Prog := .get fun s => .wr .htu (Reg.TAP_CLU_STATE_ABSENT n) (s.absent n).toNat

/-- The HTU reads slice value `v`: ACC advances by (v − LAST) mod 2^40 and LAST takes v (R169). -/
def Prog.carry (n sl : Nat) (v : BitVec 40) : Prog := .get fun s =>
  let adv := v - Sparse.get 0 s.hx.last (16 * n + sl)
  .cond (adv != 0) <| .both (.count .htu (Reg.TAP_ACC_ACC n sl) adv.toNat)
    (.htu fun x => { x with last := Sparse.set 0 x.last (16 * n + sl) v })

/-- Every slice of a logical cluster is read: the count of the cycles before the latest edge (R165). -/
def Prog.carryAll (n : Nat) : Prog := .get fun s =>
  .cond (!s.absent n) <| .each (List.range 16) fun sl => .carry n sl (Sparse.get 0 (s.station (s.physOf n)).oldSlices sl)

/-- The hedge network is busy for some core cycles (R175): what carries words on it counts a number of them that the manual does not give, a free
value (log entry 134). -/
def Prog.hedgeBusy : Prog := .free fun n => .count .htu (Reg.TAP_DIE_CNT_COUNT 7) n

/-- An event code goes to a slice (R167); the command waits in the inward FIFO of a stalled station (R45). -/
def Prog.setSlice (n sl code : Nat) : Prog := .both (.wr .htu (Reg.TAP_SLICE_CFG_EVENT n sl) code) <| .get fun s =>
  .cond ((s.station (s.physOf n)).stalled && (s.station (s.physOf n)).inq.length < 16)
    (.modStation (s.physOf n) fun t => { t with inq := t.inq ++ [(sl, code)] })

/-- ENTRIES (`k` 0) or SILENT (1) of a logical cluster counts one (R177): 64 bits, of which the register shows the lower half. -/
def Prog.countClu (n k : Nat) : Prog := .both
  (.count .htu (if k = 0 then Reg.TAP_CLU_FALLOW_ENTRIES n else Reg.TAP_CLU_FALLOW_SILENT n))
  (.htu fun x => { x with cluCnt := Sparse.mod 0 x.cluCnt (2 * n + k) (· + 1) })

/-- The background scan reads one slice of a station that is not SILENT (R169). -/
def Prog.scan (p sl : Nat) : Prog := .get fun s =>
  .cond (s.rd .htu (Reg.TAP_PHYS_STATE p) == phActive) <| .both .hedgeBusy <|
    .carry (s.rd .htu (Reg.TAP_PHYS_LOGICAL p)) sl (Sparse.get 0 (s.station p).oldSlices sl)

/-- The epoch number for an event record; 0xFFFF_FFFF while the epoch is unknown (R54, R447). -/
def State.epochOrNone (s : State) : Nat := if s.timev .htu then s.epoch .htu else 0xFFFFFFFF

-- the cluster map

/-- Agents whose writes R53, R57 and R94 accept: HREG, Gorse, and entries from HTU mailboxes 0 and 2. -/
def hregLike : Agent → Bool
  | .hreg => true
  | .gorse => true
  | .entry m => m == 0 || m == 2
  | _ => false

/-- R52 for one logical cluster: GROUP 1, DUPLICATE 2, RETIRED 3, or 0. -/
def State.mapTest (s : State) (n : Nat) : Nat :=
  let p := s.rd .htu (Reg.TAP_MAP_PEND_PHYS n)
  if p / 17 ≠ n / 16 ∨ p ≥ 272 then 1
  else if (List.range 256).any fun m => m != n && s.rd .htu (Reg.TAP_MAP_PEND_PHYS m) == p then 2
  else if s.rd .htu (Reg.TAP_PHYS_STATE p) = phRetired ∧ s.physOf n ≠ p then 3 else 0

/-- The length in ns of a station's Fallow interval up to now (R174): in fleet time, or in ticks of 0.8 ns, rounded down, where TIMEV was or
is 0 (log entry 125). -/
def State.fallowSpan (s : State) (t : Station) : Nat :=
  if !t.fallow then 0
  else if t.fallowV && s.timev .htu then s.ns .htu - t.fallowT else (s.h.ticks - t.fallowTick) * 4 / 5

/-- A map takes effect (R54). The outgoing station's slices are carried up to its latest edge; a SILENT one has delivered what it could. A Fallow
interval of the outgoing station ends here for the logical cluster, and one of the incoming station begins (DESIGN CHOICE, log entry 125). -/
def Prog.mapApply (m : Nat → Nat) : Prog := .get fun s =>
  let ep := s.epochOrNone
  let moved := ((List.range 256).map fun n => (n, s.physOf n, m n)).filter fun e => e.2.1 != e.2.2
  .seq [
    .each moved fun e => .both
      (.cond (!s.absent e.1) <| .each (List.range 16) fun sl => .carry e.1 sl (Sparse.get 0 (s.station e.2.1).slices sl))
      (.count .htu (Reg.TAP_CLU_FALLOW_FALLOW_NS e.1) (s.fallowSpan (s.station e.2.1))),
    .each moved fun e => .seq [
      .htu fun x => { x with last := x.last.filter fun l => l.1 / 16 != e.1 },
      .modStation e.2.2 fun t =>
        let o := s.station e.2.1
        { t with slices := [], oldSlices := [], cmds := o.cmds, oldCmds := o.oldCmds, oldId := o.oldId
                 bound := o.bound, fresh := o.fresh, idWord := o.idWord
                 fallowT := s.ns .htu, fallowTick := s.h.ticks, fallowV := s.timev .htu },
      .wr .htu (Reg.TAP_CLU_STATE_FALLOW e.1) (s.station e.2.2).fallow.toNat],
    .each moved fun e => .both (.wr .htu (Reg.TAP_PHYS_STATE e.2.1) phSpare) (.wr .htu (Reg.TAP_PHYS_LOGICAL e.2.1) 0),
    .each moved fun e => .both (.wr .htu (Reg.TAP_PHYS_STATE e.2.2) phActive) (.wr .htu (Reg.TAP_PHYS_LOGICAL e.2.2) e.1),
    .each moved fun e => .both (.showAbsent e.1)
      (.event .htu 0x0A03 (le 1 e.1 ++ zeros 1 ++ le 2 e.2.1 ++ le 2 e.2.2 ++ zeros 2 ++ le 4 ep))]

/-- A commit is checked in the order of R55 and applied, scheduled or rejected. A scheduled map is held as it was committed (R54, R55). -/
def Prog.mapCommit (immediate : Bool) : Prog := .get fun s =>
  let stat := Reg.TAP_MAP_STATUS_STAT
  let reason := Reg.TAP_MAP_STATUS_REASON
  let ap := s.rd .htu Reg.TAP_MAP_EPOCH_APPLY_EPOCH
  let late := !(serialGt 32 ap (s.epoch .htu) && serialDiff 32 ap (s.epoch .htu) ≥ 2)
  let bad := (List.range 256).find? fun n => s.mapTest n != 0
  let reject (r : Nat) : Prog := .both (.wr .htu stat 3) (.wr .htu reason r)
  .both (.wr .htu Reg.TAP_MAP_CTL_IMMEDIATE immediate.toNat) <|
    if s.rd .htu stat = 1 then .wr .htu reason 6
    else if immediate ∧ s.h.colls ≠ [] then reject 5
    else if !immediate ∧ !s.timev .htu then reject 7
    else if !immediate ∧ late then reject 4
    else match bad with
      | some n => .both (reject (s.mapTest n)) (.wr .htu Reg.TAP_MAP_STATUS_FIRST_BAD n)
      | none => .both (.wr .htu reason 0) <|
        if immediate then .both (.mapApply fun n => s.rd .htu (Reg.TAP_MAP_PEND_PHYS n)) (.wr .htu stat 2)
        else .both (.wr .htu stat 1) (.htu fun x => { x with
          mapNext := some ((List.range 256).map fun n => s.rd .htu (Reg.TAP_MAP_PEND_PHYS n), ap) })

/-- The scheduled map takes effect at the start of APPLY_EPOCH, or of the first later epoch with TIMEV = 1 (R54). -/
def Prog.mapDue : Prog := .get fun s => .opt s.hx.mapNext fun m =>
  .cond (s.timev .htu && !s.h.gated && serialGe 32 (s.epoch .htu) m.2) <| .seq [
    .mapApply fun n => m.1.getD n 0, .wr .htu Reg.TAP_MAP_STATUS_STAT 2, .htu fun x => { x with mapNext := none }]

/-- At start-up a logical cluster whose station is RETIRED moves to its group's spare (R447). -/
def Prog.startMap : Prog := .each (List.range 256) fun n => .get fun s =>
  let p := Reg.defaultMap n
  let sp := 17 * (n / 16) + 16
  .both (.cond (s.rd .htu (Reg.TAP_PHYS_STATE p) == phRetired && s.rd .htu (Reg.TAP_PHYS_STATE sp) == phSpare) <| .seq [
      .wr .htu (Reg.TAP_PHYS_STATE sp) phActive, .wr .htu (Reg.TAP_PHYS_LOGICAL sp) n,
      .event .htu 0x0A03 (le 1 n ++ zeros 1 ++ le 2 p ++ le 2 sp ++ zeros 2 ++ le 4 0xFFFFFFFF)])
    (.get fun s => .cond (s.absent n) (.wr .htu (Reg.TAP_CLU_STATE_ABSENT n) 1))

-- silent and Fallow clusters

/-- The payload of CLUSTER_SILENT and CLUSTER_RESUMED (R444). -/
def State.silentPayload (s : State) (p : Nat) : List Byte :=
  le 2 p ++ le 1 (s.rd .htu (Reg.TAP_PHYS_LOGICAL p)) ++ zeros 1 ++ le 4 s.epochOrNone

/-- No word for 10 µs from an ACTIVE station (R48). In Fallow its words flow on the core clock, so it does not go SILENT (R174). -/
def Prog.clusterSilent (p : Nat) : Prog := .get fun s =>
  .cond (s.rd .htu (Reg.TAP_PHYS_STATE p) == phActive && !(s.station p).fallow) <| .seq [
    .wr .htu (Reg.TAP_PHYS_STATE p) phSilent,
    .modStation p fun t => { t with stalled := true },
    .countClu (s.rd .htu (Reg.TAP_PHYS_LOGICAL p)) 1,
    .showAbsent (s.rd .htu (Reg.TAP_PHYS_LOGICAL p)),
    .event .htu 0x0A01 (s.silentPayload p)]

/-- A TRC_SRC word of the partition that holds trace goes to the recorder (R351). -/
def Prog.traceWord (p : Nat) (tag : BitVec 8) (w : Word) : Prog := .get fun s =>
  .both (.modStation p fun t => { t with synced := true }) (.traceData .htu (s.rd .htu (Reg.TAP_PHYS_LOGICAL p)) tag.toNat w)

/-- The hedge network takes the words of a station's outward FIFO, oldest first (R45); a heartbeat carries no data (R48). -/
def Prog.takeWords (p : Nat) : Prog := .get fun s => .both (.modStation p fun t => { t with out := [] }) <|
  .each (s.station p).out fun w => .both .hedgeBusy <| match w with
    | .heartbeat => .skip
    | .trace tag w => .traceWord p tag w

/-- The epoch that starts after words have resumed: the station is ACTIVE again, and its FIFOs have moved on (R45, R48). -/
def Prog.clusterResumed (p : Nat) : Prog := .get fun s =>
  .cond (s.rd .htu (Reg.TAP_PHYS_STATE p) == phSilent) <| .seq [
    .wr .htu (Reg.TAP_PHYS_STATE p) phActive,
    .modStation p fun t => { t with stalled := false, inq := [] },
    .takeWords p,
    .showAbsent (s.rd .htu (Reg.TAP_PHYS_LOGICAL p)),
    .event .htu 0x0A02 (s.silentPayload p)]

/-- A SYNC packet of a cluster source (R352). -/
def Prog.traceSync (n : Nat) : Prog := .get fun s =>
  let t := s.station (s.physOf n)
  .traceMark .htu n 2 [BitVec.ofNat 64 t.cycles,
    BitVec.ofNat 64 (s.rd .htu (Reg.TAP_CLU_STATE_CMD_ID n) + 2 ^ 32 * t.fallow.toNat)]

/-- Debounced fall of a cluster rail (R174, R357). TAP_EVT is not seen in Fallow: the first edge after it takes the level before as 0 (DESIGN
CHOICE, log entry 124). -/
def Prog.fallowEntry (p : Nat) : Prog := .get fun s =>
  let n := s.rd .htu (Reg.TAP_PHYS_LOGICAL p)
  .cond (!(s.station p).fallow) <| .both
    (.modStation p fun t => { t with
      fallow := true, fallowT := s.ns .htu, fallowTick := s.h.ticks, fallowV := s.timev .htu
      oldSlices := t.slices, oldCmds := t.cmds, bound := false, fresh := false, prev := 0
      oldId := BitVec.ofNat 32 (s.rd .htu (Reg.TAP_CLU_STATE_CMD_ID n)) })
    (.cond (s.serves p) <| .seq [
      .wr .htu (Reg.TAP_CLU_STATE_FALLOW n) 1, .countClu n 0, .traceMark .htu n 4 []])

/-- Debounced return of a cluster rail (R174, R357): FALLOW_NS takes the interval. -/
def Prog.fallowExit (p : Nat) : Prog := .get fun s =>
  let n := s.rd .htu (Reg.TAP_PHYS_LOGICAL p)
  let t := s.station p
  .cond t.fallow <| .both (.modStation p fun t => { t with fallow := false })
    (.cond (s.serves p) <| .seq [
      .wr .htu (Reg.TAP_CLU_STATE_FALLOW n) 0, .count .htu (Reg.TAP_CLU_FALLOW_FALLOW_NS n) (s.fallowSpan t),
      .traceMark .htu n 5 [], .traceSync n])

/-- A station that is not SILENT writes a heartbeat word where its outward FIFO is empty (R48). -/
def Prog.heartbeat (p : Nat) : Prog := .get fun s =>
  .cond (s.rd .htu (Reg.TAP_PHYS_STATE p) != phSilent && (s.station p).out == []) <| .both
    (.modStation p fun t => { t with out := [.heartbeat] }) (.cond (!(s.station p).stalled) (.takeWords p))

-- commands

/-- A rising edge on CMD_LINE (R171, R172): the command ends, its counts are kept for a capture on the same edge (R173), and
the next command starts with the events of this cycle. -/
def Prog.boundary (p : Nat) : Prog := .get fun s =>
  let n := s.rd .htu (Reg.TAP_PHYS_LOGICAL p)
  let id := s.rd .htu (Reg.TAP_CLU_STATE_CMD_ID n)
  let t := s.station p
  .cond (s.on .htu Reg.TAP_CMD_CFG_CMD_EN && s.serves p && !t.fallow) <| .both
    (.modStation p fun t => { t with oldCmds := t.cmds, oldId := BitVec.ofNat 32 id, cmds := [], fresh := true })
    (.wr .htu (Reg.TAP_CLU_STATE_CMD_ID n) (if s.on .htu Reg.TAP_CMD_CFG_ID_SRC then t.idWord.toNat else id + 1))

/-- Whether the events of one cycle count for an event code (R166). -/
def eventCounts (code : Nat) (e : EdgeIn) (prev : BitVec 16) (tileEnd fresh : Bool) : Bool :=
  if code < 0x10 then e.tap.getLsbD code
  else if code < 0x20 then e.tap.getLsbD (code - 0x10) && !prev.getLsbD (code - 0x10)
  else match code with
    | 0x20 => true
    | 0x21 => e.op.isSome
    | 0x22 => e.res.isSome
    | 0x23 => tileEnd
    | 0x24 => e.trc.isSome
    | 0x25 => fresh
    | _ => false

/-- One cluster-clock edge counts in the slices and per-command counts of a station (R165, R172); a station that serves no logical cluster
sees the levels of its lines all the same (R166). -/
def Prog.countEdge (p : Nat) (e : EdgeIn) (tileEnd : Bool) : Prog := .get fun s =>
  let n := s.rd .htu (Reg.TAP_PHYS_LOGICAL p)
  let t := s.station p
  let add (l : List (Nat × BitVec 40)) (sat : Bool) : List (Nat × BitVec 40) :=
    (List.range 16).foldl (fun l sl =>
      if eventCounts (s.rd .htu (Reg.TAP_SLICE_CFG_EVENT n sl)) e t.prev tileEnd t.fresh then
        let v := Sparse.get 0 l sl
        Sparse.set 0 l sl (if sat && v == BitVec.allOnes 40 then v else v + 1)
      else l) l
  .cond (!t.fallow) <| if !s.serves p then .modStation p fun t => { t with prev := e.tap } else .modStation p fun t => { t with
    oldSlices := t.slices, slices := add t.slices false
    oldCmds := if t.fresh then t.oldCmds else t.cmds
    oldId := if t.fresh then t.oldId else BitVec.ofNat 32 (s.rd .htu (Reg.TAP_CLU_STATE_CMD_ID n))
    cmds := add t.cmds true, bound := t.fresh, fresh := false, prev := e.tap, cycles := t.cycles + 1 }

/-- A TRC_SRC word (R171, R351): the ID word, then trace while the station's FIFO has 4 free entries. -/
def Prog.trcSrc (p : Nat) (tag : BitVec 8) (w : Word) : Prog := .get fun s =>
  let n := s.rd .htu (Reg.TAP_PHYS_LOGICAL p)
  let t := s.station p
  .cond (!t.fallow && s.rd .htu (Reg.TAP_PHYS_STATE p) != phRetired) <| .seq [
    .cond (tag.toNat == s.rd .htu Reg.TAP_CMD_CFG_ID_TAG) (.modStation p fun t => { t with idWord := w.setWidth 32 }),
    .cond (s.serves p && s.owner n == s.rd .htu Reg.TRC_STATUS_OWNER) <|
      if t.out.length > 12 then .loseWord .htu n 1
      else if t.stalled then .modStation p fun t => { t with out := t.out ++ [.trace tag w] }
      else .both .hedgeBusy (.traceWord p tag w)]

/-- Every SYNC_US a SYNC for each cluster source that carries traffic (R353). -/
def Prog.syncAll (u : UnitId) : Prog := match u with
  | .vta => .skip
  | .htu => .each (List.range 256) fun n => .get fun s =>
      .cond (s.station (s.physOf n)).synced (.both (.traceSync n) (.modStation (s.physOf n) fun t => { t with synced := false }))

-- energy

/-- Energy in fJ joins a µJ accumulator; the part below 1 µJ is kept (R179). -/
def Prog.addEnergy (f : Fld) (key fj : Nat) : Prog := .get fun s =>
  let t := Sparse.get 0 s.hx.fracE key + fj
  .cond (fj != 0) <| .both (.count .htu f (t / 1000000000))
    (.htu fun x => { x with fracE := Sparse.set 0 x.fracE key (t % 1000000000) })

/-- The count of provider slice `sl` of a cluster since reset. -/
def State.sliceTotal (s : State) (n sl : Nat) : Word :=
  let v := Sparse.get 0 (s.station (s.physOf n)).oldSlices sl - Sparse.get 0 s.hx.last (16 * n + sl)
  BitVec.ofNat 64 (s.rd .htu (Reg.TAP_ACC_ACC n sl)) + (if s.absent n then 0 else v.setWidth 64)

/-- Fallow time of a cluster until now in ns. -/
def State.fallowTotal (s : State) (n : Nat) : Nat :=
  s.rd .htu (Reg.TAP_CLU_FALLOW_FALLOW_NS n) + s.fallowSpan (s.station (s.physOf n))

/-- The energy of one cluster over an epoch in fJ (R178), at the voltage gauge of the epoch's start. A slice whose count is not known beyond
what was delivered (a SILENT station's) has not increased. -/
def State.clusterEnergy (s : State) (n : Nat) : Nat :=
  let g := n / 16
  let d (j : Nat) : Nat := (s.sliceTotal n j).toNat - (Sparse.get 0 s.hx.enBase (4 * n + j)).toNat
  let off := s.fallowTotal n - (Sparse.get 0 s.hx.enBase (1024 + n)).toNat
  let a := s.rd .htu (Reg.TAP_EN_COEF_K0 g) * d 0 + s.rd .htu (Reg.TAP_EN_COEF_K1 g) * d 1
    + s.rd .htu (Reg.TAP_EN_COEF_K2 g) * d 2 + s.rd .htu (Reg.TAP_EN_COEF_K3 g) * d 3
    + 1000 * s.rd .htu (Reg.TAP_EN_COEF_L g) * (1000 - off)
  let v := Sparse.get 0 s.hx.vEpoch g
  let vn := s.rd .htu (Reg.TAP_EN_COEF_V_NOM g)
  if vn = 0 then a
  else if a * v * v % (vn * vn) = 0 then a * v * v / (vn * vn) else Config.energyRound (a * v * v) (vn * vn)

/-- An estimate is due (R178): none was made in this epoch, or without time in the last 1,250 ticks. -/
def State.estimateDue (s : State) : Bool :=
  match s.hx.enAt with
  | none => true
  | some (ep, tick) => if s.timev .htu then ep != s.epoch .htu else tick + 1250 ≤ s.h.ticks

/-- Each epoch, or each 1,250 ticks without time, energy is estimated and attributed (R178, R179). -/
def Prog.energy : Prog := .get fun s => .cond s.estimateDue <| .both
  (.each (List.range 256) fun n =>
    let e := s.clusterEnergy n
    .seq [.addEnergy (Reg.TAP_EN_PART_UJ (s.owner n)) (8 * s.owner n + 7) e, .addEnergy Reg.TAP_EN_DIE_UJ 2048 e,
      .cond (e != 0) (.htu fun x => { x with pmClus := Sparse.mod 0 x.pmClus n (· + e) })])
  (.htu fun x => { x with
    enAt := some (s.epoch .htu, s.h.ticks), vEpoch := x.vGauge
    enBase := (List.range 1280).foldl (fun l k =>
      let now := if k < 1024 then s.sliceTotal (k / 4) (k % 4) else BitVec.ofNat 64 (s.fallowTotal (k - 1024))
      let old := Sparse.get 0 x.enBase k
      Sparse.set 0 l k (if old.toNat ≤ now.toNat then now else old)) [] })

-- samples

/-- One value of a sample: the value, the entry flags of R185, the command ID, and a new DELTA base. -/
structure Sample where
  src   : Nat
  v     : Nat
  flags : Nat
  id    : Nat
  base  : Option Word
deriving DecidableEq, Repr

def Sample.absent (x : Sample) : Bool := x.flags.testBit 1
def Sample.sat (x : Sample) : Bool := x.flags.testBit 3

/-- A raw value under DELTA: less the base, or the first capture that only sets it (R182, R194). -/
def deltaOf (c : Coll) (sel : Sel) (key src raw flags id : Nat) : Sample :=
  if !sel.delta then { src, v := raw, flags, id, base := none }
  else match Sparse.find c.bases key with
    | some b => { src, v := (BitVec.ofNat 64 raw - b).toNat, flags, id, base := some (BitVec.ofNat 64 raw) }
    | none => { src, v := 0, flags := flags ||| 2, id, base := some (BitVec.ofNat 64 raw) }

/-- A cluster-state source of R177: FALLOW_NS, ENTRIES or SILENT. -/
def State.cluSource (s : State) (n k : Nat) : Nat :=
  if k = 0 then s.rd .htu (Reg.TAP_CLU_FALLOW_FALLOW_NS n) else (Sparse.get 0 s.hx.cluCnt (2 * n + k - 1)).toNat

/-- The sample of one cluster for an entry of KIND 0x01 or 0x05 (R173, R177, R182, R185). An entry with DELTA and CMD gives the per-command
count (DESIGN CHOICE, log entry 126). -/
def State.sampleCluster (s : State) (c : Coll) (i : Nat) (sel : Sel) (n : Nat) : Sample :=
  let t := s.station (s.physOf n)
  let fal := if t.fallow then 4 else 0
  if s.absent n || s.owner n != c.part then { src := n, v := 0, flags := 2, id := t.oldId.toNat, base := none }
  else if sel.kind = 5 then
    deltaOf c sel (256 * i + n) n (s.cluSource n sel.source) fal t.oldId.toNat
  else if sel.cmd then
    let v := Sparse.get 0 t.oldCmds sel.source
    { src := n, v := v.toNat, id := t.oldId.toNat, base := none
      flags := fal + t.bound.toNat + (if v = BitVec.allOnes 40 then 8 else 0) }
  else deltaOf c sel (256 * i + n) n (s.rd .htu (Reg.TAP_ACC_ACC n sel.source)) fal t.oldId.toNat

/-- A gauge (R176). -/
def State.gauge (s : State) (k : Nat) : Nat :=
  if k < 0x20 then (s.hx.therm.getD k 0).toNat
  else if k < 0x30 then (((Sparse.find s.hx.age (k - 0x20)).getD []).headD 0).toNat
  else if k < 0x40 then Sparse.get 0 s.hx.fGauge (k - 0x30)
  else Sparse.get 0 s.hx.vGauge (k - 0x40)

/-- The samples of one selection entry (R180, R185). -/
def State.sampleEntry (s : State) (c : Coll) (i : Nat) (sel : Sel) : List Sample :=
  match sel.kind with
  | 2 => [deltaOf c sel (256 * i) sel.source (s.rd .htu (Reg.TAP_DIE_CNT_COUNT sel.source)) 0 0]
  | 3 => [deltaOf c sel (256 * i) sel.source (s.gauge sel.source) 0 0]
  | 4 => match sel.source with
    | 0 => [deltaOf c sel (256 * i) 0 (s.rd .htu (Reg.TAP_EN_PART_UJ c.part)) 0 0]
    | 1 => (List.range 6).map fun q => deltaOf c sel (256 * i + q) q (s.rd .htu (Reg.TAP_EN_QUEUE_UJ c.part q)) 0 0
    | _ => [deltaOf c sel (256 * i) 2 (s.rd .htu Reg.TAP_EN_DIE_UJ) 0 0]
  | _ =>
    let ns := (List.range 256).filter fun n =>
      if sel.first = 0xFFFF then s.owner n == c.part else sel.first ≤ n && n ≤ sel.last
    ns.map fun n => s.sampleCluster c i sel n

/-- Lists of at most `n` elements. -/
def chunked {α : Type} (n : Nat) : Nat → List α → List (List α)
  | 0, _ => []
  | _, [] => []
  | fuel + 1, l => l.take n :: chunked n fuel (l.drop n)

/-- A COUNTER_SAMPLE entry (R185). R56 has MEM_DIST carried in per-cluster records and R185 names no byte for it: it stands in byte 10 (DESIGN
CHOICE, log entry 138). -/
def Sample.bytes (x : Sample) (dist : Nat) : List Byte := le 8 x.v ++ le 1 x.src ++ le 1 x.flags ++ le 1 dist ++ zeros 1 ++ le 4 x.id

/-- MEM_DIST of the physical cluster that serves logical cluster `n`, as records of an epoch carry it (R56, R57): a value written in that epoch
only counts from the next. -/
def State.memDist (s : State) (n ep : Nat) : Nat :=
  match Sparse.find s.hx.memOld (s.physOf n) with
  | some e => if e.1 = ep then e.2 else s.rd .htu (Reg.TAP_PHYS_MEM_DIST (s.physOf n))
  | none => s.rd .htu (Reg.TAP_PHYS_MEM_DIST (s.physOf n))

/-- MEM_DIST of a physical cluster was written; `was` is the state before (R57). -/
def Prog.memDistWritten (p : Nat) (was : State) : Prog := .get fun s =>
  .cond (s.rd .htu (Reg.TAP_PHYS_MEM_DIST p) != was.rd .htu (Reg.TAP_PHYS_MEM_DIST p)
      && (Sparse.find s.hx.memOld p).map (·.1) != some (s.epoch .htu)) <|
    .htu fun x => { x with memOld := Sparse.put x.memOld p (s.epoch .htu, was.rd .htu (Reg.TAP_PHYS_MEM_DIST p)) }

/-- One ROW_SUMMARY entry: the saturating sum of a row's non-ABSENT values (R218). -/
def rowSummary (l : List Sample) (row : Nat) : List Byte :=
  let r := l.filter fun x => x.src / 16 == row
  let ok := r.filter fun x => !x.absent
  let sum := (ok.map (·.v)).sum
  let flags := (r.foldl (fun f x => f ||| x.flags) 0) ||| (if sum ≥ 2 ^ 64 then 8 else 0)
  le 8 (min sum (2 ^ 64 - 1)) ++ le 1 row ++ le 1 ok.length ++ le 1 flags ++ zeros 5

/-- The records of one entry with PER_CLUSTER: COUNTER_SAMPLE, or ROW_SUMMARY from ladder level L2 (R185, R218). -/
def Prog.sampleRecords (sid t i : Nat) (kind source : Nat) (l : List Sample) : Prog := .get fun s =>
  let pre (n : Nat) : List Byte := le 1 i ++ le 1 kind ++ le 1 source ++ zeros 1 ++ le 2 n ++ zeros 2
  let rst := l.any fun x => x.flags.testBit 0
  if s.ladderAt .htu (epochOf t) ≥ 2 ∧ (kind = 1 ∨ kind = 5) then
    let rows := (List.range 16).filter fun r => l.any fun x => x.src / 16 == r
    .cond (rows != []) <| .emitAt .htu sid (some t) fun r =>
      { r with typ := 0x21, rstCo := rst, payload := pre rows.length ++ rows.flatMap (rowSummary l) }
  else .each (chunked 64 256 l) fun c => .emitAt .htu sid (some t) fun r =>
    { r with typ := 0x20, rstCo := c.any fun x => x.flags.testBit 0, payload := pre c.length ++ c.flatMap fun x =>
      x.bytes (if kind = 1 ∨ kind = 5 then s.memDist x.src (epochOf t) else 0) }

/-- A SRC of R193. -/
def srcOf (die : Nat) (cluster : Option Nat) : Nat :=
  die % 2 ^ 17 * 256 + match cluster with | some n => n % 256 + 2 ^ 25 | none => 0

/-- One lane: an entry's contributions merged under the operator (R194, R199), coarse from ladder level L3 (R218). -/
def State.laneOfEntry (s : State) (c : Coll) (cn level : Nat) (sel : Sel) (l : List Sample) : LaneVal :=
  let shift := s.rd .htu (Reg.SHF_COLL_SHIFT cn)
  let p0 := s.rd .htu (Reg.SHF_COLL_P0 cn)
  let cl := sel.kind == 1 || sel.kind == 5
  let v := laneMergeAll c.op (p0 % 65536) ((l.filter fun x => !x.absent).map fun x =>
    laneOne c.op shift p0 x.v (srcOf (s.dieId .htu) (if cl then some x.src else none)))
  if level ≥ 3 then v.coarse else v

/-- The die partial of a collector (R199, R202, R218). -/
def State.diePart (s : State) (c : Coll) (cn t : Nat) (lanes : List (Sel × List Sample)) : Part :=
  let cl := lanes.filter fun e => e.1.kind == 1 || e.1.kind == 5
  let all := (cl.flatMap fun e => e.2.map (·.src)).eraseDups
  let got := (cl.flatMap fun e => (e.2.filter fun x => !x.absent).map (·.src)).eraseDups
  let some' (f : Sample → Bool) : Bool := lanes.any fun e => e.2.any f
  let level := s.ladderAt .htu (epochOf t)
  { op := c.op, level := 0, ladder := level, epoch := BitVec.ofNat 32 (epochOf t)
    flags := (if some' Sample.absent then flagPartial else 0) + (if some' Sample.sat then flagSat else 0)
      + (if c.op = 0x0D ∧ level ≥ 3 then flagCoarse else 0)
    members := all.length, contrib := got.length, dies := 1, clusters := got.length
    lanes := lanes.map fun e => s.laneOfEntry c cn level e.1 e.2 }

/-- The sheaf of a collector (R199). -/
def State.sheafKey (s : State) (u : UnitId) (c : Coll) (cn : Nat) : SheafKey :=
  { id := s.rd u (Reg.SHF_COLL_SHEAF_ID cn), part := c.part, digest := s.rd u (Reg.SHF_COLL_DIGEST cn) }

/-- A VC2 message of the HTU: STREAM and SEQUENCE 0 (R385). -/
def State.msg (s : State) (u : UnitId) (typ part t : Nat) (payload : List Byte) : Rec :=
  { typ, timev := s.timev u, degraded := s.ladder u ≥ 1, die := s.dieId u % 2 ^ 17, unit := unitCode u false, part
    epoch := if s.timev u then epochOf t % 65536 else 0, time := if s.timev u then t else 0, payload }

/-- A collector samples at capture instant `t` (R182, R185, R194, R199, R204, R221). -/
def Prog.sampleColl (cn t : Nat) (c : Coll) : Prog := .get fun s =>
  let got := c.sels.zipIdx.map fun (sel, i) => (i, sel, s.sampleEntry c i sel)
  let lanes := (got.filter fun e => !e.2.1.perClu).map fun e => (e.2.1, e.2.2)
  let part := s.diePart c cn t lanes
  let key := s.sheafKey .htu c cn
  let body := part.payload key lanes.length
  let bases := got.flatMap fun e => e.2.2.filterMap fun x => x.base.map fun b => (256 * e.1 + (if e.2.1.kind = 1 ∨ e.2.1.kind = 5 ∨ e.2.1.kind = 4 ∧ e.2.1.source = 1 then x.src else 0), b)
  let par := part.flags.testBit 0
  .seq [
    .each (got.filter fun e => e.2.1.perClu) fun e => .sampleRecords c.stream t e.1 e.2.1.kind e.2.1.source e.2.2,
    .cond (lanes != [] && s.timev .htu && s.policy .htu) <| .both
      (.sendPkt .htu 0 2 (Rec.bytes { s.msg .htu 0x30 c.part t body with partial' := par }))
      (.cond (s.on .htu (Reg.SHF_COLL_LOCAL cn)) (.emitSvc .htu c.stream (some 1) (some t) fun r =>
        { r with typ := 0x30, partial' := par, payload := body })),
    .dev .htu fun d => { d with colls := d.colls.map fun e =>
      if e.1 = cn then (cn, { c with bases := bases.foldl (fun l b => Sparse.put l b.1 b.2) c.bases }) else e }]

end Sys2Proof.Machine
end

