-- ==== Sys2Proof/Machine/Collect.lean ====
section
/-! DEFINITION. Collectors: arming, starting, stopping and disarming (R95, R117, R118, R167, R180 to R187, R190, R201), snapshots,
periodic captures and sweeps (R36, R51, R183, R186, R205), and the change of partition (R119, R168). -/

namespace Sys2Proof.Machine

-- roles of the VTA in the tree

/-- LEVEL of a merge point (R202), and the selection kind of a collector that merges there (R190). -/
def levelNo : Level → Nat
  | .tray => 1
  | .rack => 2
  | .row => 3
  | .hall => 4

/-- The level that a selection kind of R190 merges at. -/
def kindLevel (k : Nat) : Option Level :=
  match k with
  | 0x10 => some .tray
  | 0x11 => some .rack
  | 0x12 => some .row
  | 0x13 => some .hall
  | _ => none

/-- The place of a level in R385's UNIT encoding: 0 tray to 3 hall. -/
def levelRank (l : Level) : Nat := levelNo l - 1

/-- The rank of the role that a VTA collector's stream belongs to (R34, R190); 0 on the HTU. -/
def selRank (sels : List Sel) : Nat := ((sels.head?.bind fun e => kindLevel e.kind).map levelRank).getD 0

/-- Inputs of a merge point (R189). -/
def levelInputs : Level → Nat
  | .tray => 64
  | .rack => 8
  | .row => 16
  | .hall => 16

/-- The VTA's own input number at the level above one of its merge points (R21): its tray, its rack, or its row. -/
def ownIndex : Option Level → Nat
  | some .rack => Config.vtaAddr.toNat / 8 % 16
  | some .row => Config.vtaAddr.toNat / 128
  | some .hall => 0
  | _ => Config.vtaAddr.toNat % 8

/-- The role entry of a level. -/
def State.roleAt (s : State) (l : Level) : Option RoleSt := s.vx.roles.find? (·.level == l)

/-- Whether this VTA holds a role for the epoch of snapshot instant `t`: every VTA holds the tray role; a change of holder takes effect
at the first epoch whose instant is later than the change, and every earlier epoch stays with the holder before (R27, R28). -/
def State.holdsRoleAt (s : State) (l : Level) (t : Nat) : Bool :=
  l == .tray || (match s.roleAt l with
    | some r => (if r.since < t then r.holder else r.prev) == Config.vtaAddr.toNat
    | none => false)

/-- Whether this VTA holds a role now (R27, R28). -/
def State.holdsRole (s : State) (l : Level) : Bool := s.holdsRoleAt l (s.ns .vta)

/-- Whether this VTA holds a role at a level for the epoch that a message belongs to: that of its merge here if one is open, else that of
its TIME where it carries one, else now (R28). -/
def State.holdsFor (s : State) (l : Level) (merge : Option Nat) (r : Rec) : Bool :=
  s.holdsRoleAt l (merge.getD (if r.timev then r.time else s.ns .vta))

/-- A message of a unit below comes from the holder that a ROLE_CHANGE named, where one did and its instant has passed (R318): its DIE
names the sender (R34). -/
def State.fromHead (s : State) (l : Level) (input : Nat) (r : Rec) : Bool :=
  match s.vx.heads.find? fun h => h.1 == l && h.2.1 == input with
  | some h => (if r.timev then r.time else s.ns .vta) ≤ h.2.2.2 || r.die / 64 == h.2.2.1
  | none => true

/-- The highest role held. -/
def State.topRole (s : State) : Level :=
  if s.holdsRole .hall then .hall else if s.holdsRole .row then .row else if s.holdsRole .rack then .rack else .tray

/-- The lead in force in ns of a command that names the units below (R205, R312). -/
def State.treeLead (s : State) : Nat :=
  match s.topRole with
  | .tray => 10000
  | .rack => 30000
  | .row => 50000
  | .hall => 80000

/-- An instant lies nearer than its lead (R51, R205): (DMAX + 2) × 0.8 ns + 20 ns on the HTU; on the VTA the lead of its role where the command
names the units below, else any later instant serves. -/
def State.tooSoon (s : State) (u : UnitId) (wide : Bool) (t : Nat) : Bool :=
  match u with
  | .htu => t * 655360 < s.ns16 .htu * 10 + (8 * (s.rd .htu Reg.TAP_HEDGE_DMAX_DMAX + 2) + 200) * 65536
  | .vta => if wide then t * 65536 < s.ns16 .vta + s.treeLead * 65536 else t * 65536 ≤ s.ns16 .vta

-- selection entries

/-- Number of selection entries that fit the parameters. -/
def selCount (p : Packet) : Nat := (p.params.length - 16) / 16

/-- A selection entry (R180). -/
def selAt (p : Packet) (i : Nat) : Sel :=
  let b := 16 + 16 * i
  let f := arg p (b + 3) 1
  { kind := arg p b 1, source := arg p (b + 1) 1, event := arg p (b + 2) 1, delta := f.testBit 0, perClu := f.testBit 1
    cmd := f.testBit 2, first := arg p (b + 8) 2, last := arg p (b + 10) 2 }

/-- The selection entries of an ARM_COLLECTOR. -/
def selsOf (p : Packet) : List Sel := (List.range (selCount p)).map (selAt p)

/-- Sources of a kind on the HTU (R175 to R177, R180). -/
def sourceCount (k : Nat) : Nat :=
  match k with
  | 1 => 16
  | 2 => 13
  | 3 => 0x50
  | 4 => 3
  | 5 => 3
  | _ => 0

/-- The detail of R181, R190 or R191 that one entry fails with; 0 when it passes. -/
def State.selCheck (s : State) (u : UnitId) (op : Nat) (e : Sel) : Nat :=
  match u with
  | .vta => match kindLevel e.kind with
    | none => 0x102
    | some l =>
      if !s.holdsRole l then 0x102
      else if e.source ≠ 0 ∨ e.event = 0 ∨ e.event > 64 then 0x103
      else if e.first > e.last ∨ e.last ≥ levelInputs l then 0x104
      else if e.cmd then 0x105
      else if op = opNone then 0x108 else 0
  | .htu =>
    if e.kind = 0 ∨ e.kind > 5 then 0x102
    else if e.source ≥ sourceCount e.kind ∨ (if e.kind = 1 then 0x25 < e.event ∧ e.event ≠ 0xFF else e.event ≠ 0) then 0x103
    else if (e.kind = 1 ∨ e.kind = 5) ∧ e.first ≠ 0xFFFF ∧ (e.first > e.last ∨ e.last > 255) then 0x104
    else if e.cmd ∧ (!e.perClu ∨ e.kind ≠ 1 ∨ !s.on .htu Reg.TAP_CMD_CFG_CMD_EN) then 0x105
    else if e.delta ∧ e.kind = 3 then 0x106
    else if op = opNone ∧ !e.perClu then 0x108 else 0

/-- The die-wide roles: partition 0 with PROVIDER, FAULT_MANAGER, OPERATOR or PEER (R118). -/
def dieWide (part role : Nat) : Bool := part == 0 && [1, 4, 5, 6].contains role

/-- Whether the filter refuses an entry (R118, R187): a VTA entry that may merge more than one die is global. -/
def State.selDenied (s : State) (u : UnitId) (part role : Nat) (e : Sel) : Bool :=
  match u with
  | .vta => (e.kind != 0x10 || e.first < e.last) && !dieWide part role
  | .htu => match e.kind with
    | 1 => e.source < 8 || (e.first != 0xFFFF && (List.range 256).any fun n => e.first ≤ n && n ≤ e.last && s.owner n != part)
    | 2 => !dieWide part role
    | 3 => !dieWide part role
    | 4 => e.source == 2 && !dieWide part role
    | _ => e.first != 0xFFFF && (List.range 256).any fun n => e.first ≤ n && n ≤ e.last && s.owner n != part

/-- The first entry that fails, in order: BAD_PARAM with its detail and index, or DENIED with its index (R118, R181). Gorse
passes the filter (R187). -/
def State.selFail (s : State) (u : UnitId) (part role op : Nat) (gorse : Bool) : Nat → List Sel → Option Ans
  | _, [] => none
  | i, e :: es =>
    let d := s.selCheck u op e
    if d ≠ 0 then some (badParam d i)
    else if !gorse ∧ s.selDenied u part role e then some { status := stDenied, detail := i }
    else s.selFail u part role op gorse (i + 1) es

/-- Stream IDs of a unit (R32): 14 bits on the HTU, 16 bits on the VTA. -/
def streamCount : UnitId → Nat
  | .htu => 16384
  | .vta => 65536

/-- A stream ID not in use, if there is one (R95). -/
def State.freeStream (s : State) (u : UnitId) : Option Nat :=
  let used := (s.dev u).streams
  (List.range (used.length + 1)).find? fun i => i < streamCount u && (Sparse.find used i).isNone

/-- The armed collector of a number. -/
def State.coll (s : State) (u : UnitId) (c : Nat) : Option Coll := Sparse.find (s.dev u).colls c

/-- A collector that waits for its arm time. -/
def State.armPending (s : State) (u : UnitId) (c : Nat) : Bool := (s.dev u).sched.any fun e => e.kind == .armTime c

/-- Lanes of a collector (R191, R199). -/
def laneCount (u : UnitId) (sels : List Sel) : Nat :=
  match u with
  | .htu => (sels.filter fun e => !e.perClu).length
  | .vta => (sels.head?.map (·.event)).getD 0

/-- Bytes of a collector's lane payloads with their prefix (R201). -/
def laneCost (u : UnitId) (op : Nat) (sels : List Sel) : Nat :=
  let n := laneCount u sels
  if n = 0 then 0 else 32 + n * laneMax op

/-- Collectors that hold a share of the sheaf budget: RUNNING, DRAINING, or armed and waiting for the arm time (R201). -/
def State.budgeted (s : State) (u : UnitId) (but : Nat) : List Coll :=
  ((s.dev u).colls.filter fun e => e.1 != but && ((s.fn u (fidCollector e.1)).st == .running
    || (s.fn u (fidCollector e.1)).st == .draining || s.armPending u e.1)).map (·.2)

/-- Whether a collector would exceed the sheaf budget (R201). -/
def State.overBudget (s : State) (u : UnitId) (c part op : Nat) (sels : List Sel) : Bool :=
  let cost := laneCost u op sels
  let live := s.budgeted u c
  let sum (l : List Coll) : Nat := (l.map fun x => laneCost u x.op x.sels).sum
  cost != 0 && match u with
    | .htu => sum live + cost > 4096 || (part != 0 && sum (live.filter (·.part != 0)) + cost > 3072)
    | .vta =>
      let k := (sels.head?.map (·.kind)).getD 0
      sum (live.filter fun x => (x.sels.head?.map (·.kind)).getD 0 == k) + cost > 32768

/-- SHF_BUDGET.USED follows the budget; the VTA shows that of its tray role (R201). -/
def Prog.showBudget (u : UnitId) : Prog := .get fun s =>
  let l := (s.budgeted u 4096).filter fun x => u == .htu || (x.sels.head?.map (·.kind)).getD 0 == 0x10
  .wr u Reg.SHF_BUDGET_USED (l.map fun x => laneCost u x.op x.sels).sum

-- partition slices

/-- The clusters of an entry that belong to a partition. -/
def State.selClusters (s : State) (part : Nat) (e : Sel) : List Nat :=
  (List.range 256).filter fun n => s.owner n == part && (e.first == 0xFFFF || (e.first ≤ n && n ≤ e.last))

/-- Whether a collector references a partition slice of a cluster (R167). -/
def State.references (s : State) (c : Coll) (n sl : Nat) : Bool :=
  s.owner n == c.part && c.sels.any fun e => e.kind == 1 && e.source == sl && (e.first == 0xFFFF || (e.first ≤ n && n ≤ e.last))

/-- The slice settings that the entries ask for, in order: cluster, slice, code, entry (R167). -/
def State.claims (s : State) (part : Nat) (sels : List Sel) : List (Nat × Nat × Nat × Nat) :=
  (sels.zipIdx.filter fun e => e.1.kind == 1 && e.1.source ≥ 8 && e.1.event != 0xFF).flatMap fun e =>
    (s.selClusters part e.1).map fun n => (n, e.1.source, e.1.event, e.2)

/-- The first entry whose code differs from the one its slice holds or an earlier entry set (R167). -/
def State.claimFail (s : State) (used : Nat → Nat → Bool) : List (Nat × Nat × Nat × Nat) → List (Nat × Nat × Nat) → Option Nat
  | [], _ => none
  | (n, sl, ev, i) :: t, set =>
    let cur := match set.find? fun x => x.1 == n && x.2.1 == sl with
      | some x => x.2.2
      | none => if used n sl then s.rd .htu (Reg.TAP_SLICE_CFG_EVENT n sl) else 0xFF
    if cur = 0xFF ∨ cur = ev then s.claimFail used t ((n, sl, ev) :: set) else some i

/-- Streams that a unit signs at most at once (R127). -/
def sigLimit : UnitId → Nat
  | .htu => 256
  | .vta => 4096

/-- Partition slices that no collector but a FAULTED one references return to 0xFF (R167). -/
def Prog.releaseSlices : Prog := .get fun s =>
  let live := (s.h.colls.filter fun e => (s.fn .htu (fidCollector e.1)).st != .faulted).map (·.2)
  .each (List.range 256) fun n => .each ((List.range 8).map (· + 8)) fun sl =>
    .cond (s.rd .htu (Reg.TAP_SLICE_CFG_EVENT n sl) != 0xFF && !live.any fun c => s.references c n sl)
      (.setSlice n sl 0xFF)

-- membership messages

/-- The payload of a MEMBERSHIP message or record: kind (0 JOIN, 1 LEAVE), cause, SHEAF_ID, DIGEST, input and epoch. -/
def memberPayload (leave : Bool) (cause : Nat) (k : SheafKey) (input ep : Nat) : List Byte :=
  le 1 leave.toNat ++ le 1 cause ++ le 2 k.id ++ le 4 k.digest ++ le 4 input ++ le 4 ep

/-- A collector changes. -/
def Prog.modColl (u : UnitId) (cn : Nat) (f : Coll → Coll) : Prog :=
  .dev u fun d => { d with colls := d.colls.map fun e => if e.1 = cn then (cn, f e.2) else e }

/-- A collector with lanes announces JOIN or LEAVE: the HTU on VC2; a VTA collector with UP = 1 to the role above (R210, R211). A JOIN
waits for TIMEV and the die ID (R221), and only what has joined leaves. -/
def Prog.announce (u : UnitId) (leave : Bool) (cn : Nat) (ep : Nat) : Prog := .get fun s =>
  .opt (s.coll u cn) fun c =>
    let r (input : Nat) : Rec := { s.msg u 0x34 c.part (s.ns u) (memberPayload leave 0 (s.sheafKey u c cn) input ep) with
      unit := unitCode u false (selRank c.sels) }
    .cond (laneCount u c.sels != 0 && (if leave then c.joined else s.timev u && s.assigned u)) <| .both
      (.modColl u cn fun c => { c with joined := !leave })
      (match u with
        | .htu => .sendPkt .htu 0 2 (r (s.dieId .htu)).bytes
        | .vta => .cond (s.on .vta (Reg.SHF_COLL_UP cn))
            (.ethRec true 6 (r (ownIndex (c.sels.head?.bind fun e => kindLevel e.kind)))))

-- arming

/-- DIGEST and LANES are computed at ARM_COLLECTOR and START_FUNCTION (R199). -/
def Prog.computeDigest (u : UnitId) (cn op : Nat) (sels : List Sel) : Prog := .get fun s =>
  let n := laneCount u sels
  .both (.wr u (Reg.SHF_COLL_LANES cn) n)
    (.wr u (Reg.SHF_COLL_DIGEST cn) (sheafDigest op n (s.rd u (Reg.SHF_COLL_SHIFT cn)) (s.rd u (Reg.SHF_COLL_P0 cn))))

/-- A collector gives up its stream, its schedule entry, its slices and its share of the budget (R184). -/
def Prog.releaseColl (u : UnitId) (cn : Nat) : Prog := .get fun s =>
  .opt (s.coll u cn) fun c => .seq [
    .each ((s.dev u).sched.filter fun e => e.kind == .armTime cn) fun e =>
      .both (.unschedule u e) (.answer u e.cmd { status := stAborted }),
    .closeStream u c.stream,
    .dev u fun d =>
      let colls := Sparse.del d.colls cn
      { d with
        colls := colls
        sched := d.sched.filter fun e => match e.kind with
          | .periodic arm per => colls.any fun x => x.2.arm == arm && x.2.period * 1000 == per
          | _ => true },
    .cond (u == .htu) .releaseSlices,
    .setFn u (fidCollector cn) fun _ => {},
    .showBudget u]

/-- A collector is unarmed: everything it held is released, and its SHF_COLL context is cleared (R184). -/
def Prog.unarm (u : UnitId) (cn : Nat) : Prog := .get fun s => .cond (s.coll u cn).isSome <| .seq [
  .releaseColl u cn,
  .wr u (Reg.SHF_COLL_SHEAF_ID cn) 0, .wr u (Reg.SHF_COLL_UP cn) 0, .wr u (Reg.SHF_COLL_LOCAL cn) 0,
  .wr u (Reg.SHF_COLL_SHIFT cn) 0, .wr u (Reg.SHF_COLL_LANES cn) 0, .wr u (Reg.SHF_COLL_DIGEST cn) 0,
  .wr u (Reg.SHF_COLL_P0 cn) 0]

/-- A collector goes FAULTED (R91, R105, R167): one that waits for its arm time leaves the schedule, its slices are released, and it holds no
share of the sheaf budget any more. -/
def Prog.faultColl (u : UnitId) (cn : Nat) : Prog := .get fun s => .cond ((s.fn u (fidCollector cn)).st != .faulted) <| .seq [
  .each ((s.dev u).sched.filter fun e => e.kind == .armTime cn) fun e => .both (.unschedule u e) (.answer u e.cmd { status := stAborted }),
  .faultFn u (fidCollector cn),
  .cond (u == .htu) .releaseSlices,
  .showBudget u]

/-- The arm instant of an ARM_COLLECTOR: 0 means the start of the next epoch (R95). -/
def State.armInstant (s : State) (u : UnitId) (arm : Nat) : Nat := if arm = 0 then (s.ns u / 1000 + 1) * 1000 else arm

/-- ARM_COLLECTOR's parameter checks of R95, R181, R190, R191, R257 and R387 in order; detail 0x107 comes before the entries' failures (DESIGN
CHOICE, log entry 127). -/
def State.armCheck (s : State) (u : UnitId) (part role : Nat) (gorse : Bool) (p : Packet) : Option Ans :=
  let sid := arg p 0 2
  let n := selCount p
  let cn := targetInst p.target
  (firstBad [
    (p.params.length < 16, badParam 0x101),
    (sid ≠ 0xFFFF ∧ sid ≥ streamCount u, badParam 0x109),
    (sid ≠ 0xFFFF ∧ (Sparse.find (s.dev u).streams sid).isSome, badParam 0x10A),
    (n = 0 ∨ n > 64 ∨ p.params.length ≠ 16 + 16 * n ∨ (u = .vta ∧ n ≠ 1), badParam 0x101),
    (arg p 8 8 % 1000 ≠ 0, badParam 0x107),
    (arg p 3 1 > 0x0F, badParam 0x108)]).orElse fun _ =>
  (s.selFail u part role (arg p 3 1) gorse 0 (selsOf p)).orElse fun _ => firstBad [
    (u = .htu ∧ (arg p 2 1).testBit 2 ∧ part ≠ 0, { status := stDenied }),
    (s.rd u (Reg.SHF_COLL_SHEAF_ID cn) = 0xFFFF, badParam 0x112)]

/-- Ownership of a collector (R117). -/
def State.ownsColl (s : State) (u : UnitId) (p : Packet) : Bool :=
  match s.coll u (targetInst p.target) with
  | some c => !c.gorse && ([1, 4, 5].contains p.roleN || (c.part == p.part && c.role == p.roleN))
  | none => true

/-- ARM_COLLECTOR's resource check (R95, R127, R163, R167, R201): a collector whose (arm time, period) pair stands in the schedule needs no
entry of its own (R183). -/
def State.armLate (s : State) (u : UnitId) (part : Nat) (p : Packet) : Option Ans :=
  let cn := targetInst p.target
  let sels := selsOf p
  let others := ((s.dev u).colls.filter fun e => e.1 != cn && (s.fn u (fidCollector e.1)).st != .faulted).map (·.2)
  let signed := ((s.dev u).streams.filter fun e => e.2.sig && (s.coll u cn).map (·.stream) != some e.1).length
  (firstBad [
    (arg p 0 2 = 0xFFFF ∧ (s.freeStream u).isNone, { status := stNoResource }),
    ((arg p 2 1).testBit 1 ∧ signed ≥ sigLimit u, { status := stNoResource }),
    (s.overBudget u cn part (arg p 3 1) sels, { status := stNoResource }),
    (s.schedFull u ∧ !(s.pairs u).contains (s.armInstant u (arg p 8 8), arg p 4 4 * 1000), { status := stNoResource })]).orElse fun _ =>
  if u = .vta then none else
    (s.claimFail (fun n sl => others.any fun c => s.references c n sl) (s.claims part sels) []).map fun i =>
      { status := stNoResource, detail := 0x100, result := i }

/-- ARM_COLLECTOR's time check (R51, R80, R143, R154): with a period, the arm time is the first capture's and needs its lead. -/
def State.armTimeCheck (s : State) (u : UnitId) (p : Packet) : Option Ans := firstBad [
  (!s.timev u, { status := stTimeInvalid }),
  (arg p 8 8 ≠ 0 ∧ arg p 8 8 ≤ s.ns u ∨ s.past u (s.armInstant u (arg p 8 8))
    ∨ arg p 4 4 ≠ 0 ∧ s.tooSoon u false (s.armInstant u (arg p 8 8)), { status := stDeadline })]

/-- A collector is armed for an instant: its stream opens, its slices are set, and its schedule entries are placed (R95,
R167, R183, R199). One that is still armed gives up what it held, and keeps the settings of SHF_COLL (R91). -/
def Prog.arm (u : UnitId) (part role m : Nat) (gorse : Bool) (p : Packet) (cmd : Option (Nat × BitVec 16)) : Prog :=
  let cn := targetInst p.target
  let sels := selsOf p
  let f := arg p 2 1
  .both (.releaseColl u cn) <| .get fun s =>
    let sid := if arg p 0 2 = 0xFFFF then (s.freeStream u).getD 0 else arg p 0 2
    let t := s.armInstant u (arg p 8 8)
    let period := arg p 4 4
    let retained := u == .htu && f.testBit 3
    let c : Coll := { cid := cn, stream := sid, ord := f.testBit 0, sig := f.testBit 1, host := u == .htu && f.testBit 2
                      retain := retained, op := arg p 3 1, period, arm := t, sels, part, role, mbx := m, gorse, reply := cmd.map (·.2) }
    .seq [
      .openStream u sid { owner := .collector cn, part, svc := if role = roleAnalytics then 5 else 0, bracken := role == roleAnalytics, rank := selRank sels, armT := t
                          ord := f.testBit 0, sig := f.testBit 1, host := u == .htu && f.testBit 2, retain := retained },
      .dev u fun d => { d with colls := Sparse.put d.colls cn c },
      .cond (u == .htu) (.each (s.claims part sels) fun e => .setSlice e.1 e.2.1 e.2.2.1),
      .computeDigest u cn (arg p 3 1) sels,
      .schedule u { t, kind := .armTime cn, cmd },
      .cond (period != 0 && !(s.dev u).sched.any fun e => match e.kind with
          | .periodic a q => a == t && q == period * 1000
          | _ => false)
        (.schedule u { t, kind := .periodic t (period * 1000), cmd := none }),
      .showBudget u]

/-- ARM_COLLECTOR (R95, R180 to R183). -/
def opArmCollector : Op where
  code := 0x10
  v1 := true
  classes := [1]
  plen := fun _ => true
  rsvd := fun _ p => arg p 2 1 / 16 != 0 || (List.range (selCount p)).any fun i =>
    arg p (19 + 16 * i) 1 / 8 != 0 || anySet p (20 + 16 * i) 4 || anySet p (28 + 16 * i) 4
  perms := permConfig
  ready := fun s u _ => s.policy u
  owner := State.ownsColl
  check := fun s u _ p => (s.armCheck u p.part p.roleN false p).orElse fun _ =>
    match (s.fn u (fidCollector (targetInst p.target))).st with
    | .stopped => none
    | .draining => some { status := stBusy }
    | _ => some { status := stNotStopped }
  late := fun s u _ p => (s.armLate u p.part p).orElse fun _ => s.armTimeCheck u p
  run := fun u m p => .arm u p.part p.roleN m false p (some (m, p.tag))

/-- The first epoch of a collector's captures, as its JOIN names it (R210). -/
def Prog.joins (u : UnitId) (cn t : Nat) : Prog := .announce u false cn (epochOf t)

/-- A collector's arm time (R183): it goes RUNNING and the ARM_COLLECTOR reply gives its stream ID; an instant that passes
without time is answered DEADLINE_PASSED (R154) and the collector is unarmed; a collector that Gorse armed waits for time (R122). -/
def Prog.armDue (u : UnitId) (cn : Nat) : Prog := .get fun s =>
  .opt ((s.dev u).sched.find? fun e => e.kind == .armTime cn && s.due u e.t) fun e =>
    if s.timev u then .seq [
      .unschedule u e,
      .acted u e.t,
      .setFn u (fidCollector cn) fun _ => { st := .running },
      .joins u cn e.t,
      .opt (s.coll u cn) fun c => .answer u e.cmd { status := stOk, result := c.stream },
      .showBudget u]
    else .cond (!((s.coll u cn).map (·.gorse)).getD false)
      (.seq [.unschedule u e, .answer u e.cmd { status := stDeadline }, .unarm u cn])

-- start and stop

/-- A collector leaves its sheaf as planned (R211): its last epoch is that of its latest capture. -/
def Prog.leaves (u : UnitId) (cn : Nat) : Prog := .get fun s =>
  .announce u true cn (match (s.coll u cn).bind (·.lastT) with
    | some t => epochOf t
    | none => (s.epoch u + 2 ^ 32 - 1) % 2 ^ 32)

/-- RUNNING collectors whose JOIN has waited for TIMEV or the die ID announce it (R221), with the epoch of their first capture from now. -/
def Prog.joinReady (u : UnitId) : Prog := .get fun s => .cond (s.timev u && s.assigned u) <|
  .each ((s.dev u).colls.filter fun e => !e.2.joined && (s.fn u (fidCollector e.1)).st == .running) fun e =>
    .joins u e.1 ((((s.dev u).sched.find? fun x => x.kind == .periodic e.2.arm (e.2.period * 1000)).map (·.t)).getD (s.ns u))

/-- START_FUNCTION of a collector: only an armed one can run (R184); the sheaf budget holds (R201). -/
def State.startCollCheck (s : State) (u : UnitId) (cn : Nat) : Option Ans :=
  match s.coll u cn with
  | none => some (badParam 3)
  | some c => firstBad [
      (s.armPending u cn, { status := stBusy }),
      (s.rd u (Reg.SHF_COLL_SHEAF_ID cn) = 0xFFFF, badParam 0x112),
      (s.overBudget u cn c.part c.op c.sels, { status := stNoResource }),
      (c.period ≠ 0 ∧ s.schedFull u ∧ !(s.pairs u).contains (c.arm, c.period * 1000), { status := stNoResource })]

/-- A STOPPED collector runs again with its stored settings (R91, R199); its next periodic instant lies on its own grid
(R183), at or after the first that R51 and R143 admit. -/
def Prog.startColl (u : UnitId) (cn : Nat) : Prog := .get fun s =>
  .opt (s.coll u cn) fun c =>
    let per := c.period * 1000
    let next (t : Nat) : Nat := c.arm + (t - c.arm + per - 1) / per * per
    let near := next (s.ns u + 1)
    let t := if per = 0 then s.ns u
      else next (max (if s.tooSoon u false near then near + 1 else near) (if (s.dev u).stepped then s.rd u Reg.TIM_HIGH_WATER_NS + 1 else 0))
    .seq [.computeDigest u cn c.op c.sels, .setFn u (fidCollector cn) fun _ => { st := .running },
      .joins u cn t,
      .cond (per != 0 && !(s.dev u).sched.any fun e => match e.kind with
          | .periodic a q => a == c.arm && q == per
          | _ => false)
        (.schedule u { t, kind := .periodic c.arm per, cmd := none }),
      .showBudget u]

/-- DRAIN_LIMIT ends the drain of a collector: its records that wait are discarded under a LOSS record (R91, R184). -/
def Prog.discardColl (u : UnitId) (cn : Nat) (k : Nat → Prog) : Prog := .get fun s =>
  match s.coll u cn with
  | none => k 0
  | some c =>
    let mine (q : QItem) : Bool := q.r.stream == c.stream && q.r.die == s.dieId u % 2 ^ 17 && q.r.side == (match u with | .htu => 0 | .vta => 8)
    let gone := ((s.dev u).bulk.filter mine).map (·.r)
    .seq [.dev u fun d => { d with bulk := d.bulk.filter fun q => !mine q }, .lossOf u c.stream gone lossDrain, k gone.length]

/-- DISARM_COLLECTOR (R184): stops a RUNNING collector, which is unarmed once it is STOPPED; else unarms at once. -/
def opDisarm : Op where
  code := 0x11
  v1 := true
  classes := [1]
  plen := (· == 8)
  rsvd := fun _ p => anySet p 4 4
  perms := permConfig
  owner := State.ownsColl
  check := fun s u _ p => firstBad [
    ((s.fn u (fidCollector (targetInst p.target))).st = .draining, { status := stBusy })]
  run := fun u m p =>
    let cn := targetInst p.target
    .get fun s => match (s.fn u (fidCollector cn)).st with
      | .running => .both (.setFn u (fidCollector cn) fun f =>
            { f with st := .draining, stopper := some (m, p.tag), limit := arg p 0 4, disarm := true })
          (.leaves u cn)
      | _ => .both (.unarm u cn) (.reply u m p.tag { status := stOk })

-- captures

/-- The collectors that a capture at `t` takes: RUNNING with period 0, in the scope of a snapshot entry (R205), and those
of the periodic entries of its epoch (R183). -/
def State.captured (s : State) (u : UnitId) (t : Nat) (per : List Sched) : List (Nat × Coll) :=
  let snaps := (s.dev u).sched.filter fun e => e.t == t
  (s.dev u).colls.filter fun e =>
    (s.fn u (fidCollector e.1)).st == .running &&
    (if e.2.period = 0 then snaps.any fun x => match x.kind with
        | .snapshot p r => e.2.part == p || (p == 0 && r != roleTenant && r != roleAnalytics)
        | .pulseSnap p r => e.2.part == p || (p == 0 && r != roleTenant && r != roleAnalytics)
        | _ => false
      else per.any fun x => match x.kind with
        | .periodic a q => e.2.arm == a && e.2.period * 1000 == q
        | _ => false)

/-- The level at which a VTA collector merges. -/
def Coll.level (c : Coll) : Level := ((c.sels.head?.bind fun e => kindLevel e.kind)).getD .tray

/-- Members of a sheaf at a level for an epoch, within a collector's selection (R190, R210). -/
def State.membersFor (s : State) (c : Coll) (k : SheafKey) (ep : Nat) : List Nat :=
  let e := c.sels.headD { kind := 0x10, source := 0, event := 0, delta := false, perClu := false, cmd := false, first := 0, last := 63 }
  ((s.vx.members.filter fun x => x.level == c.level && x.key == k && serialGe 32 ep x.first.toNat
      && (match x.last with
        | some l => serialGe 32 l.toNat ep
        | none => true) && e.first ≤ x.input && x.input ≤ e.last).map (·.input)).eraseDups

/-- The merge of a VTA collector opens for the epoch of `t`, its members and its ladder level fixed at T (R207, R210, R218); with no member it
starts at once. -/
def Prog.openMerge (cn t : Nat) (c : Coll) : Prog := .get fun s =>
  let k := s.sheafKey .vta c cn
  let ep := BitVec.ofNat 32 (epochOf t)
  let mem := s.membersFor c k (epochOf t)
  .cond (s.holdsRoleAt c.level t && !s.vx.merges.any fun x => x.level == c.level && x.coll == some cn && x.key == k && x.epoch == ep) <|
    .vta fun x => { x with merges := x.merges ++
      [{ level := c.level, coll := some cn, key := k, epoch := ep, t, members := mem, parts := [], left := [], started := mem.isEmpty
         ladder := s.ladderAt .vta (epochOf t) }] }

/-- A periodic entry advances by its period, or leaves when no armed collector shares it (R183). -/
def Prog.nextPeriod (u : UnitId) (e : Sched) : Prog := .get fun s =>
  match e.kind with
  | .periodic a per => .both (.unschedule u e)
      (.cond (per != 0 && (s.dev u).colls.any fun x => x.2.arm == a && x.2.period * 1000 == per
          && (s.fn u (fidCollector x.1)).st != .draining)
        (.schedule u { e with t := e.t + per }))
  | _ => .skip

/-- Every collector of a periodic entry counts a skipped capture (R183). -/
def Prog.skipPeriod (u : UnitId) (e : Sched) : Prog := .both
  (match e.kind with
    | .periodic a per =>
      let skip (c : Coll) : Coll := if c.arm = a ∧ c.period * 1000 = per then { c with skipped := c.skipped + 1 } else c
      .dev u fun d => { d with colls := d.colls.map fun x => (x.1, skip x.2) }
    | _ => .skip)
  (.nextPeriod u e)

/-- The capture at `t` (R49 to R51, R169, R183, R204): slices are carried, collectors sample, and SHF_EPOCH takes the epoch. -/
def Prog.captureAt (u : UnitId) (t : Nat) : Prog := .get fun s =>
  let per := (s.dev u).sched.filter fun e => e.t / 1000 == t / 1000 && (match e.kind with
    | .periodic _ _ => true
    | _ => false)
  .seq [
    .cond (u == .htu) (.both .hedgeBusy (.each (List.range 256) .carryAll)),
    .each (s.captured u t per) fun (cn, c) => .both (.modColl u cn fun c => { c with lastT := some t }) (match u with
      | .htu => .sampleColl cn t { c with lastT := some t }
      | .vta => .openMerge cn t c),
    .wr u Reg.SHF_EPOCH_EPOCH (epochOf t),
    .takeInstant u t,
    .each per (.nextPeriod u)]

/-- Entries of the comparators that capture at exactly `t`, periodic ones apart. -/
def State.captureEntries (s : State) (u : UnitId) (t : Nat) : List Sched :=
  (s.dev u).sched.filter fun e => e.t == t && e.kind.captures && (match e.kind with
    | .periodic _ _ => false
    | _ => true)

/-- A periodic capture instant (R183): it joins a capture of its epoch that is still to come, is skipped, also where R143 refuses it, or
captures. -/
def Prog.periodicCapture (u : UnitId) (t : Nat) : Prog := .get fun s =>
  let mine := (s.dev u).sched.filter fun e => e.t == t && s.due u t && (match e.kind with
    | .periodic _ _ => true
    | _ => false)
  let other := (s.dev u).sched.any fun e => e.t / 1000 == t / 1000 && e.kind.captures && (match e.kind with
    | .periodic _ _ => false
    | _ => true)
  .cond (mine != []) <|
    if !s.timev u then .each mine (.skipPeriod u)
    else if other then .skip
    else if s.past u t ∨ s.nearOther u t ∨ (s.dev u).taken.any (fun x => x / 1000 == t / 1000) then .each mine (.skipPeriod u)
    else .captureAt u t

/-- SNAPSHOT_AT's checks 8 to 10 (R36, R51, R143, R163, R205). -/
def State.snapLate (s : State) (u : UnitId) (p : Packet) : Option Ans :=
  let t := arg p 0 8
  firstBad [
    (s.schedFull u, { status := stNoResource }),
    (!s.timev u, { status := stTimeInvalid }),
    (s.tooSoon u (arg p 8 1 == 1) t ∨ s.past u t, { status := stDeadline })]

/-- The units below this VTA in the roles it holds: die ports with a connection, then the units of the roles (R27, R205). -/
def State.portsBelow (s : State) : List Nat :=
  (s.v.conns.filter fun e => e.2.path.isSome).map (·.1)

/-- The level below one. -/
def levelBelow : Level → Option Level
  | .tray => none
  | .rack => some .tray
  | .row => some .rack
  | .hall => some .row

/-- An input of a level is this VTA's own merge point one level down. -/
def State.ownInput (s : State) (l : Level) (i : Nat) : Bool :=
  match levelBelow l with
  | some b => s.holdsRole b && i == ownIndex (some b)
  | none => false

/-- A command goes to the units below: mailbox 2 of the HTUs on VC0 with SCOPE 0, and mailbox 9 of the VTAs by Ethernet (R205,
R257, R313); `scopeAt` is the SCOPE byte, and `mask` gives the inputs of each held level. -/
def Prog.forwardBelow (opcode : Nat) (p : Packet) (scopeAt : Nat) (mask : Level → Word) (below : List Byte → List Byte) : Prog :=
  .get fun s => .both
    (.each (s.portsBelow.filter fun k => (mask .tray).getLsbD k) fun k =>
      .forward .vta k opcode { p with params := below (p.params.set scopeAt 0), role := 6 } none)
    (.each ([Level.rack, .row, .hall].filter s.holdsRole) fun l =>
      .each ((List.range (levelInputs l)).filter fun i => (mask l).getLsbD i && !s.ownInput l i) fun i =>
        .both (.ether (256 * levelNo l + i) 5 (16 + p.params.length) (.ethCmd (256 * levelNo l + i) opcode p)) (.cond (opcode == 0x12) (.vta fun x => { x with
          ethSnaps := (x.ethSnaps ++ [(256 * levelNo l + i, p.tag, epochOf (arg p 0 8))]).drop (x.ethSnaps.length - 255) })))

/-- SNAPSHOT_AT (R36, R51, R205). -/
def opSnapshotAt : Op where
  code := 0x12
  v1 := true
  plen := (· == 16)
  rsvd := fun _ p => anySet p 9 7
  perms := permSnap
  ready := fun s u _ => s.policy u
  check := fun s u _ p => firstBad [
    (arg p 8 1 > 1, badParam 0x100),
    (!s.past u (arg p 0 8) ∧ (s.epochTaken u (arg p 0 8) ∨ s.tooNear u (arg p 0 8)), { status := stBusy })]
  late := fun s u _ p => s.snapLate u p
  run := fun u m p => .both
    (.schedule u { t := arg p 0 8, kind := .snapshot p.part p.roleN, cmd := some (m, p.tag) })
    (.cond (arg p 8 1 == 1 && u == .vta) (.forwardBelow 0x12 p 8 (fun _ => BitVec.allOnes 64) id))

-- sweeps

/-- A record of a sweep: absolute values of a kind and source, as a COUNTER_SAMPLE or, from ladder level L2, a ROW_SUMMARY (R218). -/
def Prog.sweepRec (sid t kind source : Nat) (xs : List Sample) : Prog := .sampleRecords sid t 0 kind source xs

/-- The sample of a cluster in a sweep: the absolute value, ABSENT or FALLOW. -/
def State.sweepCluster (s : State) (n v : Nat) : Sample :=
  let t := s.station (s.physOf n)
  if s.absent n then { src := n, v := 0, flags := 2, id := t.oldId.toNat, base := none }
  else { src := n, v, flags := if t.fallow then 4 else 0, id := t.oldId.toNat, base := none }

/-- The 80 records of a sweep (R186). -/
def Prog.sweepRecords (sid t : Nat) : Prog := .get fun s =>
  let one (v src : Nat) : Sample := { src, v, flags := 0, id := 0, base := none }
  let clu (f : Nat → Nat) (kind source : Nat) : Prog :=
    .each (List.range 4) fun q => .sweepRec sid t kind source ((List.range 64).map fun i => s.sweepCluster (64 * q + i) (f (64 * q + i)))
  .seq [
    .each (List.range 16) fun sl => clu (fun n => s.rd .htu (Reg.TAP_ACC_ACC n sl)) 1 sl,
    .sweepRec sid t 2 0 ((List.range 13).map fun k => one (s.rd .htu (Reg.TAP_DIE_CNT_COUNT k)) k),
    .each (chunked 64 2 (List.range 0x50)) fun l => .sweepRec sid t 3 (l.headD 0) (l.map fun k => one (s.gauge k) k),
    clu (s.cluSource · 0) 5 0, clu (s.cluSource · 1) 5 1, clu (s.cluSource · 2) 5 2,
    .sweepRec sid t 4 2 [one (s.rd .htu Reg.TAP_EN_DIE_UJ) 2]]

/-- The first epoch start at least 5 µs after now, and after a step later than TIM_HIGH_WATER (R143), that keeps the spacing of R36, or that
already holds a capture it joins (R186): its instant. -/
def State.sweepInstant (s : State) (u : UnitId) : Nat :=
  let base := max ((s.ns u + 5000 + 999) / 1000) (if (s.dev u).stepped then s.rd u Reg.TIM_HIGH_WATER_NS / 1000 + 1 else 0)
  let try' (e : Nat) : Option Nat :=
    match ((s.dev u).sched.find? fun x => x.kind.captures && x.t / 1000 == e).map (·.t) with
    | some t => some t
    | none => if s.tooNear u (e * 1000) then none else some (e * 1000)
  ((List.range 256).findSome? fun i => try' (base + i)).getD (base * 1000)

/-- SWEEP_FULL (R186). The VTA has no stations: the stream of its reply must belong to a RUNNING collector all the same. -/
def opSweepFull : Op where
  code := 0x13
  plen := (· == 8)
  rsvd := fun _ p => anySet p 2 6
  perms := permSnap
  check := fun s u _ p =>
    let ok := (s.dev u).colls.any fun e => e.2.stream == arg p 0 2 && e.2.part == 0 && p.part == 0 && e.2.role == p.roleN
      && (s.fn u (fidCollector e.1)).st == .running
    let sweeping := s.hx.sweep.isSome
    firstBad [(!ok, badParam 0x110), (u = .htu ∧ sweeping, { status := stBusy })]
  late := fun s u _ _ => firstBad [(s.timev u ∧ s.schedFull u, { status := stNoResource })]
  run := fun u m p => match u with
    | .vta => .reply .vta m p.tag { status := stOk }
    | .htu => .get fun s => .both
        (.htu fun x => { x with sweep := some (m, p.tag, arg p 0 2) })
        (.cond (s.timev .htu) (.schedule .htu { t := s.sweepInstant .htu, kind := .sweep (arg p 0 2), cmd := none }))

/-- The sweep's records are written and its reply gives their count (R186). -/
def Prog.sweepDone (t : Nat) : Prog := .get fun s =>
  .opt s.hx.sweep fun (m, tag, sid) => .seq [
    .sweepRecords sid t,
    .htu fun x => { x with sweep := none },
    .reply .htu m tag { status := stOk, result := 80 }]

/-- The sweep captures at its instant, or without a strobe when TIMEV is 0 (R186). A capture that stands at its instant is joined: it has been
taken, or the slices are read with it. -/
def Prog.sweepCapture : Prog := .get fun s =>
  let read : Prog := .both .hedgeBusy (.each (List.range 256) .carryAll)
  match s.h.sched.find? fun e => match e.kind with
    | .sweep _ => true
    | _ => false with
  | some e => .cond (s.due .htu e.t) <| .seq [
      .unschedule .htu e,
      if !s.timev .htu then read
      else if s.h.taken.contains e.t then .skip
      else if (s.captureEntries .htu e.t).any (· != e) then read
      else .captureAt .htu e.t,
      .sweepDone e.t]
  | none => .cond (s.hx.sweep.isSome && !s.timev .htu) (.both read (.sweepDone (s.ns .htu)))

-- partitions

/-- A logical cluster passes to its pending partition (R119, R168): of the DELTA bases, those of its own samples are cleared. -/
def Prog.passCluster (n : Nat) : Prog := .get fun s =>
  let p := s.physOf n
  let perClu (c : Coll) (i : Nat) : Bool := (c.sels[i]?.map fun e => e.kind == 1 || e.kind == 5).getD false
  let cut (l : List (Nat × BitVec 40)) : List (Nat × BitVec 40) := l.filter fun e => e.1 < 8
  .seq [
    .carryAll n,
    .each ((List.range 8).map (· + 8)) fun sl => .both
      (.setSlice n sl 0xFF) (.wr .htu (Reg.TAP_ACC_ACC n sl) 0),
    .htu fun x => { x with last := x.last.filter fun e => e.1 / 16 != n || e.1 % 16 < 8 },
    .modStation p fun t => { t with slices := cut t.slices, oldSlices := cut t.oldSlices, cmds := cut t.cmds, oldCmds := cut t.oldCmds },
    .wr .htu (Reg.SEC_CLUSTER_PART_PART n) (s.rd .htu (Reg.SEC_CLUSTER_PART_PEND_PART n)),
    .wr .htu (Reg.SEC_CLUSTER_PART_PEND_VALID n) 0,
    .dev .htu fun d => { d with colls := d.colls.map fun e =>
      (e.1, { e.2 with bases := e.2.bases.filter fun b => b.1 % 256 != n || !perClu e.2 (b.1 / 256) }) }]

/-- Pending clusters take their new partition, with one PARTITION_CHANGE record each (R119, R168). -/
def Prog.applyPartitions : Prog := .get fun s =>
  let ns := (List.range 256).filter fun n => s.on .htu (Reg.SEC_CLUSTER_PART_PEND_VALID n)
  .each ns fun n => .both (.passCluster n)
    (.event .htu 0x0805 (le 1 n ++ le 1 (s.owner n) ++ le 1 (s.rd .htu (Reg.SEC_CLUSTER_PART_PEND_PART n)) ++ zeros 1
      ++ le 4 s.epochOrNone))

/-- At the start of PEND_EPOCH, or of the first epoch with time after a miss, the change takes effect (R119). -/
def Prog.partitionChange : Prog := .get fun s =>
  .cond (s.timev .htu && !s.h.gated && serialGe 32 (s.epoch .htu) (s.rd .htu Reg.SEC_PART_EPOCH_PEND_EPOCH)) .applyPartitions

end Sys2Proof.Machine
end

