-- ==== Sys2Proof/Machine/Power.lean ====
section
/-! DEFINITION. Power, droop and thermal control (R322 to R348): the voltage-frequency sequencer, ceilings and trim, the power
controller, thermal control, the tray budget, staggered release, and brownout hold. -/

namespace Sys2Proof.Machine

/-- A power record in the power stream (R446). -/
def Prog.powerRec (u : UnitId) (typ : Nat) (payload : List Byte) : Prog := .emitReg u Reg.PWR_CTL_VALID Reg.PWR_CTL_STREAM typ payload

/-- The 16 cluster groups. -/
def groups : List Nat := List.range 16

/-- A group's frequency entry, voltage entry, and target (R322, R323). -/
def State.fIdx (s : State) (g : Nat) : Nat := s.rd .htu (Reg.PWR_GRP_F_IDX g)
def State.vIdx (s : State) (g : Nat) : Nat := s.rd .htu (Reg.PWR_GRP_V_IDX g)
def State.reqCeil (s : State) (g : Nat) : Nat := min (s.rd .htu (Reg.PWR_GRP_REQ g)) (s.rd .htu (Reg.PWR_GRP_CEIL_IDX g))
def State.target (s : State) (g : Nat) : Nat :=
  min (s.reqCeil g) (min (s.rd .htu (Reg.PWR_GRP_CAP_IDX g)) (s.rd .htu (Reg.PWR_GRP_THERM_IDX g)))

/-- Some group runs below min(REQ, CEIL_IDX) (PWR_STATUS.CAPPED). -/
def State.capped (s : State) : Bool := groups.any fun g => s.fIdx g < s.reqCeil g

/-- Brownout hold or RESET_WAIT stands (R345). -/
def State.inHold (s : State) : Bool := s.rd .htu Reg.PWR_BO_STATE != 0

/-- Open steps whose die has not arrived take the CAP flag while its condition holds (R335). -/
def Prog.markCap : Prog := .get fun s =>
  .cond (s.capped || s.on .htu Reg.PWR_STATUS_DEFERRED || s.inHold) <| .htu fun x => { x with
    steps := x.steps.map fun c => if c.arrived then c else { c with cap := true } }

-- the sequencer

/-- CAP_CODE of an operation (R324). -/
def SeqOp.code : SeqOp → Nat
  | .setF g d => 4 * g + d
  | .setV g d => 64 + 4 * g + d
  | .hold => 128
  | .release => 192

/-- SET_F may not start from T − 70 ns to T + 10 ns of a scheduled capture (R164, R327), nor after the capture while that window lasts. -/
def State.captureWindow (s : State) : Bool :=
  (s.h.captures ++ s.h.taken).any fun t => t < s.ns .htu + 70 + 1 && s.ns .htu < t + 10 + 1

/-- The next operation and the queue after it (R326): HOLD and queued operations first, then lowerings in ascending group
order, then raises. -/
def State.nextOp (s : State) : Option (SeqOp × List SeqOp) :=
  let lower := groups.find? fun g => s.target g < s.fIdx g
  let raise := groups.find? fun g => s.fIdx g < s.target g && s.hx.settling != some g && s.hx.settling.isNone
  match s.hx.seqQ with
  | op :: t => some (op, t)
  | [] => match lower with
    | some g => some (.setF g 2, [.setV g 2])
    | none => raise.map fun g => if s.fIdx g < s.vIdx g then (.setF g 1, []) else (.setV g 1, [])

/-- The sequencer starts its next handshake if none is in flight (R326, R327). -/
def Prog.sequence : Prog := .get fun s =>
  .cond (s.live && s.hx.hs.isNone) <| .opt s.nextOp fun (op, q) =>
    let wait := match op with
      | .hold => false
      | .release => false
      | .setF _ _ => s.inHold || s.captureWindow
      | .setV _ _ => s.inHold
    .cond (!wait) <| .seq [
      .htu fun x => { x with seqQ := q, hs := some { op, acked := false, late := false } },
      .count .htu (Reg.TAP_DIE_CNT_COUNT 6),
      .send .htu (.capReq (BitVec.ofNat 8 op.code))]

/-- An index moved one entry or to entry 0. -/
def stepIdx (i dir : Nat) : Nat := match dir with
  | 1 => min 15 (i + 1)
  | 2 => i - 1
  | _ => 0

/-- CAP_ACK rises: the operation is carried out, and a SET_F is a trace word (R325, R327, R349). -/
def Prog.capAck (slow : Bool) : Prog := .get fun s =>
  .opt s.hx.hs fun hs => .cond (!hs.acked) <| .seq [
    .cond slow (.bump .htu Reg.PWR_STATUS_ACK_SLOW),
    .htu fun x => { x with hs := some { hs with acked := true } },
    match hs.op with
    | .setF g d =>
      let f := s.fIdx g
      let f' := stepIdx f d
      .seq [.wr .htu (Reg.PWR_GRP_F_IDX g) f', .wr .htu (Reg.PWR_GRP_LAST_F_NS g) (s.ns .htu),
        .htu fun x => { x with fGauge := Sparse.set 0 x.fGauge g (s.rd .htu (Reg.PWR_VF_MHZ f')) },
        .traceData .htu 0x101 0 (BitVec.ofNat 64 (g + 2 ^ 8 * f + 2 ^ 16 * f' + 2 ^ 24 * s.vIdx g)),
        .cond (s.on .htu Reg.PWR_CTL_STEP_REC)
          (.powerRec .htu 0x72 (le 1 g ++ le 1 f ++ le 1 f' ++ le 1 (s.vIdx g) ++ zeros 4))]
    | .setV g d =>
      let v' := stepIdx (s.vIdx g) d
      .seq [.wr .htu (Reg.PWR_GRP_V_IDX g) v',
        .htu fun x => { x with vGauge := Sparse.set 0 x.vGauge g (s.rd .htu (Reg.PWR_VF_MV v')),
                               settling := if d = 1 then some g else x.settling }]
    | _ => .skip,
    .markCap]

/-- ACK falls: the handshake ends and the next may begin (R42). -/
def Prog.ackFallCap : Prog := .get fun s =>
  .cond ((s.hx.hs.map (·.acked)) == some true) (.both (.htu fun x => { x with hs := none }) .sequence)

/-- SETTLE_US has passed: the raise goes on to SET_F (R326). -/
def Prog.settled : Prog := .get fun s => .opt s.hx.settling fun g => .both
  (.htu fun x => { x with
    settling := none
    seqQ := if s.fIdx g < s.target g ∧ s.fIdx g < s.vIdx g then x.seqQ ++ [.setF g 1] else x.seqQ })
  .sequence

-- ceilings and trim

/-- CEIL_IDX of a group (R328): `none` where no entry qualifies. -/
def State.ceiling (s : State) (g : Nat) : Option Nat :=
  let low := (((List.range 17).map (17 * g + ·)).filter fun n => s.rd .htu (Reg.TAP_PHYS_STATE n) == phActive).foldl
    (fun m n => min m (s.rd .htu (Reg.PWR_FMAX_MHZ n))) 65535
  ((List.range 16).filter fun i => s.rd .htu (Reg.PWR_VF_MHZ i) ≤ low).getLast?

/-- The ceilings are recomputed (R328). -/
def Prog.ceilings : Prog := .get fun s => .seq [
  .each groups fun g => .wr .htu (Reg.PWR_GRP_CEIL_IDX g) ((s.ceiling g).getD 0),
  .wr .htu Reg.PWR_STATUS_CEIL_LOW (groups.any fun g => (s.ceiling g).isNone).toNat,
  .markCap, .sequence]

/-- A write raises a ceiling up to FMAX_FUSE and no further (R329). -/
def Prog.fuseLimit (n : Nat) : Prog := .get fun s =>
  .wr .htu (Reg.PWR_FMAX_MHZ n) (min (s.rd .htu (Reg.PWR_FMAX_MHZ n)) (s.rd .htu (Reg.PWR_GRP_FMAX_FUSE (n / 17))))

/-- AGE_MON of a group is requested while its voltage entry is REF_IDX (R329). -/
def Prog.trimRequest (g : Nat) : Prog := .get fun s =>
  .cond (s.on .htu Reg.PWR_TRIM_TRIM_EN && s.vIdx g == s.rd .htu Reg.PWR_TRIM_REF_IDX) (.send .htu (.ageReq g))

/-- TRIM_MHZ (R329), exact. -/
def trimMhz (fuse ageMin ageBase guard : Nat) : Nat :=
  if ageBase ≤ ageMin then fuse * (1024 - guard) / 1024 else fuse * ageMin * (1024 - guard) / (ageBase * 1024)

/-- An AGE_MON result (R176, R329). -/
def Prog.ageDone (g : Nat) (count : BitVec 24) : Prog := .get fun s =>
  let last := (count :: (Sparse.find s.hx.age g).getD []).take 16
  let low := last.foldl (fun m c => min m c.toNat) (2 ^ 24 - 1)
  let mhz := trimMhz (s.rd .htu (Reg.PWR_GRP_FMAX_FUSE g)) low (s.rd .htu (Reg.PWR_GRP_AGE_BASE g)) (s.rd .htu Reg.PWR_TRIM_GUARD)
  .seq [
    .htu fun x => { x with age := Sparse.put x.age g last },
    .wr .htu (Reg.PWR_GRP_AGE_MIN g) low,
    .cond (s.on .htu Reg.PWR_TRIM_TRIM_EN) <| .seq [
      .wr .htu (Reg.PWR_GRP_TRIM_MHZ g) mhz,
      .each ((List.range 17).map (17 * g + ·)) fun n =>
        .wr .htu (Reg.PWR_FMAX_MHZ n) (min (s.rd .htu (Reg.PWR_FMAX_MHZ n)) mhz),
      .ceilings]]

-- the power limit

/-- ALLOW (R330). -/
def State.allow (s : State) : Nat :=
  let full := s.rd .htu Reg.PWR_LANE_FULL_MW
  let base := s.rd .htu Reg.PWR_LANE_BASE_MW
  if (s.fn .htu fidSentinel).st = .stopped then 0 else
  match s.rd .htu Reg.SNT_MODE_MODE_NOW with
  | 1 => full / 2 ^ s.rd .htu Reg.SNT_MODE_RATE_LOG2 + base
  | 2 => full + base
  | 3 => base
  | _ => 0

/-- The die limit in mW; 0 when there is none (R330). -/
def State.limit (s : State) : Nat :=
  let c := s.rd .htu Reg.PWR_LIMIT_CAP_MW
  let b := s.rd .htu Reg.PWR_LIMIT_BUDGET_MW
  if c = 0 then b else if b = 0 then c else min c b

/-- A CAP_EVENT to the power stream and the recorder (R338); it triggers the trace (R350). -/
def Prog.capEvent (cause g before after : Nat) : Prog := .get fun s =>
  let p := le 1 cause ++ le 1 g ++ le 1 before ++ le 1 after ++ le 4 (s.rd .htu Reg.PWR_MEAS_PM_MW) ++ le 4 s.limit
    ++ le 4 (s.rd .htu Reg.PWR_MEAS_ALLOW_MW)
  .seq [.powerRec .htu 0x70 p, .event .htu 0x0401 p, .trigger .htu 4]

/-- Pressure (R331). -/
def State.pressure (s : State) : Bool :=
  s.limit != 0 && s.rd .htu Reg.PWR_MEAS_PM_MW + s.rd .htu Reg.PWR_MEAS_ALLOW_MW > s.limit

/-- Modelled energy of a group's clusters over the period (R331). -/
def State.groupEnergy (s : State) (g : Nat) : Nat :=
  ((List.range 16).map fun k => Sparse.get 0 s.hx.pmClus (16 * g + k)).sum

/-- One lowering under pressure: the group with most energy, the lower on a tie; with every group at entry 0 one FLOOR record
(R331, R336). -/
def Prog.lowerOne : Prog := .get fun s =>
  let l := groups.filter fun g => s.fIdx g != 0
  match l.head? with
  | some g0 =>
    let g := l.foldl (fun b g => if s.groupEnergy g > s.groupEnergy b then g else b) g0
    .wr .htu (Reg.PWR_GRP_CAP_IDX g) (s.fIdx g - 1)
  | none => .cond (!s.hx.floored) (.both (.htu fun x => { x with floored := true }) (.capEvent 4 0xFF 0 0))

/-- Raises without pressure (R331). -/
def Prog.raiseCaps : Prog := .get fun s =>
  let l := groups.filter fun g => s.rd .htu (Reg.PWR_GRP_CAP_IDX g) < s.reqCeil g
  let up (g : Nat) : Prog := .wr .htu (Reg.PWR_GRP_CAP_IDX g) (s.rd .htu (Reg.PWR_GRP_CAP_IDX g) + 1)
  if s.limit = 0 then .each l up
  else .cond (s.rd .htu Reg.PWR_MEAS_PM_MW + s.rd .htu Reg.PWR_MEAS_ALLOW_MW + s.rd .htu Reg.PWR_CTRL_CFG_HEADROOM_MW ≤ s.limit) <|
    .opt l.head? fun g0 => up (l.foldl (fun b g =>
      if s.rd .htu (Reg.PWR_GRP_CAP_IDX g) < s.rd .htu (Reg.PWR_GRP_CAP_IDX b) then g else b) g0)

/-- The power controller of one period (R331 to R333). -/
def Prog.powerControl : Prog := .get fun s =>
  if (s.fn .htu fidPower).st ≠ .running then .each groups fun g => .wr .htu (Reg.PWR_GRP_CAP_IDX g) 15
  else if s.pressure ∧ s.hx.emergency then .seq [
    .cond (!s.on .htu Reg.PWR_STATUS_EMERG) (.capEvent 1 0xFF (s.fIdx 0) (s.fIdx 0 - 1)),
    .wr .htu Reg.PWR_STATUS_EMERG 1,
    .each (groups.filter fun g => s.fIdx g != 0) fun g =>
      .wr .htu (Reg.PWR_GRP_CAP_IDX g) (s.rd .htu (Reg.PWR_GRP_CAP_IDX g) - 1),
    .cond (groups.all fun g => s.fIdx g == 0) .lowerOne]
  else if s.pressure then
    if s.hx.idle then .lowerOne else .wr .htu Reg.PWR_STATUS_DEFERRED 1
  else .seq [
    .wr .htu Reg.PWR_STATUS_EMERG 0,
    .htu fun x => { x with emergency := false, floored := false },
    .raiseCaps]

/-- A group's THERM reading: the higher of its two sensors, at WARN while the sensors are stale (R334). -/
def State.thermCode (s : State) (g : Nat) : Nat :=
  if s.on .htu Reg.PWR_STATUS_THERM_STALE then s.rd .htu Reg.PWR_THERM_CFG_WARN
  else max (s.hx.therm.getD (2 * g) 0).toNat (s.hx.therm.getD (2 * g + 1) 0).toNat

/-- Thermal control of one group; `go` when a WARN lowering need not wait (R334). -/
def Prog.thermGroup (go : Bool) (g : Nat) : Prog := .get fun s =>
  let c := s.thermCode g
  let warn := s.rd .htu Reg.PWR_THERM_CFG_WARN
  let emerg := s.rd .htu Reg.PWR_THERM_CFG_EMERG
  let t := s.rd .htu (Reg.PWR_GRP_THERM_IDX g)
  .both (.htu fun x => { x with hot := if c ≥ emerg then (if x.hot.contains g then x.hot else x.hot ++ [g]) else x.hot.filter (· != g) }) <|
    if c ≥ emerg then .both (.wr .htu (Reg.PWR_GRP_THERM_IDX g) (s.fIdx g - 1))
      (.cond (!s.hx.hot.contains g) (.capEvent 2 g (s.fIdx g) (s.fIdx g - 1)))
    else if c ≥ warn then
      if go then .wr .htu (Reg.PWR_GRP_THERM_IDX g) (s.fIdx g - 1) else .wr .htu Reg.PWR_STATUS_DEFERRED 1
    else .cond (c + 8 < warn) (.wr .htu (Reg.PWR_GRP_THERM_IDX g) (min 15 (t + 1)))

/-- PWR_STATUS.THERMAL follows THERM_IDX. -/
def Prog.showThermal : Prog := .get fun s =>
  .wr .htu Reg.PWR_STATUS_THERMAL (groups.any fun g => s.rd .htu (Reg.PWR_GRP_THERM_IDX g) < 15).toNat

/-- A lowering BUDGET_SHIFT completes when the limit is met, or DEFER_MAX_US + 1 ms after its STEP_OPEN (R337). -/
def Prog.budgetDone : Prog := .get fun s =>
  let due (e : Nat × BitVec 16 × Nat) : Bool := !s.pressure
    || s.h.ticks ≥ e.2.2 + s.rd .htu Reg.PWR_CTRL_CFG_DEFER_MAX_US * ticksPerUs + ticksPerMs
  .both (.htu fun x => { x with budWait := x.budWait.filter fun e => !due e })
    (.each (s.hx.budWait.filter due) fun e => .reply .htu e.1 e.2.1 { status := stOk, result := s.pressure.toNat })

/-- The end of a control period (R331 to R337). COLLECTIVE_IDLE is an input that no command carries, so its level is a free value. -/
def Prog.controlPeriod : Prog := .get fun s => .cond s.live <| .free fun k =>
  let us := s.rd .htu Reg.PWR_CTRL_CFG_CTRL_US
  let num := 1000 * (s.rd .htu Reg.TAP_EN_DIE_UJ + 2 ^ 64 - s.hx.pmBase) % (1000 * 2 ^ 64)
  let pm := if us = 0 ∨ num % us = 0 then num / us else num / us + (Config.powerRound num us).toNat
  let idle := k % 2 == 1
  .seq [
    .htu fun x => { x with idle := idle, pmBase := s.rd .htu Reg.TAP_EN_DIE_UJ },
    .wr .htu Reg.PWR_MEAS_PM_MW pm, .wr .htu Reg.PWR_MEAS_ALLOW_MW s.allow,
    .wr .htu Reg.PWR_STATUS_DEFERRED 0,
    .powerControl,
    .each groups (.thermGroup idle),
    .htu fun x => { x with pmClus := [] },
    .showThermal, .markCap, .budgetDone, .sequence]

/-- Pressure was deferred for DEFER_MAX_US: it is lowered regardless (R332, R338). -/
def Prog.deferExpired : Prog := .get fun s => .cond (s.on .htu Reg.PWR_STATUS_DEFERRED) <| .seq [
  .wr .htu Reg.PWR_STATUS_DEFERRED 0,
  .bump .htu Reg.PWR_STATUS_DEFER_EXPIRED,
  .cond ((s.fn .htu fidPower).st == .running && s.pressure) .lowerOne,
  .each (groups.filter fun g => s.thermCode g ≥ s.rd .htu Reg.PWR_THERM_CFG_WARN) (.thermGroup true),
  .capEvent 3 0xFF (s.fIdx 0) (s.fIdx 0),
  .showThermal, .sequence]

/-- No THERM strobe for 100 µs (R334). -/
def Prog.thermStale : Prog := .get fun s => .cond (s.live && !s.on .htu Reg.PWR_STATUS_THERM_STALE) <|
  .both (.wr .htu Reg.PWR_STATUS_THERM_STALE 1) (.event .htu 0x0403 (zeros 8))

/-- A THERM strobe delivers the sensors (R176, R334). -/
def Prog.thermUpdate (codes : List (BitVec 10)) : Prog := .both
  (.htu fun x => { x with therm := codes.take 32 }) (.wr .htu Reg.PWR_STATUS_THERM_STALE 0)

/-- POWER_CAP (R336). -/
def opPowerCap : Op where
  code := 0x50
  onVta := false
  v1 := true
  classes := [5]
  plen := (· == 16)
  rsvd := fun _ p => anySet p 1 3 || anySet p 8 8
  perms := permSnap
  check := fun _ _ _ p =>
    let k := arg p 0 1
    firstBad [
      (k = 0 ∨ k > 3, badParam 0x100),
      (k ≠ 3 ∧ (arg p 4 4 < 100000 ∨ arg p 4 4 > 900000), badParam 0x101)]
  run := fun u m p => .get fun s => .seq [
    .wr .htu Reg.PWR_LIMIT_CAP_MW (if arg p 0 1 = 3 then 0 else arg p 4 4),
    .htu fun x => { x with emergency := arg p 0 1 == 2, floored := false },
    .cond (arg p 0 1 != 2) (.wr .htu Reg.PWR_STATUS_EMERG 0),
    .reply u m p.tag { status := stOk, result := s.rd .htu Reg.PWR_MEAS_PM_MW }]

/-- A STEP_OPEN in the power block (R330, R335, R337): ALLOW and the budgets that wait for it take effect, in the order given. -/
def Prog.powerStepOpen : Prog := .get fun s => .seq [
  .wr .htu Reg.PWR_MEAS_ALLOW_MW s.allow,
  .htu fun x => { x with budPend := [], floored := x.floored && s.hx.budPend == [] },
  .each s.hx.budPend fun e => .get fun s =>
    let old := s.rd .htu Reg.PWR_LIMIT_BUDGET_MW
    let raises := e.1 = 0 ∨ (old ≠ 0 ∧ old ≤ e.1)
    .both (.wr .htu Reg.PWR_LIMIT_BUDGET_MW e.1) <|
      if raises then .reply .htu e.2.1 e.2.2 { status := stOk }
      else .htu fun x => { x with budWait := x.budWait ++ [(e.2.1, e.2.2, s.h.ticks)] },
  .markCap]

-- tray budgets

/-- A BUDGET_SHIFT to the HTU of a port (R339). -/
def Prog.sendBudget (port mw : Nat) : Prog := .both (.wr .vta (Reg.PWR_DIE_BUDGET_MW port) mw)
  (.forward .vta port 0x51 { flags := 0, tag := 0, target := 0x5000, partition := 0, role := 6, rsvd := 0, seq := 0
                             params := le 4 mw ++ zeros 12 } none)

/-- A move starts with the donor's lowering (R340, R341). -/
def Prog.startMove (d r mw : Nat) (step : BitVec 32) (cmd : Option (Nat × BitVec 16)) : Prog := .get fun s => .seq [
  .wr .vta Reg.PWR_TRAY_MOVE_BUSY 1,
  .vta fun x => { x with move := some { donor := d, recip := r, mw, step, raised := false, cmd } },
  .sendBudget d (s.rd .vta (Reg.PWR_DIE_BUDGET_MW d) - mw)]

/-- The move ends. -/
def Prog.endMove (cmd : Option (Nat × BitVec 16)) (a : Ans) : Prog := .seq [
  .vta fun x => { x with move := none }, .wr .vta Reg.PWR_TRAY_MOVE_BUSY 0, .answer .vta cmd a]

/-- The final reply of a BUDGET_SHIFT to a port (R340): the donor's leads to the raise or to the restored budget, the recipient's
completes the move with a BUDGET_MOVE record. -/
def Prog.moveReply (port : Nat) (ok : Bool) (result : Nat) : Prog := .get fun s =>
  .opt s.vx.move fun w =>
    let bud (k : Nat) : Nat := s.rd .vta (Reg.PWR_DIE_BUDGET_MW k)
    if !w.raised ∧ port = w.donor then
      if ok ∧ result = 0 then .both (.vta fun x => { x with move := some { w with raised := true } })
        (.sendBudget w.recip (bud w.recip + w.mw))
      else .both (.sendBudget w.donor (bud w.donor + w.mw)) (.endMove w.cmd { status := stAborted })
    else .cond (w.raised && port == w.recip) <| .both
      (.powerRec .vta 0x73 (le 1 w.donor ++ le 1 w.recip ++ zeros 2 ++ le 4 w.mw ++ le 4 (bud w.donor) ++ le 4 (bud w.recip)
        ++ le 4 w.step.toNat))
      (.endMove w.cmd { status := stOk })

/-- An automatic move after a complete tray STEP_RESULT (R340): `r` the port of the latest entry, with its lag and CAP, and the
ports of the 8 latest. -/
def Prog.autoMove (step : BitVec 32) (r lag : Nat) (cap : Bool) (latest : List Nat) : Prog := .get fun s =>
  let bud (k : Nat) : Nat := s.rd .vta (Reg.PWR_DIE_BUDGET_MW k)
  let mw := s.rd .vta Reg.PWR_TRAY_STEP_MW
  let least := s.rd .vta Reg.PWR_TRAY_DIE_MIN_W * 1000
  let ok (k : Nat) : Bool := !latest.contains k && bud k ≥ least + mw && s.rd .vta (Reg.VTA_DIE_VERDICT k) < 2
  let l := (List.range 64).filter ok
  .cond (s.on .vta Reg.PWR_TRAY_AUTO && s.vx.move.isNone && cap && lag ≥ s.rd .vta Reg.PWR_TRAY_SHIFT_LAG_NS
      && bud r + mw ≤ s.rd .vta Reg.PWR_TRAY_DIE_MAX_W * 1000) <|
    .opt l.head? fun d0 => .startMove (l.foldl (fun b k => if bud k > bud b then k else b) d0) r mw step none

/-- BUDGET_SHIFT (R337, R341). -/
def opBudgetShift : Op where
  code := 0x51
  classes := [5]
  plen := (· == 16)
  rsvd := fun u p => anySet p 8 8 || (match u with
    | .htu => anySet p 4 4
    | .vta => anySet p 3 1)
  perms := permSnap
  check := fun s u _ p => match u with
    | .htu => firstBad [(arg p 0 4 ≠ 0 ∧ (arg p 0 4 < 100000 ∨ arg p 0 4 > 900000), badParam 0x101)]
    | .vta =>
      let a := arg p 0 1
      let f := arg p 1 1
      let t := arg p 2 1
      let mw := arg p 4 4
      firstBad [
        (a = 0 ∨ a > 4, badParam 0x100),
        (a = 2 ∧ (f > 63 ∨ t > 63 ∨ s.rd .vta (Reg.PWR_DIE_BUDGET_MW f) < s.rd .vta Reg.PWR_TRAY_DIE_MIN_W * 1000 + mw
          ∨ s.rd .vta (Reg.PWR_DIE_BUDGET_MW t) + mw > s.rd .vta Reg.PWR_TRAY_DIE_MAX_W * 1000), badParam 0x102),
        (a = 2 ∧ s.vx.move.isSome, { status := stBusy })]
  run := fun u m p => match u with
    | .htu => .htu fun x => { x with budPend := x.budPend ++ [(arg p 0 4, m, p.tag)] }
    | .vta => .get fun s => match arg p 0 1 with
      | 1 => .seq [
          .wr .vta Reg.PWR_TRAY_TRAY_MW (arg p 4 4),
          .each (List.range 64) fun k =>
            if (Sparse.get {} s.v.conns k).path.isSome then .sendBudget k (arg p 4 4 / 64)
            else .wr .vta (Reg.PWR_DIE_BUDGET_MW k) (arg p 4 4 / 64),
          .reply u m p.tag { status := stOk }]
      | 2 => .startMove (arg p 1 1) (arg p 2 1) (arg p 4 4) 0 (some (m, p.tag))
      | a => .both (.wr .vta Reg.PWR_TRAY_AUTO (if a = 3 then 1 else 0)) (.reply u m p.tag { status := stOk })

-- staggered release

/-- STAGGER_RELEASE (R342). -/
def opStagger : Op where
  code := 0x52
  onVta := false
  classes := [5]
  plen := (· == 8)
  rsvd := fun _ p => arg p 2 1 / 4 != 0 || anySet p 3 1 || anySet p 6 2
  perms := permSnap
  check := fun _ _ _ p => firstBad [
    (arg p 0 1 = 0 ∨ arg p 0 1 > 16, badParam 0x100), (arg p 1 1 = 0, badParam 0x101)]
  run := fun u m p => .seq [
    .wr .htu Reg.PWR_STAGGER_WAVES (arg p 0 1), .wr .htu Reg.PWR_STAGGER_SPACING_NS (arg p 1 1),
    .wr .htu Reg.PWR_STAGGER_ROTATE (arg p 2 1), .wr .htu Reg.PWR_STAGGER_DROOP_HOLD (arg p 2 1 / 2),
    .wr .htu Reg.PWR_STAGGER_HOLD_DROOP_MAX_NS (arg p 4 2),
    .reply u m p.tag { status := stOk }]

/-- A release is decided (R240, R313, R343); none under a drain or an abort (R261, R316). -/
def Prog.release (step : Nat) : Prog := .get fun s =>
  .cond (s.live && !s.hx.relBlocked && !s.on .htu Reg.SNT_STATUS_DRAINED) (.htu fun x => { x with rels := x.rels ++ [{ step }] })

/-- The release that issues takes its settings when it begins (R342). -/
def State.begun (s : State) (r : Release) : Release :=
  if r.begun then r else
    let w := max 1 (s.rd .htu Reg.PWR_STAGGER_WAVES)
    { r with begun := true, waves := w, hold := s.on .htu Reg.PWR_STAGGER_DROOP_HOLD
             rot := if s.on .htu Reg.PWR_STAGGER_ROTATE then r.step % w else 0 }

/-- The groups of a wave (R343). -/
def Release.mask (r : Release) : BitVec 16 :=
  groups.foldl (fun m g => if (g + r.rot) % r.waves = r.wave then m ||| (1#16 <<< g) else m) 0

/-- The wave of the first release issues. -/
def Prog.issueWave (r : Release) : Prog := .seq [
  .send .htu (.barrierRel r.mask),
  .count .htu (Reg.TAP_DIE_CNT_COUNT 11),
  .htu fun x =>
    let rest := x.rels.drop 1
    let next : Release := { r with wave := r.wave + 1, waiting := false }
    { x with rels := if r.wave + 1 ≥ r.waves then rest else next :: rest }]

/-- A wave falls due (R343, R344): brownout hold and a droop hold it. -/
def Prog.releaseWave : Prog := .get fun s => .opt s.hx.rels.head? fun r0 =>
  let r := s.begun r0
  let w : Release := { r with waiting := true }
  if s.inHold then .htu fun x => { x with
      rels := w :: x.rels.drop 1, held := if r.waiting then x.held else x.held + 1 }
  else if r.hold ∧ s.hx.droop ≠ 0 then .htu fun x => { x with rels := w :: x.rels.drop 1 }
  else .issueWave r

/-- A DROOP_DET bit rises (R175, R344). -/
def Prog.droopRise (g : Nat) : Prog := .get fun s => .cond (!s.hx.droop.getLsbD g) <| .both
  (.htu fun x => { x with droop := x.droop ||| (1#16 <<< g) }) (.count .htu (Reg.TAP_DIE_CNT_COUNT 5))

/-- A DROOP_DET bit falls; when every bit is low a held wave issues (R344). -/
def Prog.droopClear (g : Nat) : Prog := .both (.htu fun x => { x with droop := x.droop &&& ~~~ (1#16 <<< g) }) <| .get fun s =>
  .opt s.hx.rels.head? fun r => .cond (r.waiting && s.hx.droop == 0 && !s.inHold) (.issueWave r)

/-- A wave has waited DROOP_MAX_NS (R344). -/
def Prog.droopForced : Prog := .get fun s => .opt s.hx.rels.head? fun r =>
  .cond (r.waiting && r.hold && s.hx.droop != 0 && !s.inHold) (.both (.bump .htu Reg.PWR_STAGGER_HOLD_DROOP_FORCED) (.issueWave r))

-- brownout hold

/-- A rail falls below VWARN_MV (R345, R346). -/
def Prog.vwarn (rail : Nat) : Prog := .get fun s => .cond (!s.inHold) <| .seq [
  .wr .htu Reg.PWR_BO_STATE 1, .wr .htu Reg.PWR_BO_RAIL rail, .wr .htu Reg.PWR_STATUS_HOLD 1, .bump .htu Reg.PWR_STATUS_HOLDS,
  .htu fun x => { x with
    holdT := s.ns .htu, holdTv := s.timev .htu, held := 0, deferred := 0
    seqQ := if s.live then .hold :: x.seqQ.filter (· != .release) else x.seqQ },
  .markCap, .sequence]

/-- A rail falls below VRESET_MV in hold (R345); the caller resets the unit when the rail is HTU_VDD. -/
def Prog.vreset : Prog := .get fun s => .cond (s.rd .htu Reg.PWR_BO_STATE == 1) <| .seq [
  .wr .htu Reg.PWR_BO_STATE 2,
  .wr .htu Reg.PWR_BO_RET_RET_VALID 1, .wr .htu Reg.PWR_BO_RET_RAIL (s.rd .htu Reg.PWR_BO_RAIL),
  .wr .htu Reg.PWR_BO_RET_TIMEV s.hx.holdTv.toNat, .wr .htu Reg.PWR_BO_RET_T_ENTRY s.hx.holdT]

/-- The BROWNOUT payload (R347). -/
def brownoutPayload (rail : Nat) (reset timev : Bool) (held deferred dur t : Nat) : List Byte :=
  le 1 rail ++ le 1 (reset.toNat + 2 * timev.toNat) ++ le 2 (min held 65535) ++ le 2 (min deferred 65535) ++ zeros 2 ++ le 8 dur ++ le 8 t

/-- Every rail has been back for 10 µs: the hold ends, and a wave that it held issues (R344, R345, R347); the BROWNOUT record triggers the
trace (R350). -/
def Prog.brownoutResume (ns : Nat) : Prog := .get fun s => .cond (s.rd .htu Reg.PWR_BO_STATE == 1) <|
  let p := brownoutPayload (s.rd .htu Reg.PWR_BO_RAIL) false s.hx.holdTv s.hx.held s.hx.deferred ns s.hx.holdT
  .seq [
    .wr .htu Reg.PWR_BO_STATE 0, .wr .htu Reg.PWR_STATUS_HOLD 0,
      .htu fun x =>
      let q := if x.seqQ.contains .hold then x.seqQ.filter (· != .hold) else if s.live then .release :: x.seqQ else x.seqQ
      { x with seqQ := q },
    .powerRec .htu 0x71 p, .event .htu 0x0402 p, .trigger .htu 4,
    .get fun s => .opt s.hx.rels.head? fun r => .cond (r.waiting && !(r.hold && s.hx.droop != 0)) (.issueWave r),
    .sequence]

/-- The sequencer's first operations at BOUNDARY_LIVE (R346, R348). -/
def Prog.powerLive : Prog := .get fun s => .seq [
  .each groups fun g => .both (.wr .htu (Reg.PWR_GRP_F_IDX g) 0) (.wr .htu (Reg.PWR_GRP_V_IDX g) 0),
  .htu fun x => { x with
    seqQ := (if s.inHold then [SeqOp.hold] else []) ++ groups.flatMap fun g => [SeqOp.setF g 0, SeqOp.setV g 0] },
  .ceilings]

/-- An ACK is later than 100 µs (R42): once per handshake, a HANDSHAKE_LATE record. -/
def Prog.handshakeLate (g : HsGroup) : Prog := .get fun s => match g with
  | .cap => .opt s.hx.hs fun h => .cond (!h.late) <| .both
      (.htu fun x => { x with hs := some { h with late := true } })
      (.event .htu 0x0004 (le 1 2 ++ le 1 (if h.acked then 2 else 1) ++ zeros 6))
  | .drain => .cond ((s.hx.drainReq || s.hx.drainAcked) && !s.hx.drainLate) <| .both
      (.htu fun x => { x with drainLate := true })
      (.event .htu 0x0004 (le 1 1 ++ le 1 (if s.hx.drainAcked then 2 else 1) ++ zeros 6))

end Sys2Proof.Machine
end

