-- ==== Sys2Proof/Machine/Fp.lean ====
section
/-! DEFINITION. IEEE 754 binary32 as the checking lanes use it (R224, R228, R229): every finite value is an integer multiple of
2^-149, sums and products are exact, and one rounding to nearest even ends each operation. -/

namespace Sys2Proof.Machine

/-- The quiet NaN that an invalid operation gives. -/
def fpNan : Half := 0x7FC00000

/-- Infinity with a sign. -/
def fpInf (neg : Bool) : Half := if neg then 0xFF800000 else 0x7F800000

/-- The magnitude pattern: orders every value that is not a NaN. -/
def fpMag (a : Half) : Half := a &&& 0x7FFFFFFF
def fpNeg (a : Half) : Bool := a.getLsbD 31
def fpIsNan (a : Half) : Bool := decide (0x7F800000#32 < fpMag a)
def fpIsInf (a : Half) : Bool := fpMag a == 0x7F800000
def fpFinite (a : Half) : Bool := decide (fpMag a < 0x7F800000#32)

/-- A finite value in units of 2^-149. -/
def fpInt (a : Half) : Int :=
  let m := (fpMag a).toNat
  let e := m / 2 ^ 23
  let v : Nat := if e = 0 then m else (m % 2 ^ 23 + 2 ^ 23) * 2 ^ (e - 1)
  if fpNeg a then -(v : Int) else v

/-- n / 2^d to the nearest integer, ties to even. -/
def shiftRne (n d : Nat) : Nat :=
  let q := n / 2 ^ d
  let r := n % 2 ^ d
  if d = 0 then n
  else if 2 * r > 2 ^ d ∨ (2 * r = 2 ^ d ∧ q % 2 = 1) then q + 1 else q

/-- v × 2^-scale rounded to nearest even (scale at least 149): subnormals are kept, beyond the range it is infinite. -/
def fpRound (scale : Nat) (v : Int) : Half :=
  let n := v.natAbs
  if n = 0 then 0 else
    let d := max (n.log2 + 1 - 24) (scale - 149)
    let p := (d - (scale - 149)) * 2 ^ 23 + shiftRne n d
    let m : Half := if p ≥ 0x7F800000 then 0x7F800000 else BitVec.ofNat 32 p
    if v < 0 then m ||| 0x80000000 else m

/-- a + b; a sum of zeros is −0 where both are. -/
def fpAdd (a b : Half) : Half :=
  if fpIsNan a || fpIsNan b then fpNan
  else if fpIsInf a then (if fpIsInf b && fpNeg a != fpNeg b then fpNan else a)
  else if fpIsInf b then b
  else if fpInt a + fpInt b = 0 then (if fpNeg a && fpNeg b then 0x80000000 else 0)
  else fpRound 149 (fpInt a + fpInt b)

/-- c + a × b, rounded once. -/
def fpFma (c a b : Half) : Half :=
  if fpIsNan a || fpIsNan b || fpIsNan c then fpNan
  else if fpIsInf a || fpIsInf b then
    if fpMag a == 0 || fpMag b == 0 then fpNan else fpAdd c (fpInf (fpNeg a != fpNeg b))
  else if fpIsInf c then c
  else if fpInt c * 2 ^ 149 + fpInt a * fpInt b = 0 then (if fpNeg c && fpNeg a != fpNeg b then 0x80000000 else 0)
  else fpRound 298 (fpInt c * 2 ^ 149 + fpInt a * fpInt b)

/-- −a when `s` is set. -/
def fpSign (s : Bool) (a : Half) : Half := if s then a ^^^ 0x80000000 else a

/-- |a − b|. -/
def fpDist (a b : Half) : Half := fpMag (fpAdd a (fpSign true b))

/-- The larger of two magnitudes. -/
def fpMaxMag (a b : Half) : Half := if (fpMag a).toNat < (fpMag b).toNat then fpMag b else fpMag a

/-- a > b; a NaN is unordered. -/
def fpGt (a b : Half) : Bool :=
  !fpIsNan a && !fpIsNan b && (if fpIsInf a then !fpIsInf b || (fpNeg b && !fpNeg a)
    else if fpIsInf b then fpNeg b else decide (fpInt a > fpInt b))

/-- a × 2^-n for a magnitude; an infinity stays infinite. -/
def fpScaleDown (n : Nat) (a : Half) : Half := if fpFinite a then fpRound (149 + n) (fpInt a) else a

/-- An FP8 E4M3 element: significand and exponent of the value significand × 2^exponent, or NaN. -/
def e4m3 (b : Nat) : Option (Int × Nat) :=
  let e := b / 8 % 16
  let m := b % 8
  if e = 15 ∧ m = 7 then none else
    let v : Nat := if e = 0 then m else 8 + m
    some (if b / 128 % 2 = 1 then -(v : Int) else v, max e 1)

/-- An operand element converted to FP32 under FMT (R224); `x` is the block's shared exponent. -/
def fpConvert (fmt : BitVec 3) (x : Nat) (a : Half) : Half :=
  let b := a.toNat
  match fmt.toNat with
  | 0 => a <<< 16
  | 1 => match e4m3 b with
    | none => fpNan
    | some (v, e) => fpRound 149 (v * 2 ^ (e + 139))
  | 2 =>
    let e := b / 4 % 32
    let m := b % 4
    let neg := b / 128 % 2 = 1
    if e = 31 then (if m = 0 then fpInf neg else fpNan)
    else
      let v : Nat := if e = 0 then m else 4 + m
      fpRound 149 ((if neg then -(v : Int) else v) * 2 ^ (max e 1 + 132))
  | 3 => match e4m3 b with
    | none => fpNan
    | some (v, e) => fpRound 149 (v * 2 ^ (e + x + 12))
  | _ => a

/-- A row of 128 elements converted; a short row is filled with zeros. -/
def fpRow (fmt : BitVec 3) (l : List Half) (ex : List Byte) : List Half :=
  (List.range 128).map fun i => fpConvert fmt (ex.getD (i / 32) 0).toNat (l.getD i 0)

/-- One level of the A-tree: inputs 2i and 2i + 1 are added. -/
def pairAdd : List Half → List Half
  | a :: b :: t => fpAdd a b :: pairAdd t
  | l => l

/-- The A-tree: Σ r_i × A[i][k] in 7 pairwise levels (R227, R228). -/
def treeSum (sign : BitVec 128) (l : List Half) : Half :=
  let l0 := l.mapIdx fun i a => fpSign (sign.getLsbD i) a
  (pairAdd (pairAdd (pairAdd (pairAdd (pairAdd (pairAdd (pairAdd l0))))))).headD 0

/-- The index and value of the largest magnitude of a list; the first of equals. -/
def fpArgMax (l : List Half) : Nat × Half :=
  (l.zipIdx).foldl (fun best (a, i) => if (fpMag best.2).toNat < (fpMag a).toNat then (i, fpMag a) else best) (0, 0)

/-- One xorshift step of R225: the new state; its last word is the output. -/
def laneStep (l : Lane) : Lane :=
  let t := l.x ^^^ (l.x <<< 11)
  { l with x := l.y, y := l.z, z := l.w, w := (l.w ^^^ (l.w >>> 19)) ^^^ (t ^^^ (t >>> 8)) }

/-- `n` steps. -/
def laneSteps : Nat → Lane → Lane
  | 0, l => l
  | n + 1, l => laneSteps n (laneStep l)

/-- The generator of lane `n` at START_FUNCTION (R225). -/
def laneSeed (lo hi : Nat) (n : Nat) (l : Lane) : Lane :=
  let h (v : Nat) : Half := BitVec.ofNat 32 v
  let w := h (hi / 2 ^ 32) ^^^ h n
  let zero := h lo == 0 && h (lo / 2 ^ 32) == 0 && h hi == 0 && w == 0
  laneSteps 64 { l with x := h lo, y := h (lo / 2 ^ 32), z := h hi, w := if zero then 1 else w }

/-- CRC-64 with polynomial 0x42F0E1EBA9EA3693 over one 32-bit word, most significant bit first (R249). -/
def crc64Word (c : BitVec 64) (w : Half) : BitVec 64 :=
  (List.range 32).foldl (fun c _ => if c.getLsbD 63 then (c <<< 1) ^^^ 0x42F0E1EBA9EA3693#64 else c <<< 1)
    (c ^^^ (w.setWidth 64 <<< 32))

/-- Multiplication in GF(2^128) reduced by x^128 + x^7 + x^2 + x + 1; bit i is the coefficient of x^i (R255). -/
def gfMul (a h : BitVec 128) : BitVec 128 :=
  (List.range 128).foldl (fun acc i =>
    let d := if acc.getLsbD 127 then (acc <<< 1) ^^^ 0x87#128 else acc <<< 1
    if a.getLsbD (127 - i) then d ^^^ h else d) 0

end Sys2Proof.Machine
end

