-- ==== Sys2Proof/Machine/Dumps.lean ====
section
/-! DEFINITION. Tensor dumps through the HDMA channels (R60, R61, R360 to R363). -/

namespace Sys2Proof.Machine

-- TRC_DUMP.STATE of R371
def chanIdle : Nat := 0
def chanBusy : Nat := 1
def chanHalted : Nat := 2

/-- CAUSE of a halted channel (R61). -/
def haltWindow : Nat := 1
def haltMedia : Nat := 2

/-- A dump changes, found by its command. -/
def Prog.modDump (cmd : Nat × BitVec 16) (f : Dump → Dump) : Prog :=
  .htu fun x => { x with dumps := x.dumps.map fun d => if d.cmd = cmd then f d else d }

/-- The dump that runs on a channel. -/
def State.dumpOn (s : State) (c : Nat) : Option Dump := s.hx.dumps.find? (·.chan == some c)

/-- The lowest channel that is idle and not halted. -/
def State.freeChan (s : State) : Option Nat := (List.range 8).find? fun c => s.rd .htu (Reg.TRC_DUMP_STATE c) == chanIdle

/-- Dumps that are due start on the lowest free channel, in order of acceptance (R361). -/
def Prog.startDumps : Prog := .get fun s =>
  .each (s.hx.dumps.filter fun d => !d.atClose && d.chan.isNone) fun d => .get fun s => .opt s.freeChan fun c => .seq [
    .modDump d.cmd fun d => { d with chan := some c },
    .wr .htu (Reg.TRC_DUMP_STATE c) chanBusy, .wr .htu (Reg.TRC_DUMP_NAME c) d.name,
    .wr .htu (Reg.TRC_DUMP_STEP c) d.step.toNat, .wr .htu (Reg.TRC_DUMP_DONE c) 0]

/-- A step closes: the dumps that wait for it start (R361). -/
def Prog.dumpClose (step : BitVec 32) : Prog := .both
  (.htu fun x => { x with dumps := x.dumps.map fun d => if d.step = step then { d with atClose := false } else d })
  .startDumps

/-- A step opens: a dump whose own step stays unclosed behind it completes with DEADLINE_PASSED, and a dump of a step that is
replayed is marked (R361, R362). -/
def Prog.dumpOpen (step : BitVec 32) : Prog := .get fun s =>
  let late (d : Dump) : Bool := d.atClose && serialGt 32 step.toNat d.step.toNat
  .seq [
    .htu fun x => { x with dumps := (x.dumps.filter fun d => !late d).map fun d =>
      if d.step = step ∧ d.chan.isSome then { d with replayed := true } else d },
    .each (s.hx.dumps.filter late) fun d => .answer .htu (some d.cmd) { status := stDeadline }]

/-- ABORT_JOB ends the dumps that wait; running dumps complete (R361). -/
def Prog.abortDumps : Prog := .get fun s => .both
  (.htu fun x => { x with dumps := x.dumps.filter (·.chan.isSome) })
  (.each (s.hx.dumps.filter (·.chan.isNone)) fun d => .answer .htu (some d.cmd) { status := stAborted })

/-- A notice for a step has come, so that records whose data belongs to it carry TAINT (R247). -/
def State.tainted (s : State) (step : BitVec 32) : Bool := s.hx.tainted.contains step

/-- A dump record; data of a tainted step carries TAINT (R247, R362). -/
def Prog.dumpRec (d : Dump) (typ : Nat) (payload : List Byte) : Prog := .get fun s =>
  let taint := s.tainted d.step
  .cond (s.on .htu (Reg.TRC_STREAM_VALID d.part)) <|
    .emitWait .htu (s.rd .htu (Reg.TRC_STREAM_STREAM d.part)) 3 fun r => { r with typ, payload, taint }

/-- DUMP_END, the final reply, and the channel's state after the dump (R362, R363); `halt` is the cause of a halt, or 0. -/
def Prog.dumpEnd (c : Nat) (d : Dump) (status halt : Nat) : Prog := .seq [
  .dumpRec d 0x82 (le 4 d.name ++ le 4 d.step.toNat ++ le 8 d.done ++ le 4 d.units ++ le 1 status
    ++ le 1 d.replayed.toNat ++ zeros 2 ++ le 4 (~~~ d.crc).toNat ++ zeros 4),
  .htu fun x => { x with dumps := x.dumps.filter (·.cmd != d.cmd) },
  .wr .htu (Reg.TRC_DUMP_STATE c) (if halt = 0 then chanIdle else chanHalted),
  .cond (halt != 0) (.both (.wr .htu (Reg.TRC_DUMP_HALT c) 1) (.wr .htu (Reg.TRC_DUMP_CAUSE c) halt)),
  .answer .htu (some d.cmd) { status, result := d.units },
  .startDumps]

/-- A unit of bytes read becomes a DUMP_DATA record (R362), raw or as one DEFLATE unit (R364). -/
def Prog.dumpData (d : Dump) (raw : List Byte) (media : Bool) : Prog :=
  let head (clen : Nat) : List Byte :=
    le 4 d.name ++ le 4 d.step.toNat ++ le 4 (d.done / 256) ++ le 2 raw.length ++ le 2 clen
      ++ le 1 ((clen != 0).toNat + 2 * media.toNat) ++ zeros 7
  if d.comp then .compress .htu raw fun o => .dumpRec d 0x81 (head o.length ++ o) else .dumpRec d 0x81 (head 0 ++ raw)

/-- The row DUMP_UNIT: the next unit of the dump on a channel is read (R60, R361, R362). It pauses at ladder level L1 or above (R359) and in the
safe state (R43), and waits for room, an engine and its turn (R365); the first transfer outside the partition's windows is not issued and ends the dump, as poisoned data does after the bytes
before it (R61, R363). -/
def Prog.dumpUnit (c : Nat) (data : List Byte) (poisoned : Bool) : Prog := .get fun s =>
  .opt (s.dumpOn c) fun d => .cond (s.ladder .htu == 0 && s.live) <|
    let n := min (s.unitBytes .htu) (d.len - d.done)
    if !s.unitStarts .htu d.comp (s.h.lastTrace || !(s.readsOut .htu && s.on .htu Reg.TRC_CFG_COMPRESS)) n then
      .dev .htu fun e => { e with dumpWaits := e.dumpWaits || d.comp }
    else
    let reads := (hdmaSplit n (d.addr + d.done) n).takeWhile fun x => s.inWindow d.part x.1 x.2
    let got := (reads.map (·.2)).sum
    let bad := poisoned && got != 0
    let raw := if bad then data.take (got - 1) else fit got data
    let d' := { d with done := d.done + raw.length, units := d.units + (if raw = [] then 0 else 1)
                       crc := raw.foldl crc32Step d.crc }
    .seq [
      .dev .htu fun e => { e with dumpWaits := false, lastTrace := e.lastTrace && !d.comp },
      .each reads fun x => .send .htu (.hdmaRead x.1 x.2),
      .cond (raw != []) (.dumpData d raw bad),
      .modDump d.cmd fun _ => d',
      .wr .htu (Reg.TRC_DUMP_DONE c) d'.done,
      if bad then .dumpEnd c d' stMedia haltMedia
      else if got < n then .dumpEnd c d' stAborted haltWindow
      else .cond (d'.done ≥ d'.len) (.dumpEnd c d' stOk 0)]

/-- 1 is written to TRC_DUMP.HALT: a halted channel runs again and its CAUSE clears (R363). -/
def Prog.dumpHalt (c : Nat) : Prog := .get fun s => .cond (s.rd .htu (Reg.TRC_DUMP_STATE c) == chanHalted) <| .seq [
  .wr .htu (Reg.TRC_DUMP_STATE c) chanIdle, .wr .htu (Reg.TRC_DUMP_HALT c) 0, .wr .htu (Reg.TRC_DUMP_CAUSE c) 0, .startDumps]

/-- The step is closed on this die: its context has closed, or a later step has opened. -/
def State.stepClosed (s : State) (step : BitVec 32) : Bool :=
  match s.hx.steps.find? (·.step == step) with
  | some c => c.st != .opened
  | none => s.hx.stepNo != 0 && serialGt 32 (s.rd .htu Reg.SNT_STATUS_STEP) step.toNat

/-- TENSOR_DUMP (R360, R361). -/
def opTensorDump : Op where
  code := 0x62
  onVta := false
  classes := [4]
  plen := (· == 32)
  perms := permTrace
  rsvd := fun _ p => anySet p 10 6 || arg p 9 1 / 2 != 0
  check := fun s _ _ p => firstBad [
    (arg p 8 1 > 1, badParam 0x102),
    (arg p 16 8 % 256 ≠ 0, badParam 0x101),
    (arg p 24 8 % 256 ≠ 0 ∨ arg p 24 8 < 256 ∨ arg p 24 8 > 2 ^ 40, badParam 0x101),
    (!s.inWindow p.part (arg p 16 8) (arg p 24 8), badParam 0x100),
    (!s.on .htu (Reg.TRC_STREAM_VALID p.part), badParam 0x103)]
  late := fun s _ _ p => firstBad [
    (s.hx.dumps.length ≥ 16, { status := stNoResource }),
    (arg p 8 1 = 1 ∧ s.stepClosed (BitVec.ofNat 32 (arg p 4 4)), { status := stDeadline })]
  run := fun _ m p => .both
    (.htu fun x => { x with dumps := x.dumps ++ [{
      name := arg p 0 4, step := BitVec.ofNat 32 (arg p 4 4), atClose := arg p 8 1 == 1, comp := arg p 9 1 % 2 == 1
      addr := arg p 16 8, len := arg p 24 8, part := p.part, cmd := (m, p.tag) }] })
    .startDumps

end Sys2Proof.Machine
end

