-- ==== Sys2Proof/Machine/Sentinel.lean ====
section
/-! DEFINITION. The Sentinel: checking lanes (R222 to R232), modes and configuration (R233 to R236), step contexts, the clean bit
and release (R237 to R242), taint notices and replay (R243 to R247), DUAL (R249, R250), link-adder words (R251 to R253), the drain
(R261, R262) and the self-test (R259, R260). -/

namespace Sys2Proof.Machine

-- verdicts and causes of R264; NOT_SAMPLED is never recorded
def vPass : Nat := 0
def vFail : Nat := 1
def vNan : Nat := 2
def vRange : Nat := 3
def vUnchecked : Nat := 4
def causeMismatch : Nat := 0x01
def causeNan : Nat := 0x02
def causeInf : Nat := 0x03
def causeDual : Nat := 0x04
def causeSkew : Nat := 0x05
def causeNotSampled : Nat := 0x10
def causeFallow : Nat := 0x11
def causeLane : Nat := 0x12
def causeFormat : Nat := 0x13
def causePair : Nat := 0x14

-- modes of R233
def modeOff : Nat := 0
def modeSampled : Nat := 1
def modeGated : Nat := 2
def modeDual : Nat := 3

/-- Mode of the steps that open now: a Sentinel that is not RUNNING handles steps as OFF (R234, R235). -/
def State.sntMode (s : State) : Nat :=
  if (s.fn .htu fidSentinel).st = .running then s.rd .htu Reg.SNT_MODE_MODE else modeOff

/-- The newest OPEN step context. -/
def State.openCtx (s : State) : Option StepCtx := s.hx.steps.reverse.find? (·.st == .opened)

/-- The step context of an opening. -/
def State.ctxNo (s : State) (no : Nat) : Option StepCtx := s.hx.steps.find? (·.no == no)

/-- The mode of the tiles at a lane: that of the newest OPEN step (R234, R237). -/
def State.tileMode (s : State) : Nat := (s.openCtx.map (·.mode)).getD s.sntMode

/-- A step context changes. -/
def Prog.modCtx (no : Nat) (f : StepCtx → StepCtx) : Prog :=
  .htu fun x => { x with steps := x.steps.map fun c => if c.no = no then f c else c }

/-- A lane and a change of it. -/
def State.lane (s : State) (n : Nat) : Lane := Sparse.get {} s.hx.lanes n
def Prog.modLane (n : Nat) (f : Lane → Lane) : Prog := .htu fun x => { x with lanes := Sparse.mod {} x.lanes n f }

/-- The logical cluster that a station serves. -/
def State.logicalOf (s : State) (n : Nat) : Nat := s.rd .htu (Reg.TAP_PHYS_LOGICAL n)

/-- A record of the Sentinel's stream; without VALID it is counted in DROPPED (R264); data of a tainted step carries TAINT
(R247). -/
def Prog.sntRec (typ : Nat) (step : BitVec 32) (t : Option Nat) (payload : List Byte) : Prog := .get fun s =>
  let taint := s.tainted step
  if s.on .htu Reg.SNT_STREAM_VALID then
    .emitAt .htu (s.rd .htu Reg.SNT_STREAM_STREAM) t fun r => { r with typ, payload, taint }
  else .bump .htu Reg.SNT_STREAM_DROPPED

-- notices

/-- TAINT_NOTICE payload (R264). -/
def taintPayload (step : BitVec 32) (causes ring exp clu die coll block : Nat) : List Byte :=
  le 4 step.toNat ++ le 1 causes ++ le 1 ring ++ le 1 exp ++ le 1 clu ++ le 4 (die % 2 ^ 17) ++ le 4 coll ++ le 2 block ++ zeros 6

/-- A waiting notice's bytes joined with a later payload: causes ORed, the least ring position and the greatest exponent
(R244); for REPLAY_LOST the lower step is kept (R246). -/
def noticeMerge (typ : Nat) (old new : List Byte) : List Byte :=
  if typ = 0x45 then
    (if fieldAt new 0 4 < fieldAt old 24 4 then old.take 24 ++ new else old)
  else
    old.take 28 ++ le 1 (fieldAt old 28 1 ||| fieldAt new 4 1) ++ le 1 (min (fieldAt old 29 1) (fieldAt new 5 1))
      ++ le 1 (max (fieldAt old 30 1) (fieldAt new 6 1)) ++ old.drop 31

/-- Replaces the first element that satisfies `p`. -/
def replaceFirst {α : Type} (p : α → Bool) (f : α → α) : List α → List α
  | [] => []
  | a :: t => if p a then f a :: t else a :: replaceFirst p f t

/-- A TAINT_NOTICE or REPLAY_LOST goes to a peer: 2 buffers for notices and one entry for REPLAY_LOST in each direction, and what
finds them full merges into the waiting one (R244, R246). -/
def Prog.sendNotice (u : UnitId) (c : Nat) (r : Rec) : Prog := .get fun s =>
  let k := Sparse.get {} (s.dev u).conns c
  let mine (p : TxPkt) : Bool := p.vc == 2 && p.pkt.isNone && p.sent == 0 && fieldAt p.bytes 0 1 == r.typ
  let same (p : TxPkt) : Bool := mine p && (r.typ == 0x45 || cut p.bytes 24 4 == r.payload.take 4)
  let full := (k.tx.filter mine).length ≥ (if r.typ = 0x45 then 1 else 2)
  if full && k.tx.any same then
    .dev u fun d => { d with conns := Sparse.mod {} d.conns c fun k => { k with
      tx := replaceFirst same (fun p => { p with bytes := noticeMerge r.typ p.bytes r.payload }) k.tx } }
  else .sendPkt u c 2 r.bytes

/-- REPLAY_LOST to the VTA and as a record (R246): reasons 1 LATE, 2 EXHAUSTED, 3 QUEUE_FULL. -/
def Prog.replayLost (step : BitVec 32) (reason : Nat) : Prog := .get fun s =>
  let p := le 4 step.toNat ++ le 1 reason ++ zeros 3
  .both (.sendNotice .htu 0 (s.msg .htu 0x45 0 (s.ns .htu) p)) (.sntRec 0x45 step none p)

/-- An entry for SNT_REPLAY (R254). -/
def Prog.pushReplay (e : ReplayEnt) : Prog := .get fun s =>
  let same (x : ReplayEnt) : Bool := x.coll == e.coll && (if e.coll then x.collId == e.collId else x.step == e.step)
  if s.hx.replayQ.any same then
    .cond e.coll (.htu fun x => { x with replayQ := replaceFirst same (fun _ => e) x.replayQ })
  else if s.hx.replayQ.length ≥ 8 then .replayLost e.step 3
  else .htu fun x => { x with replayQ := x.replayQ ++ [e] }

/-- A later STEP_OPEN than that of s + 1 has come: no inputs are left to replay (R246). -/
def State.replayLate (s : State) (step : BitVec 32) : Bool :=
  s.hx.stepNo != 0 && serialGe 32 (s.rd .htu Reg.SNT_STATUS_STEP) (step + 2).toNat

/-- REPLAY_REQ pulses, naming the step (R43, R243). -/
def Prog.pulseReplay (step : BitVec 32) : Prog := .get fun s => .cond s.live (.send .htu (.replayReq step))

/-- REPLAY_REQ for a step, once per step and replay, with its STEP entry (R239, R243, R246). -/
def Prog.replayReq (step : BitVec 32) : Prog := .get fun s =>
  if s.replayLate step then .replayLost step 1
  else .cond (!s.hx.asked.contains step) <| .seq [
    .htu fun x => { x with asked := x.asked ++ [step] },
    .pushReplay { coll := false, exp := 0, ring := 0, step, collId := 0 },
    .pulseReplay step]

/-- DRAIN_REQ rises (R42, R261); `why` is the trigger of the DRAINED record. -/
def Prog.drain (why : Nat) : Prog := .get fun s =>
  .cond (s.live && !s.hx.drainReq && !s.on .htu Reg.SNT_STATUS_DRAINED) <| .both
    (.htu fun x => { x with drainReq := true, drainLate := false, drainWhy := why }) (.send .htu .drainReq)

-- verdicts in a step context

/-- TILE_VERDICT payload (R264). -/
def verdictPayload (c : StepCtx) (lg : Nat) (v : Verdict) (index : Nat) (partner : Option Nat) : List Byte :=
  let f (h : Half) : List Byte := le 4 h.toNat
  le 4 c.step.toNat ++ le 1 lg ++ le 1 v.verdict ++ le 1 v.cause
    ++ le 1 (v.near.toNat + (if c.replays > 0 then 2 else 0) + (if partner.isSome then 4 else 0))
    ++ le 4 index ++ le 2 (partner.getD v.col) ++ le 2 (v.k - 1)
    ++ f v.maxD ++ f v.tau ++ f v.zInf ++ f v.yInf ++ f v.zj ++ f v.yj

/-- A FAIL counts for its lane, for SUSPECT and for the drain (R261, R262). -/
def Prog.engineFault (n : Nat) (step : BitVec 32) : Prog := .get fun s =>
  let now := s.hx.stepNo
  let l := s.hx.fails.filter (fun f => now < f + s.rd .htu Reg.SNT_REPLAY_CFG_DRAIN_WINDOW) ++ [now]
  let thr := s.rd .htu Reg.SNT_REPLAY_CFG_DRAIN_THRESH
  .seq [
    .wr .htu Reg.SNT_STATUS_SUSPECT 1,
    .bump .htu (Reg.SNT_LANE_FAILS n), .wr .htu (Reg.SNT_LANE_LAST_FAIL_STEP n) step.toNat,
    .htu fun x => { x with fails := l },
    .cond (thr != 0 && l.length ≥ thr && s.on .htu Reg.SNT_MODE_AUTO_DRAIN) (.drain 2)]

/-- SNT_CNT of a verdict. -/
def cntIndex (v : Nat) : Nat :=
  if v = vPass then 1 else if v = vFail then 2 else if v = vNan then 5 else if v = vRange then 6 else 3

/-- A verdict enters its step context (R230, R238, R243, R264). `rec` is false for the second half of a DUAL pair, whose one
record names both. -/
def Prog.enterVerdict (no n : Nat) (v : Verdict) (partner : Option Nat) (rec' : Bool) : Prog := .get fun s =>
  .opt (s.ctxNo no) fun c =>
    let lg := s.logicalOf n
    let i := Sparse.get 0 c.tiles lg
    let w := { v with tile := i }
    let unchk := v.verdict == vUnchecked && v.cause != causeNotSampled
    let bad := v.verdict == vFail || v.verdict == vNan || v.verdict == vRange
    let new := bad && rec' && !c.written.contains (lg, v.verdict)
    let best := match Sparse.find c.nearMax lg with
      | some b => (fpMag b.maxD).toNat < (fpMag v.maxD).toNat
      | none => true
    let old := (Sparse.find c.unchk lg).getD (0, w)
    .cond (c.mode != modeOff) <| .seq [
      .modCtx no fun c => { c with
        tiles := Sparse.put c.tiles lg (i + 1)
        unchk := if unchk then Sparse.put c.unchk lg (old.1 + 1, old.2) else c.unchk
        nearMax := if v.near && best then Sparse.put c.nearMax lg w else c.nearMax
        written := if new then c.written ++ [(lg, v.verdict)] else c.written
        clean := c.clean && v.verdict != vFail && !(unchk && c.mode ≥ 2) },
      .cond (v.verdict != vUnchecked) (.count .htu (Reg.SNT_CNT_COUNT 0)),
      .count .htu (Reg.SNT_CNT_COUNT (cntIndex v.verdict)),
      .cond v.near (.count .htu (Reg.SNT_CNT_COUNT 4)),
      .cond new (.sntRec 0x40 c.step (some v.time) (verdictPayload c lg v i partner)),
      .cond (v.verdict != vPass) (.traceData .htu 0x102 0 (BitVec.ofNat 64 (lg + 2 ^ 8 * v.verdict + 2 ^ 16 * v.cause + 2 ^ 32 * c.step.toNat))),
      .cond (v.verdict == vFail) <| .seq [
        .engineFault n c.step,
        .trigger .htu 3,
        .cond (c.mode == modeSampled) <| .sendNotice .htu 0 (s.msg .htu 0x41 (s.owner lg) (s.ns .htu)
          (taintPayload c.step 1 0 0 lg (s.dieId .htu) 0 0))]]

/-- A tile's DUAL digest meets its partner's (R249, R250). -/
def Prog.dualVerdict (no n : Nat) (v : Verdict) (d : BitVec 64) : Prog := .get fun s =>
  .opt (s.ctxNo no) fun c =>
    let lg := s.logicalOf n
    let pl := lg ^^^ 1
    let t := Sparse.get 0 c.tiles lg + (c.dual.filter (·.1 == lg)).length
    if s.absent pl then .enterVerdict no n { v with verdict := vUnchecked, cause := causePair } none true
    else match c.dual.find? (fun e => e.1 == pl && e.2.1 == t) with
      | none => .modCtx no fun c => { c with dual := c.dual ++ [(lg, t, d)] }
      | some e =>
        let r := if e.2.2 = d then { v with verdict := vPass } else { v with verdict := vFail, cause := causeDual }
        let lo := min lg pl
        .seq [.modCtx no fun c => { c with dual := c.dual.filter (· != e) },
          .enterVerdict no (s.physOf lo) r (some (lo ^^^ 1)) true,
          .enterVerdict no (s.physOf (lo ^^^ 1)) r (some lo) false]

/-- The close of a DUAL step (R250): a pair whose tile counts differ gets one FAIL; a digest whose partner's tile was UNCHECKED, or whose
partner is absent now, is UNCHECKED too. -/
def Prog.dualSkew (no : Nat) : Prog := .get fun s => .opt (s.ctxNo no) fun c => .cond (c.mode == modeDual) <|
  let count (lg : Nat) : Nat := Sparse.get 0 c.tiles lg + (c.dual.filter (·.1 == lg)).length
  let blank : Verdict := { verdict := vUnchecked, cause := causePair, near := false, col := 0, k := 1, maxD := 0, tau := 0, zInf := 0
                           yInf := 0, zj := 0, yj := 0, time := s.ns .htu, digest := none }
  .both (.modCtx no fun c => { c with dual := [] }) <|
    .each ((c.tiles.map (·.1) ++ c.dual.map (·.1)).map fun l => min l (l ^^^ 1)).eraseDups fun lg =>
      if count lg ≠ count (lg ^^^ 1) ∧ !s.absent lg ∧ !s.absent (lg ^^^ 1) then
        .enterVerdict no (s.physOf lg) { blank with verdict := vFail, cause := causeSkew } (some (lg ^^^ 1)) true
      else .each (c.dual.filter fun e => e.1 / 2 == lg / 2) fun e => .enterVerdict no (s.physOf e.1) blank none true

/-- The records that a context writes once, when its clean bit is final (R264). -/
def Prog.finalRecords (no : Nat) : Prog := .get fun s => .opt (s.ctxNo no) fun c => .seq [
  .each c.unchk fun (lg, n, v) => .sntRec 0x40 c.step (some v.time) (verdictPayload c lg v n none),
  .each c.nearMax fun (lg, v) => .sntRec 0x40 c.step (some v.time) (verdictPayload c lg v v.tile none)]

-- clean bit, presentation and release

/-- STEP_ARRIVAL to the VTA (R214). -/
def Prog.sendArrival (no : Nat) : Prog := .get fun s => .opt (s.ctxNo no) fun c =>
  let p := le 4 c.step.toNat ++ le 1 (c.clean.toNat + 2 * c.cap.toNat + 4 * c.arriveV.toNat) ++ le 1 c.lastClu ++ zeros 2
    ++ le 8 c.arriveT
  .sendPkt .htu 0 2 (Rec.bytes { s.msg .htu 0x31 (s.rd .htu Reg.SHF_BAR_CFG_BAR_PART) c.arriveT p with taint := s.tainted c.step })

/-- Release of a step (R240): once, with the clean gate in GATED and DUAL. -/
def Prog.releaseStep (no : Nat) (clean : Bool) : Prog := .get fun s => .opt (s.ctxNo no) fun c =>
  .cond (!c.rel && (c.mode < modeGated || clean)) <| .both
    (.modCtx no fun c => { c with rel := true }) (.release c.step.toNat)

/-- A final clean bit is presented (R238 to R240): only when no later step opened does it reach STEP_CLEAN. -/
def Prog.present (no : Nat) (clean : Bool) : Prog := .get fun s => .opt (s.ctxNo no) fun c => .seq [
  .modCtx no fun c => { c with st := .presented },
  .cond (no == s.hx.stepNo && s.live) <| .both
    (.htu fun x => { x with stepClean := clean, stepCleanValid := true }) (.send .htu (.stepClean clean)),
  .cond (!clean && c.mode != modeOff && !c.quiet) (.replayReq c.step),
  .cond (s.on .htu Reg.SHF_BAR_CFG_BAR_EN || c.done) (.releaseStep no clean)]

/-- A closed context goes FINAL (R238): STEP_ARRIVAL follows the arrival with BAR_EN, else it is presented at once. -/
def Prog.finalise (no : Nat) : Prog := .seq [
  .finalRecords no,
  .modCtx no fun c => { c with st := .final },
  .get fun s => .opt (s.ctxNo no) fun c =>
    if s.on .htu Reg.SHF_BAR_CFG_BAR_EN then .cond c.arrived (.sendArrival no) else .present no c.clean]

/-- A CLOSING context whose verdicts are all in goes FINAL. -/
def Prog.tryFinal (no : Nat) : Prog := .get fun s => .opt (s.ctxNo no) fun c =>
  .cond (c.st == .closing && !s.hx.lanes.any fun l => l.2.out.any fun v => v.ctx == some no) (.both (.dualSkew no) (.finalise no))

/-- A step closes (R237), and dumps that wait for it start (R361). -/
def Prog.closeStep (no : Nat) : Prog := .get fun s => .opt (s.ctxNo no) fun c => .seq [
  .modCtx no fun c => if c.st = .opened then { c with st := .closing } else c,
  .cond (c.st == .opened) (.dumpClose c.step),
  .tryFinal no]

/-- A step is finalised with CLEAN = 0 (R235, R261, R316); `quiet` when it raises no REPLAY_REQ. -/
def Prog.endStep (quiet : Bool) (no : Nat) : Prog := .get fun s => .opt (s.ctxNo no) fun c => .seq [
  .modCtx no fun c => { c with quiet := c.quiet || quiet },
  .cond (c.st == .opened || c.st == .closing) <| .both (.modCtx no fun c => { c with clean := false, dual := [] }) (.finalise no)]

/-- Every open step is finalised with CLEAN = 0. -/
def Prog.endSteps (quiet : Bool) : Prog := .get fun s => .each (s.hx.steps.map (·.no)) (.endStep quiet)

/-- The die arrives in a step (R213, R237): with cluster `lg` last. -/
def Prog.dieArrived (no lg : Nat) : Prog := .get fun s => .seq [
  .modCtx no fun c => { c with
    arrived := true, lastClu := lg, arriveT := if s.timev .htu then s.ns .htu else 0, arriveV := s.timev .htu },
  .cond (!s.on .htu Reg.SNT_MODE_STEP_SRC) (.closeStep no),
  .opt (s.ctxNo no) fun c => .cond (c.st == .final) (.sendArrival no)]

/-- The clusters whose arrival a step awaits: those of BAR_PART that are ACTIVE and not in Fallow (R213), as physical IDs. -/
def State.arrivers (s : State) : List Nat :=
  ((List.range 256).filter fun n => s.owner n == s.rd .htu Reg.SHF_BAR_CFG_BAR_PART && !s.absent n
    && !(s.station (s.physOf n)).fallow).map s.physOf

/-- The rising edge of BAR_LINE at a station (R213). -/
def Prog.barrierEdge (n : Nat) : Prog := .get fun s =>
  .each (s.hx.steps.filter fun c => c.need.contains n) fun c => .both
    (.modCtx c.no fun c => { c with need := c.need.filter (· != n) })
    (.cond (c.need == [n]) (.dieArrived c.no (s.logicalOf n)))

/-- A pending NEXT_MODE takes effect at a STEP_OPEN, or is refused (R234). -/
def Prog.nextMode (step : BitVec 32) : Prog := .get fun s =>
  let now := s.rd .htu Reg.SNT_MODE_MODE
  let want := s.rd .htu Reg.SNT_MODE_NEXT_MODE
  .cond ((s.fn .htu fidSentinel).st == .running && s.on .htu Reg.SNT_MODE_NEXT_VALID) <| .both
    (.wr .htu Reg.SNT_MODE_NEXT_VALID 0) <|
    if now = modeDual ∨ want = modeDual then .event .htu 0x0302 (le 1 want ++ le 1 now ++ zeros 2 ++ le 4 step.toNat)
    else .wr .htu Reg.SNT_MODE_MODE want

/-- Contexts after the STEP_OPEN of a step, before it takes its own (R238): presented ones are retained or freed, retained ones
freed, and on a replay those of later steps freed. -/
def ctxAfterOpen (step : BitVec 32) (replay : Bool) (l : List StepCtx) : List StepCtx :=
  (l.map fun c => if c.st = .presented ∧ c.mode = modeSampled ∧ serialGt 32 step.toNat c.step.toNat then { c with st := .retained }
      else c).filter fun c =>
    !(c.st == .presented && c.mode != modeSampled && serialGt 32 step.toNat c.step.toNat)
      && !(c.st == .retained && serialGe 32 step.toNat (c.step + 2).toNat)
      && !(replay && serialGe 32 c.step.toNat step.toNat)

/-- Room for one more context (R238): the oldest RETAINED one is taken, else the oldest is finalised as INCOMPLETE. -/
def Prog.takeCtx : Prog := .get fun s => .cond (s.hx.steps.length ≥ 4) <|
  match s.hx.steps.find? (·.st == .retained) with
  | some c => .htu fun x => { x with steps := x.steps.filter (·.no != c.no) }
  | none => .opt s.hx.steps.head? fun c => .both (.finalRecords c.no)
      (.htu fun x => { x with steps := x.steps.filter (·.no != c.no) })

/-- A step opens (R213, R234, R237, R238, R246). -/
def Prog.openStep (step : BitVec 32) : Prog := .seq [
  .htu fun x => { x with stepCleanValid := false },
  .nextMode step,
  .get fun s =>
    let old := s.hx.steps.find? fun c => c.step == step
    let busy := match old with
      | some c => c.st == .opened || c.st == .closing || c.st == .final
      | none => false
    let no := s.hx.stepNo + 1
    let replays := (old.map (·.replays + 1)).getD 0
    .cond (!busy) <| .seq [
      .dumpOpen step,
      .htu fun x => { x with
        steps := ctxAfterOpen step old.isSome x.steps
        asked := x.asked.filter fun a => a != step && !serialGe 32 step.toNat (a + 3).toNat
        tainted := x.tainted.filter (· != step)
        stepNo := no },
      .takeCtx,
      .get fun s => .htu fun x => { x with
        steps := x.steps ++ [{ step, no, st := .opened, mode := s.sntMode, clean := true, replays
                               need := if s.on .htu Reg.SHF_BAR_CFG_BAR_EN then s.arrivers else [] }]
        lanes := x.lanes.map fun l => (l.1, { l.2 with out := l.2.out.map fun v => { v with ctx := v.ctx.orElse fun _ => some no } }) },
      .wr .htu Reg.SNT_STATUS_STEP step.toNat,
      .get fun s => .wr .htu Reg.SNT_MODE_MODE_NOW s.sntMode,
      .cond old.isSome <| .both (.count .htu (Reg.SNT_CNT_COUNT 7)) <|
        .cond (replays > s.rd .htu Reg.SNT_REPLAY_CFG_REPLAY_MAX) <| .seq [
          .event .htu 0x0303 (le 4 step.toNat ++ le 1 replays ++ zeros 3),
          .replayLost step 2,
          .cond (s.on .htu Reg.SNT_MODE_AUTO_DRAIN) (.drain 1)],
      .markCap,
      .get fun s => .cond (s.on .htu Reg.SHF_BAR_CFG_BAR_EN && s.arrivers == []) (.dieArrived no 0)],
  .powerStepOpen]

/-- A STEP_OPEN pulse (R40, R43, R175, R242). -/
def Prog.stepPulse (step : BitVec 32) : Prog := .get fun s => .both (.cond (!s.h.inReset) (.count .htu (Reg.TAP_DIE_CNT_COUNT 12))) <|
  if !s.live then .both (.htu fun x => { x with stepClean := true, stepCleanValid := true }) (.send .htu (.stepClean true))
  else .cond (!s.on .htu Reg.SNT_MODE_STEP_SRC) (.openStep step)

/-- A BARRIER_DONE pulse (R43, R44, R237, R240). -/
def Prog.barrierPulse : Prog := .get fun s =>
  if !s.live then .send .htu (.barrierRel 0xFFFF)
  else .cond (!s.on .htu Reg.SNT_MODE_STEP_SRC && !s.on .htu Reg.SHF_BAR_CFG_BAR_EN) <|
    match s.openCtx with
    | none => .release 0
    | some c => .seq [
        .modCtx c.no fun c => { c with done := true },
        .cond (c.mode < modeGated) (.releaseStep c.no true),
        .closeStep c.no]

-- the lanes

/-- A verdict leaves the lane for the step that is open (R237). -/
def Prog.pushVerdict (n : Nat) (v : Verdict) : Prog := .get fun s =>
  .modLane n fun l => { l with out := l.out ++ [{ v with ctx := s.openCtx.map (·.no) }] }

/-- TILE_FIRST (R223, R225, R226): the lane draws its sampling choice and, for a checked tile, r. -/
def Prog.tileFirst (n : Nat) (fmt : BitVec 3) : Prog := .get fun s =>
  let m := s.tileMode
  .cond (!(s.station n).fallow) <| .modLane n fun l =>
    let l0 := laneStep l
    let checked := m == modeGated || (m == modeSampled && l0.w.toNat % 2 ^ s.rd .htu Reg.SNT_MODE_RATE_LOG2 == 0)
    let l1 := laneStep l0
    let l2 := laneStep l1
    let l3 := laneStep l2
    let l4 := laneStep l3
    let sign : BitVec 128 := l1.w.setWidth 128 ||| (l2.w.setWidth 128 <<< 32) ||| (l3.w.setWidth 128 <<< 64)
      ||| (l4.w.setWidth 128 <<< 96)
    let t : Tile := { fmt, checked, sign, y := List.replicate 128 0, k := 0, opNan := false }
    let g := if checked then l4 else l0
    { g with tiles := l.tiles ++ [t], taking := true }

/-- One operand cycle of a tile: s_k through the A-tree and y_j ← y_j + s_k B[k][j] (R224, R227, R228). -/
def Tile.operand (t : Tile) (o : OpRow) : Tile :=
  if t.checked ∧ t.fmt.toNat ≤ 4 then
    let a := fpRow t.fmt o.a o.ea
    let b := fpRow t.fmt o.b o.eb
    let sk := treeSum t.sign a
    { t with k := t.k + 1, y := List.zipWith (fun y b => fpFma y sk b) t.y b
             opNan := t.opNan || a.any (fun x => !fpFinite x) || b.any (fun x => !fpFinite x) }
  else { t with k := t.k + 1 }

/-- |y_j| is non-finite or at least 2^127 (R230). -/
def yWild (y : Half) : Bool := decide (0x7F000000#32 ≤ fpMag y)

/-- One result row: z_j ← z_j + r_i C[i][j], and what the row shows (R227, R230, R249). -/
def Lane.result (l : Lane) (t : Tile) (dual : Bool) (c : List Half) : Lane :=
  let row := (List.range 128).map fun j => c.getD j 0
  let zs := if l.zs = [] then List.replicate 128 0 else l.zs
  let r := t.sign.getLsbD l.row
  let inf := (List.range 128).filter fun j => fpIsInf (row.getD j 0)
  { l with
    row := l.row + 1
    zs := if t.checked then List.zipWith (fun z c => fpAdd z (fpSign r c)) zs row else zs
    cNan := l.cNan || row.any fpIsNan
    cInf := l.cInf || inf.any fun j => !yWild (t.y.getD j 0)
    cInfFree := l.cInfFree || inf.any fun j => yWild (t.y.getD j 0)
    crc := if dual then row.foldl crc64Word l.crc else l.crc }

/-- The blank verdict of a tile. -/
def Tile.verdict (t : Tile) (time verdict cause : Nat) : Verdict :=
  { verdict, cause, near := false, col := 0, k := t.k, maxD := 0, tau := 0, zInf := 0, yInf := 0, zj := 0, yj := 0, time
    digest := none }

/-- The comparison of z and y under the tolerance (R229, R230). -/
def State.compare (s : State) (l : Lane) (t : Tile) (time : Nat) : Verdict :=
  let d := List.zipWith fpDist l.zs t.y
  let m := fpArgMax d
  let zi := (fpArgMax l.zs).2
  let yi := (fpArgMax t.y).2
  let top := fpScaleDown (s.rd .htu Reg.SNT_TOL_N) (fpMaxMag zi yi)
  let floor : Half := BitVec.ofNat 32 (s.rd .htu Reg.SNT_ABS_FLOOR_FLOOR)
  let tau := if fpGt floor top then floor else top
  let nl := s.rd .htu Reg.SNT_TOL_NEAR_LOG2
  let fail := fpGt m.2 tau
  let near := !fail && nl != 0 && fpFinite m.2 && fpFinite tau && decide (fpInt m.2 * 2 ^ nl > fpInt tau)
  { t.verdict time (if fail then vFail else vPass) (if fail then causeMismatch else 0) with
    near, col := m.1, maxD := m.2, tau, zInf := zi, yInf := yi, zj := l.zs.getD m.1 0, yj := t.y.getD m.1 0 }

/-- Checks 1 and 2 of R230, which need no data: the verdict UNCHECKED or none. The rule gives no order among the conditions of check 2: FORMAT
is taken before LANE, and FALLOW, where the cluster enters Fallow, before both (DESIGN CHOICE, log entry 130). -/
def State.unchecked (s : State) (n : Nat) (t : Tile) (mode : Nat) : Option Nat :=
  if mode ≠ modeDual ∧ !t.checked then some causeNotSampled
  else if t.fmt.toNat > 4 then some causeFormat
  else if s.rd .htu (Reg.SNT_LANE_STATE n) = 1 then some causeLane else none

/-- The verdict of a tile at RES_LAST (R230). -/
def State.tileResult (s : State) (n : Nat) (l : Lane) (t : Tile) (mode : Nat) : Verdict :=
  let time := s.ns .htu
  match s.unchecked n t mode with
  | some c => t.verdict time vUnchecked c
  | none =>
    if mode = modeDual then { t.verdict time vPass 0 with digest := some l.crc }
    else if t.opNan then t.verdict time vNan 0
    else if l.cNan then t.verdict time vFail causeNan
    else if l.cInfFree || t.y.any (fun y => !fpFinite y) then t.verdict time vRange 0
    else if l.cInf then t.verdict time vFail causeInf
    else s.compare l t time

/-- The engine signals of one cluster-clock edge (R223, R227, R230): an operand cycle of the newest tile, a result row of the
oldest; a NaN in C gives its verdict at that row. -/
def Prog.laneEdge (n : Nat) (e : EdgeIn) : Prog := .get fun s => .cond (!(s.station n).fallow) <| .seq [
  .opt e.op fun o => .modLane n fun l =>
    if l.taking then { l with tiles := (l.tiles.zipIdx).map fun (t, i) => if i + 1 = l.tiles.length then t.operand o else t }
    else l,
  .opt e.res fun c => .opt (s.lane n).tiles.head? fun _ => .both
    (.modLane n fun l => match l.tiles with
      | [] => l
      | t :: _ => { l.result t (s.tileMode == modeDual) c with taking := l.taking && l.tiles.length != 1 })
    (.get fun s =>
      let l := s.lane n
      .opt l.tiles.head? fun t =>
        .cond (l.cNan && !l.given && s.tileMode != modeDual && !t.opNan && (s.unchecked n t s.tileMode).isNone) <| .both
          (.pushVerdict n (t.verdict (s.ns .htu) vFail causeNan)) (.modLane n fun l => { l with given := true }))]

/-- RES_LAST (R223, R230, R237). -/
def Prog.resLast (n : Nat) : Prog := .get fun s =>
  let l := s.lane n
  .cond (!(s.station n).fallow) <| .opt l.tiles.head? fun t => .both
    (.cond (!l.given) (.pushVerdict n (s.tileResult n l t s.tileMode)))
    (.modLane n fun l => { l with
      tiles := l.tiles.drop 1, taking := l.taking && l.tiles.length != 1, row := 0, zs := []
      cNan := false, cInf := false, cInfFree := false, given := false, crc := BitVec.allOnes 64 })

/-- The lane loses its state as its cluster enters Fallow (R38, R230): open checks are UNCHECKED, and the generator's state after
it is open. -/
def Prog.laneFallow (n : Nat) : Prog := .get fun s =>
  let l := s.lane n
  let open' := if l.given then l.tiles.drop 1 else l.tiles
  .seq [
    .each open' fun t => .pushVerdict n (t.verdict (s.ns .htu) vUnchecked
      ((match s.unchecked n t s.tileMode with
        | some c => if c = causeNotSampled then some c else none
        | none => none).getD causeFallow)),
    .free fun a => .free fun b => .free fun c => .free fun d => .modLane n fun l =>
      let h (v : Nat) : Half := BitVec.ofNat 32 v
      { x := h a, y := h b, z := h c, w := h d, out := l.out }]

/-- A verdict reaches its step context (R232, R238); one whose context is gone is dropped, one of no step yet waits (R237). -/
def Prog.tileVerdict (n : Nat) : Prog := .get fun s => .opt (s.lane n).out.head? fun v => .opt v.ctx fun no => .seq [
  .modLane n fun l => { l with out := l.out.drop 1 },
  .opt (s.ctxNo no) fun c => .cond (c.st == .opened || c.st == .closing) <| .both
    (match v.digest with
      | some d => .cond (c.mode == modeDual) (.dualVerdict no n v d)
      | none => .enterVerdict no n v none true)
    (.tryFinal no)]

/-- DRAIN_ACK rises (R42, R261). -/
def Prog.drainAcked : Prog := .get fun s => .cond (s.hx.drainReq && !s.hx.drainAcked) <| .seq [
  .htu fun x => { x with drainReq := false, drainAcked := true },
  .wr .htu Reg.SNT_STATUS_DRAINED 1,
  .endSteps true,
  .event .htu 0x0301 (le 1 s.hx.drainWhy ++ zeros 3 ++ le 4 (s.rd .htu Reg.SNT_STATUS_STEP))]

/-- The Sentinel starts: generators are loaded from SNT_SEED, which Gorse writes from the entropy source (R225). -/
def Prog.startSentinel : Prog := .free fun lo => .free fun hi => .seq [
  .wr .htu Reg.SNT_SEED_SEED_LO lo, .wr .htu Reg.SNT_SEED_SEED_HI hi,
  .setFn .htu fidSentinel fun f => { f with st := .running },
  .htu fun x => { x with lanes := (List.range 272).map fun n =>
      let l := Sparse.get {} x.lanes n
      (n, laneSeed (lo % 2 ^ 64) (hi % 2 ^ 64) n l) }]

/-- The steps that a stop of the Sentinel waits for: contexts opened before it and not yet PRESENTED (R234). -/
def State.sntOpen (s : State) : List StepCtx :=
  s.hx.steps.filter fun c => c.no ≤ s.hx.stopNo && (c.st == .opened || c.st == .closing || c.st == .final)

/-- A step whose clean bit is not final. -/
def StepCtx.live (c : StepCtx) : Bool := c.st == .opened || c.st == .closing

/-- The Sentinel goes FAULTED (R235): steps in GATED or DUAL are finalised with CLEAN = 0 and raise DRAIN_REQ, the others continue as OFF; with
no open step the mode of the Sentinel decides the drain. -/
def Prog.sntFaulted : Prog := .get fun s =>
  let open' := s.hx.steps.filter (·.live)
  let heavy := if open' = [] then decide (s.rd .htu Reg.SNT_MODE_MODE ≥ modeGated) else open'.any fun c => c.mode ≥ modeGated
  .seq [
    .htu fun x => { x with steps := x.steps.map fun c => if c.live && c.mode < modeGated then { c with mode := modeOff } else c },
    .each ((open'.filter fun c => c.mode ≥ modeGated).map (·.no)) (.endStep false),
    .cond heavy (.drain 3)]

-- notices, results and replay at a member

/-- A TAINT_NOTICE reaches a member HTU (R243, R252, R253). -/
def Prog.noticeRx (r : Rec) : Prog := .get fun s =>
  let p := r.payload
  let step := BitVec.ofNat 32 (fieldAt p 0 4)
  let causes := fieldAt p 4 1
  .seq [
    .cond (causes.testBit 0) <| .seq [
      .htu fun x => { x with tainted := (x.tainted.filter (· != step) ++ [step]).drop ((x.tainted.filter (· != step)).length - 7) },
      .sntRec 0x41 step none (fit 24 p),
      .replayReq step],
    .cond (causes.testBit 1) <| .both
      (.pushReplay { coll := true, exp := BitVec.ofNat 8 (fieldAt p 6 1), ring := BitVec.ofNat 8 (fieldAt p 5 1), step
                     collId := BitVec.ofNat 32 (fieldAt p 12 4) })
      (if s.replayLate step then .replayLost step 1 else .pulseReplay step),
    .cond (causes.testBit 2 && !s.on .htu Reg.SNT_POISON_VALID) <| .seq [
      .wr .htu Reg.SNT_POISON_ORIGIN (fieldAt p 8 4),
      .wr .htu Reg.SNT_POISON_HERE (if fieldAt p 8 4 % 2 ^ 17 = s.dieId .htu then 1 else 0),
      .wr .htu Reg.SNT_POISON_VALID 1, .wr .htu Reg.SNT_POISON_COLL_ID (fieldAt p 12 4),
      .wr .htu Reg.SNT_POISON_BLOCK (fieldAt p 16 2), .wr .htu Reg.SNT_POISON_STEP step.toNat]]

/-- A complete or INCOMPLETE STEP_RESULT reaches a member HTU (R217, R238, R239): `clean` is its CLEAN. -/
def Prog.stepResultRx (step : BitVec 32) (clean : Bool) : Prog := .get fun s =>
  .opt (s.hx.steps.find? fun c => c.step == step) fun c =>
    if c.st = .final then .present c.no clean
    else .cond ((c.st == .opened || c.st == .closing) && !clean) <| .seq [
      .modCtx c.no fun c => { c with clean := false }, .endStep false c.no,
      .get fun s => .opt (s.ctxNo c.no) fun c => .cond (c.st == .final) (.present c.no clean)]

/-- The head of SNT_REPLAY is removed as POP is read (R254). -/
def Prog.popReplay : Prog := .htu fun x => { x with replayQ := x.replayQ.drop 1 }

-- link-adder words

/-- LINK_EXC payload (R264). -/
def linkPayload (step : BitVec 32) (w : BitVec 128) : List Byte :=
  let f (lo n : Nat) : Nat := (w >>> lo).toNat % 2 ^ n
  le 4 step.toNat ++ zeros 1 ++ le 1 (f 0 4) ++ le 1 (f 8 8) ++ le 1 (f 120 8) ++ le 4 (f 32 17) ++ le 4 (f 64 32)
    ++ le 2 (f 96 16) ++ le 1 (f 112 8) ++ zeros 5

/-- A word that finds its crossing FIFO full is dropped and counted; the port, 8 for WIN_SNOOP, is named by a LOSS record once in each
epoch with drops (R41). The LOSS record's count is 0, unknown, and byte 13 names the port. DESIGN CHOICE. -/
def Prog.dropWord (port counter : Nat) : Prog := .get fun s => .both (.count .htu (Reg.TAP_DIE_CNT_COUNT counter)) <|
  .cond (Sparse.find s.hx.dropped port != some (s.epoch .htu)) <| .both
    (.htu fun x => { x with dropped := Sparse.put x.dropped port (s.epoch .htu) })
    (if s.on .htu Reg.SNT_STREAM_VALID then
      .emitAt .htu (s.rd .htu Reg.SNT_STREAM_STREAM) none fun r => { r with
        typ := 1, loss := true, payload := le 4 r.seq ++ le 4 r.seq ++ zeros 4 ++ le 1 lossQueue ++ le 1 port ++ zeros 2 }
    else .bump .htu Reg.SNT_STREAM_DROPPED)

/-- A LADD_EXC word (R175, R251 to R253). -/
def Prog.laddWord (port : Nat) (w : BitVec 128) (full : Bool) : Prog := if full then .dropWord port 4 else .get fun s =>
  let f (lo n : Nat) : Nat := (w >>> lo).toNat % 2 ^ n
  let kind := f 0 4
  let step : BitVec 32 := ((s.openCtx.map (·.step))).getD (BitVec.ofNat 32 (s.rd .htu Reg.SNT_STATUS_STEP))
  let notice (cause : Nat) : Prog := .sendNotice .htu 0 (s.msg .htu 0x41 0 (s.ns .htu)
    (taintPayload step cause (f 8 8) (f 120 8) 0 (s.dieId .htu) (f 64 32) (f 96 16)))
  .both (.traceData .htu 0x103 0 (w.setWidth 64)) <| match kind with
  | 1 => .count .htu (Reg.TAP_DIE_CNT_COUNT 0)
  | 4 => .seq [.count .htu (Reg.TAP_DIE_CNT_COUNT 1), .sntRec 0x42 step none (linkPayload step w), notice 2]
  | _ => if kind = 2 ∨ kind = 3 then .seq [
      .count .htu (Reg.TAP_DIE_CNT_COUNT 0),
      .cond (!s.on .htu Reg.SNT_POISON_VALID) <| .seq [
        .wr .htu Reg.SNT_POISON_ORIGIN (s.dieId .htu), .wr .htu Reg.SNT_POISON_HERE 1, .wr .htu Reg.SNT_POISON_VALID 1,
        .wr .htu Reg.SNT_POISON_COLL_ID (f 64 32), .wr .htu Reg.SNT_POISON_BLOCK (f 96 16),
        .wr .htu Reg.SNT_POISON_STEP step.toNat],
      .sntRec 0x42 step none (linkPayload step w), notice 4]
    else .htu fun x => { x with laddBad := x.laddBad + 1 }

-- commands

/-- The settings of SENTINEL_CONFIG are stored (R236). -/
def Prog.sentinelSet (p : Packet) : Prog := .seq [
  .wr .htu Reg.SNT_MODE_MODE (arg p 0 1), .wr .htu Reg.SNT_MODE_RATE_LOG2 (arg p 1 1), .wr .htu Reg.SNT_TOL_N (arg p 2 1),
  .wr .htu Reg.SNT_TOL_NEAR_LOG2 (arg p 3 1), .wr .htu Reg.SNT_ABS_FLOOR_FLOOR (arg p 4 4),
  .wr .htu Reg.SNT_REPLAY_CFG_REPLAY_MAX (arg p 8 1), .wr .htu Reg.SNT_REPLAY_CFG_DRAIN_THRESH (arg p 9 1),
  .wr .htu Reg.SNT_REPLAY_CFG_DRAIN_WINDOW (arg p 10 2), .wr .htu Reg.SNT_MODE_STEP_SRC (arg p 12 1),
  .wr .htu Reg.SNT_MODE_AUTO_DRAIN (arg p 12 1 / 2)]

/-- SENTINEL_CONFIG (R234, R236). -/
def opSentinelConfig : Op where
  code := 0x30
  onVta := false
  classes := [2]
  plen := (· == 16)
  rsvd := fun _ p => arg p 12 1 / 4 != 0 || anySet p 13 3
  perms := permSnap
  check := fun s _ _ p =>
    let floor : Half := BitVec.ofNat 32 (arg p 4 4)
    firstBad [
      (arg p 0 1 > 3, badParam 0x100), (arg p 1 1 > 8, badParam 0x101), (arg p 2 1 < 4 ∨ arg p 2 1 > 24, badParam 0x102),
      (arg p 3 1 > 8, badParam 0x104), (!fpFinite floor || decide (fpInt floor < 2 ^ 23), badParam 0x103),
      (arg p 8 1 > 15, badParam 0x107), (arg p 10 2 = 0, badParam 0x108),
      ((s.fn .htu fidSentinel).st ≠ .stopped, { status := stNotStopped })]
  run := fun u m p => .both (.sentinelSet p) (.reply u m p.tag { status := stOk })

/-- The STEP_OPEN command (R163, R242). -/
def opStepOpen : Op where
  code := 0x31
  onVta := false
  classes := [2]
  plen := (· == 16)
  rsvd := fun _ p => anySet p 4 4
  perms := permStep
  ready := fun s u _ => s.policy u
  check := fun s _ _ _ => firstBad [(!s.on .htu Reg.SNT_MODE_STEP_SRC, badParam 0x105)]
  late := fun s u _ p =>
    let t := arg p 8 8
    firstBad [
      (t ≠ 0 ∧ s.schedFull u, { status := stNoResource }), (t ≠ 0 ∧ !s.timev u, { status := stTimeInvalid }),
      (t ≠ 0 ∧ (t ≤ s.ns u ∨ s.past u t), { status := stDeadline })]
  run := fun u m p =>
    let step := BitVec.ofNat 32 (arg p 0 4)
    if arg p 8 8 = 0 then .seq [.openStep step, .reply u m p.tag { status := stOk }]
    else .schedule u { t := arg p 8 8, kind := .step step, cmd := some (m, p.tag) }

/-- A STEP_OPEN command's start time comes (R83, R154, R242). -/
def Prog.stepStart : Prog := .get fun s =>
  .opt (s.h.sched.find? fun e => s.due .htu e.t && (match e.kind with
    | .step _ => true
    | _ => false)) fun e => match e.kind with
  | .step n => .both (.unschedule .htu e) <|
      if s.timev .htu then .seq [.acted .htu e.t, .openStep n, .answer .htu e.cmd { status := stOk }]
      else .answer .htu e.cmd { status := stDeadline }
  | _ => .skip

/-- STEP_CLOSE (R237, R242). -/
def opStepClose : Op where
  code := 0x32
  onVta := false
  classes := [2]
  plen := (· == 8)
  rsvd := fun _ p => anySet p 4 4
  perms := permStep
  check := fun s _ _ p => firstBad [
    (!s.on .htu Reg.SNT_MODE_STEP_SRC, badParam 0x105),
    (s.openCtx.map (·.step) ≠ some (BitVec.ofNat 32 (arg p 0 4)), badParam 0x106)]
  run := fun u m p => .get fun s => .both
    (.opt s.openCtx fun c => .seq [
      .modCtx c.no fun c => { c with done := true },
      .cond (c.mode < modeGated && !s.on .htu Reg.SHF_BAR_CFG_BAR_EN) (.releaseStep c.no true),
      .closeStep c.no])
    (.reply u m p.tag { status := stOk })

/-- A mask of lanes as bytes. -/
def laneMask (l : List Nat) (n : Nat) : List Byte :=
  (List.range n).map fun i => BitVec.ofNat 8 ((List.range 8).foldl (fun b j => if l.contains (8 * i + j) then b + 2 ^ j else b) 0)

/-- LANES_BAD follows the lane table (R260). -/
def Prog.showLanes : Prog := .get fun s =>
  .wr .htu Reg.SNT_STATUS_LANES_BAD ((List.range 272).filter fun n => s.rd .htu (Reg.SNT_LANE_STATE n) == 1).length

/-- SELFTEST_RUN (R259, R260): what each lane and digest answers is the silicon's. -/
def opSelftest : Op where
  code := 0x34
  onVta := false
  classes := [2]
  plen := (· == 48)
  rsvd := fun _ p => anySet p 34 6 || arg p 40 1 / 8 != 0 || anySet p 41 7
  perms := permSnap
  check := fun s _ _ _ => firstBad [((s.fn .htu fidSentinel).st ≠ .stopped, { status := stNotStopped })]
  data := fun _ => 80
  run := fun u m p => .get fun s =>
    let k := s.hx.selftests
    let on (b : Nat) : Bool := (arg p 40 1).testBit b
    let asked := if on 0 then (List.range 272).filter fun n => (fieldAt p.params (n / 8) 1).testBit (n % 8) else []
    let skip := asked.filter fun n => (s.station n).fallow
    let run := asked.filter fun n => !(s.station n).fallow
    let bad := run.filter fun n => (List.range 4).any fun t => !Config.selftestLane k n t
    let dig := ([1, 2].filter fun w => on w && !Config.selftestDigest k w).length
    let data := laneMask bad 40 ++ laneMask skip 40
    .seq [
      .htu fun x => { x with selftests := k + 1 },
      .each run fun n => .wr .htu (Reg.SNT_LANE_STATE n) (if bad.contains n then 1 else 0),
      .showLanes,
      .sntRec 0x44 0 none data,
      .reply u m p.tag { status := stOk, result := bad.length + dig, data }]

end Sys2Proof.Machine
end

