-- ==== Sys2Proof/Machine/Sheaf.lean ====
section
/-! DEFINITION. Weight digests (R255 to R258), captures with their replies (R83, R205), merges of partials and their results
(R200, R203, R204, R207), membership (R210 to R212), and the degradation ladder (R219, R220). -/

namespace Sys2Proof.Machine

-- weight digests; SNT_DIGEST.STATE: 0 EMPTY, 1 OPEN, 2 DONE, 3 INVALID

/-- The key H. -/
def State.digestKey (s : State) : BitVec 128 :=
  BitVec.ofNat 128 (s.rd .htu Reg.SNT_DIGEST_KEY_KEY_LO + 2 ^ 64 * s.rd .htu Reg.SNT_DIGEST_KEY_KEY_HI)

/-- The entry that holds a tag in a state. -/
def State.digEntry (s : State) (tag st : Nat) : Option Nat :=
  (List.range 64).find? fun e => s.rd .htu (Reg.SNT_DIGEST_TAG e) == tag && s.rd .htu (Reg.SNT_DIGEST_STATE e) == st

/-- The entry that a new tag takes (R256): its own DONE entry, an EMPTY one, the oldest INVALID, the oldest DONE. -/
def State.digTake (s : State) (tag : Nat) : Option Nat :=
  let oldest (st : Nat) : Option Nat := s.hx.digOrder.find? fun e => s.rd .htu (Reg.SNT_DIGEST_STATE e) == st
  (((s.digEntry tag 2).orElse fun _ => (List.range 64).find? fun e => s.rd .htu (Reg.SNT_DIGEST_STATE e) == 0).orElse
    fun _ => oldest 3).orElse fun _ => oldest 2

/-- The digest of an entry after one word of four blocks, bytes 0 to 15 first (R255). -/
def digestWord (h d : BitVec 128) (w : BitVec 512) : BitVec 128 :=
  (List.range 4).foldl (fun d i => gfMul (d ^^^ (w >>> (128 * i)).setWidth 128) h) d

/-- An OPEN entry takes a word. -/
def Prog.digTakeWord (e : Nat) (w : BitVec 512) (last : Bool) : Prog := .get fun s =>
  let h := s.digestKey
  let d := digestWord h (Sparse.get 0 s.hx.digests e) w
  let len := s.rd .htu (Reg.SNT_DIGEST_LENGTH e) + 64
  let d' := gfMul (d ^^^ BitVec.ofNat 128 (8 * len)) h
  .seq [
    .wr .htu (Reg.SNT_DIGEST_LENGTH e) len,
    .wr .htu (Reg.SNT_DIGEST_STEP e) (match s.openCtx with
      | some c => c.step.toNat
      | none => s.rd .htu Reg.SNT_STATUS_STEP),
    if last then .seq [
      .wr .htu (Reg.SNT_DIGEST_STATE e) 2, .wr .htu (Reg.SNT_DIGEST_DIGEST_LO e) d'.toNat,
      .wr .htu (Reg.SNT_DIGEST_DIGEST_HI e) (d'.toNat / 2 ^ 64),
      .htu fun x => { x with digests := Sparse.del x.digests e }]
    else .htu fun x => { x with digests := Sparse.put x.digests e d }]

/-- A digest entry becomes INVALID (R256): words of its tensor that still come are not digested. -/
def Prog.digInvalid (e : Nat) : Prog := .get fun s => .both
  (.cond (s.rd .htu (Reg.SNT_DIGEST_STATE e) == 1) <| .htu fun x => { x with
    digests := Sparse.del x.digests e, overTags := x.overTags ++ [s.rd .htu (Reg.SNT_DIGEST_TAG e)] })
  (.both (.wr .htu (Reg.SNT_DIGEST_STATE e) 3) (.bump .htu Reg.SNT_DIGEST_STAT_INVALIDATED))

/-- Policy loads another key: the entries digested under the one before become INVALID (R263). -/
def Prog.keyLoaded : Prog := .get fun s =>
  .each ((List.range 64).filter fun e => s.rd .htu (Reg.SNT_DIGEST_STATE e) == 1 || s.rd .htu (Reg.SNT_DIGEST_STATE e) == 2) .digInvalid

/-- The entry of a tensor (R256): its OPEN one, else one that its first word takes, on which `go` runs. With no entry to take, or 8 OPEN, the
tensor is counted in OVERRUN and its other words are not digested. -/
def Prog.digOpen (t : Nat) (go : Nat → Prog) : Prog := .get fun s =>
  let opened := ((List.range 64).filter fun e => s.rd .htu (Reg.SNT_DIGEST_STATE e) == 1).length
  match s.digEntry t 1, s.digTake t with
  | some e, _ => go e
  | none, some e => if opened ≥ 8 then .both (.bump .htu Reg.SNT_DIGEST_STAT_OVERRUN) (.htu fun x => { x with overTags := x.overTags ++ [t] })
      else .seq [
        .wr .htu (Reg.SNT_DIGEST_TAG e) t, .wr .htu (Reg.SNT_DIGEST_STATE e) 1, .wr .htu (Reg.SNT_DIGEST_LENGTH e) 0,
        .wr .htu (Reg.SNT_DIGEST_DIGEST_LO e) 0, .wr .htu (Reg.SNT_DIGEST_DIGEST_HI e) 0,
        .htu fun x => { x with digests := Sparse.del x.digests e, digOrder := x.digOrder.filter (· != e) ++ [e] },
        go e]
  | none, none => .both (.bump .htu Reg.SNT_DIGEST_STAT_OVERRUN) (.htu fun x => { x with overTags := x.overTags ++ [t] })

/-- A WIN_SNOOP word (R41, R175, R255, R256): one that is dropped makes the digest of its tensor INVALID, also where it was the first. -/
def Prog.winWord (tag : BitVec 16) (w : BitVec 512) (last full : Bool) : Prog := .get fun s =>
  let t := tag.toNat
  .seq [
    if full then .dropWord 8 3 else .count .htu (Reg.TAP_DIE_CNT_COUNT 2) 64,
    .cond (!s.hx.overTags.contains t) (.digOpen t fun e => if full then .digInvalid e else .digTakeWord e w last),
    .cond last (.htu fun x => { x with overTags := x.overTags.filter (· != t) })]

-- captures and their replies

/-- The sheaf of a digest comparison (R257). -/
def digestSheaf (tag : Nat) : SheafKey := { id := 0xFFFF, part := 0, digest := sheafDigest opMinMax 1 0 tag }

/-- The DIGEST_RESULT payload and RESULT (R258). -/
def digestAnswer (ep : Nat) (p : Part) : Nat × List Byte :=
  let (lo, hi) := match p.lanes with
    | .mm l h :: _ => (l, h)
    | _ => (2 ^ 128 - 1, 0)
  (if lo ≠ hi then 1 else if p.contrib = p.members ∧ p.dies ≠ 0 then 0 else 2,
   le 16 lo ++ le 16 hi ++ le 2 p.members ++ le 2 p.contrib ++ le 1 p.flags ++ zeros 3 ++ le 4 ep ++ zeros 4)

/-- The answer of a digest comparison is replied and recorded (R258). -/
def Prog.digestReply (u : UnitId) (cmd : Option (Nat × BitVec 16)) (ep : Nat) (p : Part) : Prog :=
  let a := digestAnswer ep p
  .both
    (match u with
      | .htu => .sntRec 0x43 0 none a.2
      | .vta => .emitReg .vta Reg.VTA_FLT_STREAM_V_VALID Reg.VTA_FLT_STREAM_VERDICT 0x43 a.2)
    (.answer u cmd { status := stOk, result := a.1, data := a.2 })

/-- This HTU's partial of a digest comparison, when its entry is DONE. -/
def State.digestPart (s : State) (tag t : Nat) : Option Part :=
  (s.digEntry tag 2).map fun e =>
    let v := s.rd .htu (Reg.SNT_DIGEST_DIGEST_LO e) + 2 ^ 64 * s.rd .htu (Reg.SNT_DIGEST_DIGEST_HI e)
    { op := opMinMax, level := 0, flags := 0, ladder := s.ladderAt .htu (epochOf t), epoch := BitVec.ofNat 32 (epochOf t)
      members := 1, contrib := 1, dies := 1, clusters := 0, lanes := [.mm v v] }

/-- A part with nothing in it. -/
def emptyPart (op level ladder ep members : Nat) : Part :=
  { op, level, flags := 0, ladder, epoch := BitVec.ofNat 32 ep, members, contrib := 0, dies := 0, clusters := 0, lanes := [] }

/-- The inputs of each held level that a digest comparison takes: MASK at the highest role, and every input of a lower role whose
own input is named (R257). -/
def State.digestMask (s : State) (mask : Word) (l : Level) : Word :=
  let next (parent : Level) (m : Word) : Word :=
    if s.holdsRole parent ∧ m.getLsbD (ownIndex (levelBelow parent)) then BitVec.allOnes 64 else 0
  let hall := if s.topRole = .hall then mask else 0
  let row := if s.topRole = .row then mask else next .hall hall
  let rack := if s.topRole = .rack then mask else next .row row
  match l with
  | .hall => hall
  | .row => row
  | .rack => rack
  | .tray => if s.topRole = .tray then mask else next .rack rack

/-- The digest merges open at every level that takes part (R257). -/
def Prog.openDigest (tag t : Nat) (mask : Word) : Prog := .get fun s =>
  .each [Level.tray, .rack, .row, .hall] fun l =>
    let mem := (List.range (levelInputs l)).filter (s.digestMask mask l).getLsbD
    .cond (s.holdsRoleAt l t && mem != []) <| .vta fun x => { x with merges := x.merges ++
      [{ level := l, key := digestSheaf tag, epoch := BitVec.ofNat 32 (epochOf t), t, members := mem, parts := [], left := []
         started := false, ladder := s.ladderAt .vta (epochOf t) }] }

/-- What a comparator entry that captured does beyond the capture: its reply, or the digest's contribution. -/
def Prog.captured (u : UnitId) (t : Nat) (e : Sched) : Prog := match e.kind with
  | .digest tag mask scope => match u with
    | .htu => .get fun s => .both
        (.opt (s.digestPart tag.toNat t) fun p => .cond ((e.cmd.map (·.1)) == some 2 && s.timev .htu && s.policy .htu) <|
          .sendPkt .htu 0 2 (Rec.bytes (s.msg .htu 0x30 0 t (p.payload (digestSheaf tag.toNat) 1))))
        (.digestReply .htu e.cmd (epochOf t) ((s.digestPart tag.toNat t).getD (emptyPart opMinMax 0 (s.ladderAt .htu (epochOf t)) (epochOf t) 1)))
    | .vta =>
      if scope = 0 then .digestReply .vta e.cmd (epochOf t) (emptyPart opMinMax (levelNo .tray) 0 (epochOf t) 0)
      else .seq [.openDigest tag.toNat t mask,
        .vta fun x => { x with digCmds := x.digCmds ++ (e.cmd.map fun c => (BitVec.ofNat 32 (epochOf t), mask, c.1, c.2)).toList }]
  | .pulseSnap _ _ => .skip
  | _ => .answer u e.cmd { status := stOk }

/-- The row CAPTURE: the entries of instant `t` capture and reply; without time they complete with DEADLINE_PASSED (R83, R154,
R205). -/
def Prog.capture (u : UnitId) (t : Nat) : Prog := .get fun s =>
  let l := (s.captureEntries u t).filter fun e => match e.kind with
    | .sweep _ => false
    | _ => true
  .cond (l != [] && s.due u t) <|
    if s.timev u then .seq [.captureAt u t, .each l (.unschedule u), .each l (.captured u t)]
    else .each l fun e => .both (.unschedule u e) (.answer u e.cmd { status := stDeadline })

/-- The instant of the capture already scheduled in the epoch of `t`, which a digest comparison joins (R257). -/
def State.joinInstant (s : State) (u : UnitId) (t : Nat) : Nat :=
  (((s.dev u).captures).find? fun x => x / 1000 == t / 1000).getD t

/-- DIGEST_COMPARE (R257, R258). -/
def opDigestCompare : Op where
  code := 0x33
  plen := (· == 24)
  rsvd := fun _ p => anySet p 11 5
  perms := permSnap
  ready := fun s u _ => s.policy u
  check := fun s u _ p =>
    let t := arg p 0 8
    let foreign := (List.range 64).any fun i => i ≥ levelInputs s.topRole && (arg p 16 8).testBit i
    firstBad [
      (arg p 10 1 > 1 ∨ (u = .htu ∧ (arg p 10 1 ≠ 0 ∨ arg p 16 8 ≠ 0)), badParam 0x110),
      (u = .vta ∧ foreign, badParam 0x111),
      (!s.past u t ∧ (s.nearOther u t ∨ (s.dev u).taken.any fun x => x / 1000 == t / 1000), { status := stBusy })]
  data := fun _ => 48
  late := fun s u _ p =>
    let t := arg p 0 8
    firstBad [
      (s.schedFull u, { status := stNoResource }), (!s.timev u, { status := stTimeInvalid }),
      (s.tooSoon u (arg p 10 1 == 1) t ∨ s.past u t, { status := stDeadline })]
  run := fun u m p => .get fun s =>
    let mask := BitVec.ofNat 64 (arg p 16 8)
    .both
      (.schedule u { t := s.joinInstant u (arg p 0 8), kind := .digest (BitVec.ofNat 16 (arg p 8 2)) mask (arg p 10 1)
                     cmd := some (m, p.tag) })
      (.cond (u == .vta && arg p 10 1 == 1) <| .forwardBelow 0x33 { p with params := p.params.take 16 ++ le 8 (2 ^ 64 - 1) } 10
        (s.digestMask mask) fun b => b.take 16 ++ zeros 8)

-- merges

/-- The VTA collectors that merge a sheaf at a level: RUNNING or DRAINING (R190, R199). -/
def State.mergeColls (s : State) (l : Level) (k : SheafKey) : List (Nat × Coll) :=
  s.v.colls.filter fun e => e.2.level == l && s.sheafKey .vta e.2 e.1 == k
    && ((s.fn .vta (fidCollector e.1)).st == .running || (s.fn .vta (fidCollector e.1)).st == .draining)

/-- A collector's selection entry takes an input (R190). -/
def Coll.takes (c : Coll) (input : Nat) : Bool := c.sels.any fun e => e.first ≤ input && input ≤ e.last

/-- The merges of a sheaf for an epoch at a level: one for each collector that merges it (R190). -/
def State.mergesOf (s : State) (l : Level) (k : SheafKey) (ep : BitVec 32) : List Merge :=
  s.vx.merges.filter fun m => m.level == l && m.key == k && m.epoch == ep

/-- A merge starts when every expected input has arrived or has left (R207). -/
def Merge.ready (m : Merge) : Merge :=
  { m with started := m.started || m.members.all fun i => m.parts.any (·.1 == i) || m.left.contains i || m.planned.contains i }

/-- The merges that a test selects change. -/
def Prog.modMerges (sel : Merge → Bool) (f : Merge → Merge) : Prog := .vta fun x =>
  { x with merges := x.merges.map fun m => if sel m then (f m).ready else m }

/-- The merges of a sheaf for an epoch change. -/
def Prog.modMerge (l : Level) (k : SheafKey) (ep : BitVec 32) (f : Merge → Merge) : Prog :=
  .modMerges (fun m => m.level == l && m.key == k && m.epoch == ep) f

/-- A merge still expects an input: it is a member that neither came nor left, and the merge has not started (R207, R211). -/
def Merge.awaits (m : Merge) (input : Nat) : Bool :=
  !m.started && m.members.contains input && !m.parts.any (·.1 == input) && !m.left.contains input && !m.planned.contains input

/-- The level's cutoff in ns after T (R207, R208). -/
def State.cutoff (s : State) (l : Level) : Nat :=
  s.rd .vta (match l with
    | .tray => Reg.SHF_CUTOFF_TRAY
    | .rack => Reg.SHF_CUTOFF_RACK
    | .row => Reg.SHF_CUTOFF_ROW
    | .hall => Reg.SHF_CUTOFF_HALL)

/-- SHF_MEMBERS shows the members of the current epoch. -/
def Prog.showMembers : Prog := .get fun s =>
  let bits (l : Level) : Nat := ((List.range (levelInputs l)).filter fun i => s.vx.members.any fun m =>
    m.level == l && m.input == i && serialGe 32 (s.epoch .vta) m.first.toNat && (match m.last with
      | some e => serialGe 32 e.toNat (s.epoch .vta)
      | none => true)).foldl (fun b i => b + 2 ^ i) 0
  .seq [.wr .vta Reg.SHF_MEMBERS_PORTS (bits .tray), .wr .vta Reg.SHF_MEMBERS_TRAYS (bits .rack),
    .wr .vta Reg.SHF_MEMBERS_RACKS (bits .row), .wr .vta Reg.SHF_MEMBERS_ROWS (bits .hall)]

/-- The MEMBERSHIP record of a change in the stream of each collector that merges the input (R211). -/
def Prog.memberRec (l : Level) (k : SheafKey) (leave : Bool) (cause input ep : Nat) : Prog := .get fun s =>
  .each ((s.mergeColls l k).filter (·.2.takes input)) fun (_, c) => .emitSvc .vta c.stream (some 1) none fun r =>
    { r with typ := 0x34, payload := memberPayload leave cause k (if l = .tray then s.dieId .vta + input else input) ep }

/-- The first epoch for which a change made now counts: the named one, or the next after the merges that are open (R210, R212). -/
def State.changeEpoch (s : State) (l : Level) (k : SheafKey) (ep : Nat) : Nat :=
  let fixed := (s.vx.merges.filter fun m => m.level == l && m.key == k).map (·.epoch.toNat)
    ++ (s.vx.merged.filter fun m => m.1 == l && m.2.1 == k).map (·.2.2.toNat)
  fixed.foldl (fun e f => if serialGe 32 f e then (f + 1) % 2 ^ 32 else e) ep

/-- A MEMBERSHIP message (R210 to R212). A planned leave makes no epoch PARTIAL: a merge past its last epoch no longer waits for the input. -/
def Prog.membership (l : Level) (input : Nat) (r : Rec) : Prog := .get fun s =>
  let b := r.payload
  let leave := fieldAt b 0 1 == 1
  let k : SheafKey := { id := fieldAt b 2 2, part := r.part, digest := fieldAt b 4 4 }
  let mine (m : Member) : Bool := m.level == l && m.key == k && m.input == input
  let ep := fieldAt b 12 4
  let first := s.changeEpoch l k ep
  .cond (s.holdsFor l none r && s.fromHead l input r && input < levelInputs l) <|
    if leave then
      .cond (s.vx.members.any mine) <| .seq [
        .vta fun x => { x with members := x.members.map fun m => if mine m then { m with last := some (BitVec.ofNat 32 ep) } else m },
        .modMerges (fun m => m.level == l && m.key == k && serialGt 32 m.epoch.toNat ep && m.awaits input) fun m =>
          { m with planned := m.planned ++ [input] },
        .memberRec l k true 1 input ((ep + 1) % 2 ^ 32), .showMembers]
    else .seq [
      .vta fun x => { x with members := (x.members.filter fun m => !(mine m && (match m.last with
          | some e => serialGe 32 e.toNat first
          | none => true))) ++ [{ level := l, key := k, input, first := BitVec.ofNat 32 first }] },
      .memberRec l k false 0 input first, .showMembers]

/-- An input leaves unplanned (R211): 2 loss of every path, 3 a reset, 4 quarantine. It leaves every epoch that awaits it and is no
member from the next. -/
def Prog.inputGone (l : Level) (input cause : Nat) : Prog := .get fun s =>
  let gone := s.vx.members.filter fun m => m.level == l && m.input == input
  .seq [
    .modMerges (fun m => m.level == l && m.awaits input) fun m => { m with left := m.left ++ [input] },
    .vta fun x => { x with members := x.members.filter fun m => !(m.level == l && m.input == input) },
    .each gone fun m => .memberRec l m.key true cause input (s.changeEpoch l m.key (s.epoch .vta)),
    .showMembers]

/-- An epoch buffer of an input is free for an epoch (R209): a Furrow input has two, an input of a higher level 32. -/
def State.bufferFree (s : State) (l : Level) (input : Nat) (ep : BitVec 32) : Bool :=
  let held := ((s.vx.merges.filter fun m => m.level == l && m.parts.any (·.1 == input)).map (·.epoch)).eraseDups
  held.contains ep || held.length < (if l = .tray then 2 else 32)

/-- A sheaf partial at a merge point (R190, R200, R203, R207, R209, R211): every merge of its sheaf and epoch that expects the input takes
it. One that comes too late, or that no collector here merges, is discarded and counted; one that finds no buffer free is not taken. -/
def Prog.sheafPartial (l : Level) (input : Nat) (r : Rec) : Prog := .get fun s =>
  let (k, p) := Part.ofPayload r.part r.payload
  let near (k' : SheafKey) : Bool := k'.id == k.id && k'.part == k.part && k'.digest != k.digest
  let other := (s.v.colls.filter fun e => e.2.level == l && near (s.sheafKey .vta e.2 e.1)
      && (s.fn .vta (fidCollector e.1)).st != .stopped).map fun e => s.sheafKey .vta e.2 e.1
  let ms := s.mergesOf l k p.epoch
  let takes (m : Merge) : Bool := m.level == l && m.key == k && m.epoch == p.epoch && m.awaits input
  let known := ms != [] || (s.mergeColls l k).any (·.2.takes input)
  .cond (input < levelInputs l && s.fromHead l input r) <|
    if ms.any takes then .cond (s.bufferFree l input p.epoch) (.modMerges takes fun m =>
      if p.lost then { m with left := m.left ++ [input], inFlags := m.inFlags ||| p.flags } else { m with parts := m.parts ++ [(input, p)] })
    else if known && s.holdsFor l (ms.head?.map (·.t)) r then
      .both (.bump .vta Reg.SHF_ERR_LATE) (.vta fun x => { x with lateNext := x.lateNext ++ [(l, k, p.epoch)] })
    else .both (.bump .vta Reg.SHF_ERR_MISMATCH) <| .each other.eraseDups fun k' => .seq [
        .vta fun x => { x with
          missNext := if x.merges.any (fun m => m.level == l && m.key == k' && m.epoch == p.epoch) then x.missNext
            else x.missNext ++ [(l, k')]
          members := x.members.filter fun m => !(m.level == l && m.key == k' && m.input == input) },
        .modMerge l k' p.epoch fun m => { m with left := m.left ++ [input], mismatch := true },
        .memberRec l k' true 5 input (s.changeEpoch l k' ((p.epoch.toNat + 1) % 2 ^ 32))]

/-- The cutoff of the merges of a sheaf for an epoch (R207). -/
def Prog.mergeCutoff (l : Level) (k : SheafKey) (ep : BitVec 32) : Prog := .get fun s =>
  .modMerges (fun m => m.level == l && m.key == k && m.epoch == ep && m.t + s.cutoff l ≤ s.ns .vta) fun m => { m with started := true }

/-- A merge's result carries LATE: a partial of an earlier epoch of its sheaf came late (R207). -/
def State.lateIn (s : State) (m : Merge) : Bool :=
  s.vx.lateNext.any fun e => e.1 == m.level && e.2.1 == m.key && serialGt 32 m.epoch.toNat e.2.2.toNat

/-- The merged part of a merge (R192, R203), at the ladder level of its epoch (R218). A planned leave makes it no PARTIAL (R211). -/
def State.mergedPart (s : State) (m : Merge) (op lanes offset : Nat) : Part :=
  let ps := m.parts.map (·.2)
  let ladder := m.ladder
  let lane (i : Nat) : LaneVal :=
    let v := laneMergeAll op offset (ps.filterMap fun p => p.lanes[i]?)
    if ladder ≥ 3 ∧ op = 0x0D then v.coarse else v
  let missing := m.members.any fun i => !m.planned.contains i && !m.parts.any (·.1 == i)
  let own := (if missing ∨ m.media ∨ s.vx.badEpochs.contains m.epoch.toNat then flagPartial else 0)
    ||| (if s.lateIn m then flagLate else 0)
    ||| (if m.mismatch ∨ s.vx.missNext.contains (m.level, m.key) then flagMismatch else 0)
    ||| (if m.media then flagMedia ||| flagPartial else 0) ||| (if ladder ≥ 3 ∧ op = 0x0D then flagCoarse else 0)
  { op, level := levelNo m.level, flags := ps.foldl (fun f p => f ||| p.flags) (own ||| m.inFlags), ladder, epoch := m.epoch
    members := m.members.length, contrib := m.parts.length, dies := (ps.map (·.dies)).sum, clusters := (ps.map (·.clusters)).sum
    lanes := if m.media then [] else (List.range lanes).map lane }

/-- The space of epoch buffers whose merges have completed is free again (R209, R377). -/
def Prog.freeBuffers : Prog := .get fun s =>
  let busy (c : Nat) (e : Nat × Nat) : Bool :=
    s.vx.merges.any fun m => m.level == .tray && m.epoch.toNat == e.1 && m.parts.any (·.1 == c)
  .each (s.v.conns.filter fun e => e.2.owed.any fun b => !busy e.1 b) fun e =>
    let n := ((e.2.owed.filter fun b => !busy e.1 b).map (·.2)).sum
    .dev .vta fun d => { d with conns := Sparse.mod {} d.conns e.1 fun k => { k with
      owed := k.owed.filter (busy e.1), credit := Sparse.put k.credit 18 ((Sparse.get 0 k.credit 18 + n) % 4096) } }

/-- The result of one merge that has started (R203, R204, R206, R207, R258). What the flags of a result announce is over when no merge of
its sheaf and epoch is open any more. -/
def Prog.mergeResult (m : Merge) : Prog := .get fun s =>
    let l := m.level
    let k := m.key
    let ep := m.epoch
    let finish (p : Part) : Prog := .seq [
      .vta fun x =>
        let rest := x.merges.filter (· != m)
        let more := rest.any fun x => x.level == l && x.key == k && x.epoch == ep
        { x with
          merges := rest
          lateNext := if more then x.lateNext
            else x.lateNext.filter fun e => !(e.1 == l && e.2.1 == k && serialGt 32 ep.toNat e.2.2.toNat)
          missNext := if more then x.missNext else x.missNext.filter (· != (l, k))
          merged := x.merged.filter (fun e => !(e.1 == l && e.2.1 == k)) ++ [(l, k, ep)] },
      .freeBuffers,
      .traceData .vta 0x20 0 (BitVec.ofNat 64 (levelNo l + 2 ^ 8 * p.contrib + 2 ^ 32 * ep.toNat)),
      .cond (serialGe 32 ep.toNat (s.rd .vta Reg.SHF_EPOCH_EPOCH)) (.wr .vta Reg.SHF_EPOCH_EPOCH ep.toNat),
      .cond (p.flags.testBit 0) (.bump .vta Reg.SHF_ERR_PARTIAL), .cond m.media (.bump .vta Reg.SHF_ERR_MEDIA),
      .showMembers]
    let up (p : Part) (lanes : Nat) : Rec :=
      { s.msg .vta 0x30 k.part m.t (p.payload k lanes) with unit := unitCode .vta false (levelRank l), partial' := p.flags.testBit 0 }
    if k.id = 0xFFFF then
      let p := s.mergedPart m opMinMax 1 0
      let mine := s.vx.digCmds.filter fun c => c.1 == ep && l == s.topRole
      .seq [.each mine fun c => .both (.digestReply .vta (some (c.2.2.1, c.2.2.2)) m.epoch.toNat p)
              (.cond (c.2.2.1 == 9) (.ethRec true 6 (up p 1))),
            .cond (l != s.topRole) (.ethRec true 6 (up p 1)),
            .vta fun x => { x with digCmds := x.digCmds.filter fun c => !(c.1 == ep && l == s.topRole) }, finish p]
    else match (s.mergeColls l k).find? (fun e => some e.1 == m.coll) with
      | none => .both (.vta fun x => { x with merges := x.merges.filter (· != m) }) .freeBuffers
      | some (cn, c) =>
        let lanes := laneCount .vta c.sels
        let p := s.mergedPart m c.op lanes (s.rd .vta (Reg.SHF_COLL_P0 cn) % 65536)
        .seq [
          .emitSvc .vta c.stream (some 1) (some m.t) fun r =>
            { r with typ := 0x30, partial' := p.flags.testBit 0, payload := p.payload k lanes },
          .cond (s.on .vta (Reg.SHF_COLL_UP cn)) (.ethRec true 6 (up p lanes)),
          finish p]

/-- The row SHEAF_RESULT: every merge of a sheaf for an epoch that has started is complete (R206). -/
def Prog.sheafResult (l : Level) (k : SheafKey) (ep : BitVec 32) : Prog := .get fun s =>
  .each ((s.mergesOf l k ep).filter (·.started)) .mergeResult

/-- An uncorrectable error in the HTU's merge buffer (R203): a die partial of the sheaf and epoch that has not left carries MEDIA and PARTIAL
and no lane payload. -/
def Prog.partialMedia (k : SheafKey) (ep : Nat) : Prog := .get fun s =>
  let hit (t : TxPkt) : Option (List Byte) := if t.vc ≠ 2 ∨ t.sent ≠ 0 then none else (Rec.ofBytes t.bytes).bind fun r =>
    let q := Part.ofPayload r.part r.payload
    if r.typ = 0x30 ∧ q.1 = k ∧ q.2.epoch.toNat = ep ∧ !q.2.lost then
      some (Rec.bytes { r with
        partial' := true
        payload := Part.payload { q.2 with flags := q.2.flags ||| flagPartial ||| flagMedia, lanes := [] } k (fieldAt r.payload 4 2) })
    else none
  .cond (s.h.conns.any fun e => e.2.tx.any fun t => (hit t).isSome) <| .both (.bump .htu Reg.SHF_ERR_MEDIA) <|
    .dev .htu fun d => { d with
      conns := d.conns.map fun e => (e.1, { e.2 with tx := e.2.tx.map fun t => { t with bytes := (hit t).getD t.bytes } }) }

-- the degradation ladder

/-- ENTER and EXIT of a level, 1 to 4, in percent (R219): fixed on the HTU. -/
def State.ladderEnter (s : State) (u : UnitId) (n : Nat) : Nat :=
  match u with
  | .htu => [50, 65, 80, 90].getD (n - 1) 100
  | .vta => s.rd .vta (Reg.SHF_LADDER_THR_ENTER (n - 1))
def State.ladderExit (s : State) (u : UnitId) (n : Nat) : Nat :=
  match u with
  | .htu => [30, 45, 60, 70].getD (n - 1) 0
  | .vta => s.rd .vta (Reg.SHF_LADDER_THR_EXIT (n - 1))

/-- Bytes of records that the ingress contexts hold (R394). -/
def VtaX.heldBytes (x : VtaX) : Nat := (x.ingress.map fun g => (g.held.map Rec.size).sum).sum

/-- Occupancy in percent (R219): of the HTU's transmit buffer; on the VTA of the record ingress buffer, with the records that wait
for an uplink. Segments are written as they close, so the archive write queue is empty. -/
def State.occupancy (s : State) (u : UnitId) : Nat :=
  match u with
  | .htu => 100 * s.h.bulkBytes / txLimit .htu
  | .vta => 100 * (s.v.bulkBytes + s.vx.heldBytes) / txLimit .vta

/-- An occupancy sample. -/
def Prog.queueSample (u : UnitId) : Prog := .get fun s =>
  let n := s.occupancy u
  .dev u fun d => { d with ladder := { d.ladder with occ := n } }

/-- A scheduled change takes its place by apply epoch; a later word for the same epoch and source replaces the earlier (R219). -/
def Ladder.plan (l : Ladder) (ep : Nat) (pushed : Bool) (level : Nat) : Ladder :=
  let rest := l.pend.filter fun e => !(e.1 == ep && e.2.1 == pushed)
  { l with pend := rest.takeWhile (fun e => serialGe 32 ep e.1) ++ (ep, pushed, level) :: rest.dropWhile fun e => serialGe 32 ep e.1 }

/-- The changes whose apply epoch has started are in force (R219). -/
def Ladder.enter (l : Ladder) (ep : Nat) : Ladder :=
  let due (pushed : Bool) (now : Nat) : Nat := l.pend.foldl (fun a e => if e.2.1 == pushed && serialGe 32 ep e.1 then e.2.2 else a) now
  { l with ownIn := due false l.ownIn, pushIn := due true l.pushIn, pend := l.pend.filter fun e => !serialGe 32 ep e.1 }

/-- SHF_STATUS and SHF_LADDER_EPOCH show the next change of the level in force. -/
def Prog.showLadder (u : UnitId) : Prog := .get fun s =>
  let l := (s.dev u).ladder
  match l.pend.find? fun e => l.at e.1 != s.rd u Reg.SHF_STATUS_LEVEL with
  | some e => .seq [
      .wr u Reg.SHF_STATUS_PEND_LEVEL (l.at e.1), .wr u Reg.SHF_STATUS_PEND 1, .wr u Reg.SHF_LADDER_EPOCH_APPLY_EPOCH e.1]
  | none => .wr u Reg.SHF_STATUS_PEND 0

/-- A level for epoch `ep` is scheduled, and a change of the level in force is recorded (R219, R220): byte 0 old, 1 new, 2 occupancy, 3 own 0
or pushed 1, 4 to 7 the apply epoch. Its stream is the unit's power stream. -/
def Prog.ladderSchedule (u : UnitId) (ep : Nat) (pushed : Bool) (level : Nat) : Prog := .get fun s =>
  let l := (s.dev u).ladder.plan ep pushed level
  let old := l.at ((ep + 2 ^ 32 - 1) % 2 ^ 32)
  .seq [.dev u fun d => { d with ladder := l }, .showLadder u,
    .cond (l.at ep != old) (.powerRec u 0x33 (le 1 old ++ le 1 (l.at ep) ++ le 1 l.occ ++ le 1 pushed.toNat ++ le 4 ep))]

/-- A VTA pushes its level to its HTUs, and a role holder to the units below it (R219, R380). -/
def Prog.ladderPush (ep : Nat) : Prog := .get fun s =>
  let n := s.ladderAt .vta ep
  let body := le 1 2 ++ le 1 n ++ zeros 2 ++ le 4 ep
  .both (.each s.v.conns fun e => .opt e.2.path fun q => .control .vta q body (s.dieId .vta + e.1) e.2.fwd)
    (.cond (s.topRole != .tray) (.ethRec false 6 { s.msg .vta 0x35 0 (s.ns .vta) body with unit := unitCode .vta false (levelRank s.topRole) }))

/-- The own level changes: it applies two epochs ahead (R219). -/
def Prog.ladderOwn (u : UnitId) (n : Nat) : Prog := .get fun s => .cond (n != (s.dev u).ladder.own) <| .seq [
  .dev u fun d => { d with ladder := { d.ladder with own := n } },
  .ladderSchedule u ((s.epoch u + 2) % 2 ^ 32) false n,
  .cond (u == .vta) (.ladderPush ((s.epoch u + 2) % 2 ^ 32))]

/-- The occupancy has stood at or above ENTER of a higher level for 10 µs (R219). -/
def Prog.ladderRise (u : UnitId) : Prog := .get fun s =>
  let l := (s.dev u).ladder
  .opt (([4, 3, 2, 1].filter fun n => l.own < n && s.ladderEnter u n ≤ l.occ).head?) (.ladderOwn u)

/-- The occupancy has stood below EXIT of the current level for 1 ms (R219). -/
def Prog.ladderFall (u : UnitId) : Prog := .get fun s =>
  let l := (s.dev u).ladder
  .cond (l.own != 0 && l.occ < s.ladderExit u l.own) (.ladderOwn u (l.own - 1))

/-- A level is pushed from above for an epoch (R219). -/
def Prog.ladderRx (u : UnitId) (level : Nat) (ep : BitVec 32) : Prog := .cond (level ≤ 4) <| .seq [
  .dev u fun d => { d with ladder := { d.ladder with pushed := level } },
  .ladderSchedule u ep.toNat true level,
  .cond (u == .vta) (.ladderPush ep.toNat)]

/-- The services whose records a ladder level does not send (R218): trace and dump from L1, log and analytics at L4. -/
def withheld (level svc : Nat) : Bool := (1 ≤ level && (svc == 2 || svc == 3)) || (4 ≤ level && (svc == 4 || svc == 5))

/-- At a rise of the level the records already queued in the services it pauses are withheld: each stream writes one LOSS record over their
range (R218, R359). -/
def Prog.withhold (u : UnitId) (old new : Nat) : Prog := .get fun s =>
  let side : Nat := match u with | .htu => 0 | .vta => 8
  let mine (q : QItem) : Bool := withheld new q.svc && !withheld old q.svc && q.r.die == s.dieId u % 2 ^ 17 && q.r.side == side
  let gone := ((s.dev u).bulk.filter mine).map (·.r)
  .cond (gone != []) <| .both (.dev u fun d => { d with bulk := d.bulk.filter fun q => !mine q })
    (.each (gone.map Rec.stream).dedup fun sid => .lossOf u sid (gone.filter fun r => r.stream == sid) lossLadder)

/-- An epoch ends (R218): each stream paused by the ladder writes one LOSS record over what it withheld in it. -/
def Prog.epochLoss (u : UnitId) : Prog := .get fun s =>
  .each ((s.dev u).streams.filter fun e => (e.2.lossFrom.map (·.2.2)) == some lossLadder) fun e => .flushLoss u e.1

/-- The apply epoch of a scheduled change starts (R218, R219). -/
def Prog.ladderApply (u : UnitId) : Prog := .get fun s =>
  let l := (s.dev u).ladder
  let ep := s.epoch u
  .cond (l.pend.any fun e => serialGe 32 ep e.1) <| .seq [
    .wr u Reg.SHF_STATUS_LEVEL (l.at ep),
    .cond (u == .vta && s.ladder u != l.at ep) (.traceData .vta 0x23 0 (BitVec.ofNat 64 (s.ladder u + 2 ^ 3 * l.at ep + 2 ^ 8 * l.occ))),
    .dev u fun d => { d with ladder := l.enter ep },
    .showLadder u,
    .withhold u (s.ladder u) (l.at ep)]

end Sys2Proof.Machine
end

