-- ==== Sys2Proof/Machine/Steps.lean ====
section
/-! DEFINITION. Steps at the merge points of the VTA: arrivals, STEP_RESULT, replays and notices (R215 to R217, R241, R243, R244,
R247, R253), and the period stores that their lags are gathered in (R270, R272). -/

namespace Sys2Proof.Machine

-- period stores

/-- The length in µs of the scoring periods at a µs of fleet time (R272): a change of HTR_PERIOD.US takes effect at the next boundary that both
periods share. -/
def State.periodUs (s : State) (us : Nat) : Nat := max 1 <| match s.vx.perOld with
  | some (old, b) => if us < b then old else s.rd .vta Reg.HTR_PERIOD_US
  | none => s.rd .vta Reg.HTR_PERIOD_US

/-- The scoring period of an instant (R272): the µs in which it begins. -/
def State.periodOf (s : State) (t : Nat) : Nat := t / 1000 / s.periodUs (t / 1000) * s.periodUs (t / 1000)

/-- The µs in which a period ends. -/
def State.periodEnd (s : State) (start : Nat) : Nat := start + s.periodUs start

/-- Period number `p` begins in this µs (R272). -/
def State.isPeriod (s : State) (p start : Nat) : Bool := start == p * s.periodUs start

/-- The period of number `p` that has reached its FEATURE_CUTOFF: after a change of the length, the number may stand for a period of either
length, and the later one that is due is meant. -/
def State.periodStart (s : State) (p : Nat) : Nat :=
  let new := p * max 1 (s.rd .vta Reg.HTR_PERIOD_US)
  match s.vx.perOld with
  | none => new
  | some (old, b) =>
    if b ≤ new ∧ (s.periodEnd new + s.rd .vta Reg.HTR_PERIOD_FEATURE_CUTOFF) * 1000 ≤ s.ns .vta then new else p * max 1 old

/-- HTR_PERIOD.US has been written. -/
def Prog.periodWritten (was : State) : Prog := .get fun s =>
  let now := s.ns .vta / 1000
  let old := was.periodUs now
  let new := max 1 (s.rd .vta Reg.HTR_PERIOD_US)
  .cond (was.rd .vta Reg.HTR_PERIOD_US != s.rd .vta Reg.HTR_PERIOD_US) <| .vta fun x => { x with
    perOld := if old = new then none else some (old, (now / Nat.lcm old new + 1) * Nat.lcm old new) }

/-- A change of the store of a period; one of a closed period is left out and counted (R272). -/
def Prog.gather (period : Nat) (f : Store → Store) : Prog := .get fun s =>
  match s.vx.stores.find? (·.period == period) with
  | some st =>
    if st.closed then .both (.bump .vta Reg.HTR_ERR_LATE_IN) <| .vta fun x => { x with
      stores := x.stores.map fun e => if e.period = period then { e with late := true } else e }
    else .vta fun x => { x with stores := x.stores.map fun e => if e.period = period then f e else e }
  | none =>
    if s.vx.stores.any fun e => e.period > period then .bump .vta Reg.HTR_ERR_LATE_IN
    else .vta fun x => { x with stores := x.stores ++
      [f { period, vals := [], lags := [], late := false, closed := false, scored := false }] }

-- step contexts of a merge point

/-- The level of the step root (R217). -/
def State.rootLevel (s : State) : Level :=
  match s.rd .vta Reg.SHF_BAR_CFG_SCOPE with
  | 2 => .rack
  | 3 => .row
  | 4 => .hall
  | _ => .tray

/-- Members of the steps at a level: the inputs of the job's mask where this level is the highest held and a job is known; else the
ports with a connection, or the inputs with a member sheaf. A die in QUARANTINE or DEAD is none. -/
def State.stepMembers (s : State) (l : Level) : List Nat :=
  let job := s.topRole = l ∧ s.vx.jobMask ≠ 0
  (List.range (levelInputs l)).filter fun i =>
    (if job then s.vx.jobMask.getLsbD i
      else if l = .tray then s.portsBelow.contains i
      else s.vx.members.any fun m => m.level == l && m.input == i)
    && !(l == .tray && s.rd .vta (Reg.VTA_DIE_VERDICT i) ≥ 3)

/-- SRC of an arrival (R193). -/
def Arrival.src (a : Arrival) : Nat := srcOf a.die (some a.clu)

/-- What a STEP_ARRIVAL, or a merged arrival from the level below, brings (R214, R215). -/
def arrivalOf (l : Level) (input : Nat) (r : Rec) : MStep :=
  let b := r.payload
  let f := fieldAt b 4 1
  let step := BitVec.ofNat 32 (fieldAt b 0 4)
  if r.typ = 0x31 then
    let a : Arrival := { input, die := r.die, clu := fieldAt b 5 1, clean := f.testBit 0, cap := f.testBit 1, timev := f.testBit 2
                         t := fieldAt b 8 8 }
    { level := l, step, ins := [], members := 1, count := 1, clean := a.clean, cap := a.cap
      first := if a.timev then some a.t else none, last := if a.timev then a.t else 0, arrs := [a], taint := r.taint, part := r.part }
  else
    let base := fieldAt b 16 8
    let timed := fieldAt b 24 8 != 0
    let entry (i : Nat) : Arrival :=
      let src := fieldAt b (32 + 16 * i) 4
      { input, die := src / 256 % 2 ^ 17, clu := src % 256, clean := true, cap := (fieldAt b (36 + 16 * i) 1).testBit 0
        timev := timed, t := base + fieldAt b (40 + 16 * i) 8 }
    let g := fieldAt b 8 1
    { level := l, step, ins := [], members := fieldAt b 4 2, count := fieldAt b 6 2, clean := g.testBit 0, cap := g.testBit 1
      first := if timed then some base else none, last := fieldAt b 24 8
      arrs := (List.range (min 8 (fieldAt b 9 1))).map entry, taint := r.taint, part := r.part }

/-- An input's arrival joins a step (R215). -/
def MStep.join (m c : MStep) (input : Nat) : MStep :=
  { m with
    got := m.got ++ [input], count := m.count + c.count, members := m.members + c.members - 1, clean := m.clean && c.clean
    cap := m.cap || c.cap, last := max m.last c.last, arrs := m.arrs ++ c.arrs, taint := m.taint || c.taint
    first := match m.first, c.first with
      | some a, some b => some (min a b)
      | a, none => a
      | none, b => b }

/-- The 8 latest entries with a time, latest first, ties by lower SRC (R215). -/
def MStep.latest (m : MStep) : List Arrival :=
  let timed := m.arrs.filter (·.timev)
  let order := topMerge (timed.map fun a => ((a.t : Int), a.src)) []
  order.filterMap fun e => timed.find? fun a => (a.t : Int) == e.1 && a.src == e.2

/-- A STEP_RESULT (R215, R216) with its fields in the rule's order: step, MEMBERS, arrivals, flags (0 CLEAN, 1 CAP, 2 PENDING, 3 INCOMPLETE),
the number of entries, earliest and latest time, and entries of SRC, flags (0 CAP, 1 missing) and lag. A missing unit above the tray level has
no die ID, and its input number stands for SRC (DESIGN CHOICE, log entry 129). -/
def State.stepRec (s : State) (m : MStep) (pending incomplete : Bool) : Rec :=
  let miss := (m.ins.filter fun i => !m.got.contains i).take 8
  let lat := m.latest
  let missSrc (i : Nat) : Nat := if m.level = .tray then srcOf (s.dieId .vta + i) none else i
  let entries := if pending then miss.map fun i => le 4 (missSrc i) ++ le 1 2 ++ zeros 11
    else lat.map fun a => le 4 a.src ++ le 1 a.cap.toNat ++ zeros 3 ++ le 8 (a.t - m.first.getD a.t)
  { s.msg .vta 0x32 m.part (s.ns .vta) (le 4 m.step.toNat ++ le 2 m.members ++ le 2 m.count
      ++ le 1 ((m.clean && !incomplete).toNat + 2 * m.cap.toNat + 4 * pending.toNat + 8 * incomplete.toNat)
      ++ le 1 entries.length ++ zeros 6 ++ le 8 (m.first.getD 0) ++ le 8 m.last ++ entries.flatten) with
    taint := m.taint, unit := unitCode .vta false (levelRank m.level) }

/-- A unit holds a level above the tray that lies within the steps' scope: the members below it are reached by Ethernet (R217, R243). -/
def State.stepsBelow (s : State) : Bool :=
  [Level.rack, .row, .hall].any fun l => s.holdsRole l && levelNo l ≤ levelNo s.rootLevel

/-- A result goes down to the members: on VC2 to the ports, by Ethernet to the units below a role (R217). -/
def Prog.stepDown (ports : List Nat) (r : Rec) : Prog := .get fun s => .both
  (.each ports fun k => .sendPkt .vta k 2 r.bytes)
  (.cond s.stepsBelow (.ethRec false 6 r))

/-- A complete or INCOMPLETE result leaves its merge point: down from the step root, up from any other (R215, R217). -/
def Prog.stepOut (m : MStep) (incomplete : Bool) : Prog := .get fun s =>
  let r := s.stepRec m false incomplete
  if m.level = s.rootLevel then
    if m.level = .tray then .each m.ins fun k => .sendPkt .vta k 2 r.bytes else .ethRec false 6 r
  else .ethRec true 6 r

/-- The lags of a complete tray step, CAP marked, join the period and the lag ring; a budget move may follow (R270, R289, R340). -/
def Prog.stepLags (m : MStep) : Prog := .get fun s =>
  let timed := m.arrs.filter (·.timev)
  let lags := timed.map fun a => (a.input, a.t - m.first.getD a.t, a.cap)
  .seq [
    .cond (s.timev .vta) (.gather (s.periodOf (s.ns .vta)) fun st => { st with lags := st.lags ++ lags }),
    .vta fun x => { x with lagHist := (lags :: x.lagHist).take 128 },
    .opt m.latest.head? fun a =>
      .autoMove m.step a.input (a.t - m.first.getD a.t) a.cap (m.latest.map (·.input))]

/-- Steps of one level, and one of them changed. -/
def Prog.modStep (l : Level) (step : BitVec 32) (f : MStep → MStep) : Prog := .vta fun x => { x with
  msteps := x.msteps.map fun m => if m.level = l ∧ m.step = step then f m else m }

/-- A step is complete at its merge point, or closed INCOMPLETE (R215, R216). -/
def Prog.stepDone (m : MStep) (incomplete : Bool) : Prog := .seq [
  .stepOut m incomplete,
  .cond (m.level == .tray && !incomplete) (.stepLags m),
  .modStep m.level m.step fun m => { m with done := true, replay := false, arrs := [], got := [] }]

/-- LEASE in ns, and a die's lease renewed while its job runs (R308). -/
def State.leaseNs (s : State) : Nat := s.rd .vta Reg.VTA_FLT_CFG_LEASE_MS * 1000000
def State.inRunning (s : State) (k : Nat) : Bool :=
  s.rd .vta Reg.VTA_JOB_STATE == 2 && s.rd .vta Reg.VTA_JOB_JOB_ID != 0
    && s.rd .vta (Reg.VTA_DIE_JOB_ID k) == s.rd .vta Reg.VTA_JOB_JOB_ID
def Prog.renewLease (k : Nat) : Prog := .get fun s =>
  .cond (s.inRunning k) (.wr .vta (Reg.VTA_DIE_LEASE_END k) (s.ns .vta + s.leaseNs))

/-- An arrival at a merge point (R215, R216, R241, R308). -/
def Prog.stepArrival (l : Level) (input : Nat) (r : Rec) : Prog := .get fun s =>
  let c := arrivalOf l input r
  let old := s.vx.msteps.find? fun m => m.level == l && m.step == c.step
  let again := (old.map (·.done)) == some true
  let later (m : MStep) : Bool := m.level == l && !m.done && serialGt 32 m.step.toNat c.step.toNat
  let blocked := s.vx.msteps.any fun m => m.level == l && m.replay && !m.done && serialGt 32 c.step.toNat m.step.toNat
  let mem := s.stepMembers l
  let gone := l == .tray && s.rd .vta (Reg.VTA_DIE_VERDICT input) ≥ 3
  .cond (s.holdsFor l none r && s.fromHead l input r && input < levelInputs l && (r.typ == 0x31) == (l == .tray)) <| .both
    (.cond (l == .tray) (.renewLease input))
    (.cond (!blocked && !gone) <| .seq [
      .cond again (.vta fun x => { x with
        msteps := x.msteps.filter fun m => !(m.level == l && m.step == c.step) && !later m, tainted := x.tainted.filter (· != c.step) }),
      .get fun s =>
        let opened := s.vx.msteps.filter fun m => m.level == l && !m.done
        .cond (!opened.any (·.step == c.step)) <| .both
          (.cond (opened.length ≥ 4) (.opt opened.head? fun m => .stepDone m true))
          (.vta fun x => { x with msteps := x.msteps ++
            [{ level := l, step := c.step, ins := if mem.contains input then mem else mem ++ [input]
               members := if mem.contains input then mem.length else mem.length + 1, replay := again
               taint := x.tainted.contains c.step, part := c.part }] }),
      .modStep l c.step fun m => if m.done ∨ m.got.contains input then m else m.join c input,
      .get fun s => .opt (s.vx.msteps.find? fun m => m.level == l && m.step == c.step) fun m =>
        .cond (!m.done && m.ins.all m.got.contains) (.stepDone m false)])

/-- SHF_BAR_WAIT passes with a step still open (R216). -/
def Prog.stepPending (l : Level) (step : BitVec 32) : Prog := .get fun s =>
  .opt (s.vx.msteps.find? fun m => m.level == l && m.step == step && !m.done && m.got != []) fun m =>
    .ethRec true 6 (s.stepRec m true false)

/-- A STEP_RESULT comes down (R217): an HTU takes a complete or INCOMPLETE one; a VTA passes it on to its members. -/
def Prog.stepResult (u : UnitId) (r : Rec) : Prog :=
  let f := fieldAt r.payload 8 1
  let step := BitVec.ofNat 32 (fieldAt r.payload 0 4)
  .cond (!f.testBit 2) <| match u with
    | .htu => .stepResultRx step (f.testBit 0 && !f.testBit 3)
    | .vta => .get fun s => .stepDown (s.stepMembers .tray) r

-- notices

/-- A notice of the root goes down to the members, and to no unit outside the scope (R243). -/
def Prog.noticeDown (r : Rec) : Prog := .get fun s => .both
  (.each (s.stepMembers .tray) fun k => .sendNotice .vta k r)
  (.cond s.stepsBelow (.ethRec false 6 r))

/-- A notice at the VTA (R243, R244, R247, R253): the step root forwards it to the members, a SCALE notice with the merged ring
position and exponent and only when new or raised; any other point passes it up, or down when it came from above (input 256). -/
def Prog.noticeVta (input : Nat) (r : Rec) : Prog := .get fun s =>
  let b := r.payload
  let step := BitVec.ofNat 32 (fieldAt b 0 4)
  let coll := fieldAt b 12 4
  let old := s.vx.scales.find? (·.1 == coll)
  let ring := min (fieldAt b 5 1) ((old.map (·.2.1)).getD 255)
  let exp := max (fieldAt b 6 1) ((old.map (·.2.2)).getD 0)
  let scale := (fieldAt b 4 1).testBit 1
  let mark : Prog := .vta fun x => { x with
    tainted := (x.tainted.filter (· != step) ++ [step]).drop ((x.tainted.filter (· != step)).length - 7)
    msteps := x.msteps.map fun m => if m.step = step then { m with taint := true } else m }
  .both (.cond ((fieldAt b 4 1).testBit 0) mark) <|
    if input ≥ 256 then .noticeDown r
    else if !s.holdsRole s.rootLevel then .ethRec true 6 r
    else if scale then
      .cond (old.isNone || exp > (old.map (·.2.2)).getD 0) <| .both
        (.vta fun x => { x with scales := (x.scales.filter (·.1 != coll) ++ [(coll, ring, exp)]).drop (x.scales.length - 63) })
        (.noticeDown { r with payload := b.take 5 ++ le 1 ring ++ le 1 exp ++ b.drop 7 })
    else .noticeDown r

/-- A TAINT_NOTICE (R243). -/
def Prog.taintNotice (u : UnitId) (input : Nat) (r : Rec) : Prog :=
  match u with
  | .htu => .noticeRx r
  | .vta => .noticeVta input r

end Sys2Proof.Machine
end

