-- ==== Sys2Proof/Machine/Jobs.lean ====
section
/-! DEFINITION. Jobs (R312 to R317), verdict states with their actions and budget (R302 to R307), leases and liveness (R308 to R311),
role holders (R28, R318), and stragglers (R319). -/

namespace Sys2Proof.Machine

-- job states of R313; verdict states of R303
def jobIdle : Nat := 0
def jobArmed : Nat := 1
def jobRunning : Nat := 2
def jobAborted : Nat := 3
def vHealthy : Nat := 0
def vNotify : Nat := 1
def vProbation : Nat := 2
def vQuarantine : Nat := 3
def vDead : Nat := 4

/-- The job registers of a unit (HTU_JOB, VTA_JOB). -/
def jobId (u : UnitId) : Fld := match u with | .htu => Reg.HTU_JOB_JOB_ID | .vta => Reg.VTA_JOB_JOB_ID
def jobState (u : UnitId) : Fld := match u with | .htu => Reg.HTU_JOB_STATE | .vta => Reg.VTA_JOB_STATE
def jobCause (u : UnitId) : Fld := match u with | .htu => Reg.HTU_JOB_CAUSE | .vta => Reg.VTA_JOB_CAUSE
def jobT (u : UnitId) : Fld := match u with | .htu => Reg.HTU_JOB_T_START | .vta => Reg.VTA_JOB_T_START

/-- The job is ARMED or RUNNING. -/
def State.jobLive (s : State) (u : UnitId) : Bool := s.rd u (jobState u) == jobArmed || s.rd u (jobState u) == jobRunning

/-- Entries of the comparators that hold a START_AT. -/
def State.jobEntries (s : State) (u : UnitId) : List Sched := (s.dev u).sched.filter fun e => match e.kind with
  | .job _ => true
  | _ => false

/-- A record to the fault manager (R303, R320). -/
def Prog.verdictRec (typ : Nat) (payload : List Byte) : Prog :=
  .emitReg .vta Reg.VTA_FLT_STREAM_V_VALID Reg.VTA_FLT_STREAM_VERDICT typ payload

/-- A unit's own job ends: END returns it to IDLE, any other cause aborts it (R313, R316). A START_AT that still waits at the HTU
completes with ABORTED, and MBX0_IRQ follows ABORT. A VTA's ABORT_JOB triggers its trace (R350). -/
def Prog.endJob (u : UnitId) (cause origin : Nat) : Prog := .get fun s =>
  let job := s.rd u (jobId u)
  let fin : Prog := match u with
    | .htu => .both (.each (s.jobEntries .htu) fun e => .both (.unschedule .htu e) (.answer .htu e.cmd { status := stAborted }))
        .abortDumps
    | .vta => .each ((List.range 64).filter fun k => s.rd .vta (Reg.VTA_DIE_JOB_ID k) == job) fun k => .seq [
        .wr .vta (Reg.VTA_DIE_JOB_ID k) 0, .wr .vta (Reg.VTA_DIE_LEASE_END k) 0]
  .both (.cond (u == .vta) (.trigger .vta 4)) <|
  if cause = 0 then .seq [fin, .wr u (jobState u) jobIdle, .wr u (jobId u) 0]
  else .seq [
    .cond (u == .htu) <| .both (.htu fun x => { x with relBlocked := true, rels := [] }) (.endSteps true),
    fin,
    .wr u (jobState u) jobAborted, .wr u (jobCause u) cause,
    match u with
    | .htu => .seq [.wr .htu Reg.HTU_JOB_ABORT 1, .irqEdge .htu 0 s,
        .sntRec 0x61 (BitVec.ofNat 32 (s.rd .htu Reg.SNT_STATUS_STEP)) none (le 4 job ++ le 1 cause ++ zeros 3 ++ le 4 origin ++ zeros 4)]
    | .vta => .verdictRec 0x61 (le 4 job ++ le 1 cause ++ zeros 3 ++ le 4 origin ++ zeros 4)]

/-- The parameters of an ABORT_JOB. -/
def abortParams (job cause scope origin : Nat) : List Byte := le 4 job ++ le 1 cause ++ le 1 scope ++ zeros 2 ++ le 4 origin ++ zeros 4

/-- A command of the unit itself to its peers: role PEER, partition 0. -/
def peerCmd (part : Nat) (params : List Byte) : Packet :=
  { flags := 0, tag := 0, target := 0, partition := BitVec.ofNat 8 part, role := 6, rsvd := 0, seq := 0, params }

/-- The job root issues ABORT_JOB over the job's whole mask and ends its own job (R317). -/
def Prog.rootAbort (cause origin : Nat) : Prog := .get fun s =>
  let p := peerCmd s.vx.jobPart (abortParams (s.rd .vta Reg.VTA_JOB_JOB_ID) cause 1 origin)
  .both (.forwardBelow 0x94 p 5 (s.digestMask s.vx.jobMask) id) (.endJob .vta cause origin)

/-- A VTA decides an abort (R317): its own HTUs at once, then the request up to the job root. -/
def Prog.abortDecide (cause origin : Nat) : Prog := .get fun s => .cond (s.jobLive .vta) <|
  if s.on .vta Reg.VTA_JOB_ROOT then .rootAbort cause origin
  else
    let p := abortParams (s.rd .vta Reg.VTA_JOB_JOB_ID) cause 0 origin
    .seq [
      .each ((List.range 64).filter fun k => s.rd .vta (Reg.VTA_DIE_JOB_ID k) == s.rd .vta Reg.VTA_JOB_JOB_ID) fun k =>
        .forward .vta k 0x94 (peerCmd s.vx.jobPart p) none,
      .ether 0 5 (16 + p.length) (.ethAbort (p.set 5 1)),
      .endJob .vta cause origin]

/-- An abort request from a unit below (R317): the root acts, any other passes it on. -/
def Prog.abortRequest (params : List Byte) : Prog := .get fun s =>
  .cond (fieldAt params 0 4 == s.rd .vta Reg.VTA_JOB_JOB_ID && s.jobLive .vta) <|
    if s.on .vta Reg.VTA_JOB_ROOT then .rootAbort (fieldAt params 4 1) (fieldAt params 8 4)
    else .ether 0 5 (16 + params.length) (.ethAbort params)

/-- ABORT_JOB (R316). -/
def opAbortJob : Op where
  code := 0x94
  plen := (· == 16)
  rsvd := fun _ p => anySet p 6 2 || anySet p 12 4 || (arg p 8 4 != 0xFFFFFFFF && arg p 8 4 ≥ 2 ^ 17)
  perms := permSnap
  check := fun _ u _ p => firstBad [
    (arg p 5 1 > 1 ∨ (u = .htu ∧ arg p 5 1 ≠ 0), badParam 0x110),
    (arg p 4 1 > 6, badParam 0x100)]
  run := fun u m p => .get fun s =>
    let mine := arg p 0 4 ≠ 0 ∧ arg p 0 4 = s.rd u (jobId u) ∧ s.jobLive u
    .both
      (.cond mine <| .both
        (.cond (u == .vta && arg p 5 1 == 1) (.forwardBelow 0x94 p 5 (s.digestMask s.vx.jobMask) id))
        (.endJob u (arg p 4 1) (arg p 8 4)))
      (.reply u m p.tag { status := stOk, result := if mine then 1 else 0 })

-- starting

/-- The inputs that hold a forwarded START_AT, as 64 × level + input: the ports and the units below named by the mask (R314). -/
def State.jobTargets (s : State) : List Nat :=
  [Level.tray, .rack, .row, .hall].flatMap fun l =>
    ((List.range (levelInputs l)).filter fun i =>
      s.holdsRole l && (s.digestMask s.vx.jobMask l).getLsbD i && !s.ownInput l i).map (64 * levelNo l + ·)

/-- Inputs of the highest role that have not replied OK. -/
def State.startFailed (s : State) : Nat :=
  let bad := s.jobTargets.filter fun k => (s.vx.jobReply.find? (·.1 == k)).map (·.2) != some true
  ((bad.map fun k => if k / 64 = levelNo s.topRole then k % 64
    else ownIndex (levelBelow s.topRole))).eraseDups.length

/-- The VTA's own START_AT completes (R314): OK when every input replied OK, else DEADLINE_PASSED with the number that did not. -/
def Prog.startReply : Prog := .get fun s => .opt s.vx.jobCmd fun c => .both
  (.vta fun x => { x with jobCmd := none })
  (.answer .vta (some c) (if s.startFailed = 0 then { status := stOk } else { status := stDeadline, result := s.startFailed }))

/-- An input's final reply to a forwarded START_AT (R314, R315). -/
def Prog.startReplied (key : Nat) (ok : Bool) : Prog := .seq [
  .vta fun x => { x with jobReply := x.jobReply.filter (·.1 != key) ++ [(key, ok)] },
  .get fun s => .cond (!ok && key / 64 == 1) (.abortDecide 1 (s.dieId .vta + key % 64)),
  .get fun s => .cond (s.jobTargets.all fun k => s.vx.jobReply.any (·.1 == k)) .startReply]

/-- START_AT (R312 to R314). -/
def opStartAt : Op where
  code := 0x53
  plen := (· == 24)
  rsvd := fun _ p => anySet p 13 3
  perms := permSnap
  ready := fun s u _ => s.policy u && s.assigned u
  check := fun s u _ p =>
    let job := arg p 8 4
    let foreign := (List.range 64).any fun i => i ≥ levelInputs s.topRole && (arg p 16 8).testBit i
    firstBad [
      (job = 0, badParam 0x100),
      (arg p 12 1 > 1 ∨ (u = .htu ∧ (arg p 12 1 ≠ 0 ∨ arg p 16 8 ≠ 0)), badParam 0x110),
      (u = .vta ∧ foreign, badParam 0x111),
      (s.rd u (jobState u) = jobAborted ∧ job = s.rd u (jobId u), badParam 0x101),
      (s.jobLive u ∧ ¬(job = s.rd u (jobId u) ∧ arg p 0 8 = s.rd u (jobT u)), { status := stBusy })]
  late := fun s u _ p =>
    let t := arg p 0 8
    let soon := match u with
      | .htu => decide (t * 65536 < s.ns16 .htu + 1000 * 65536)
      | .vta => s.tooSoon .vta (arg p 12 1 == 1) t
    if s.jobLive u then none else firstBad [
      (s.schedFull u, { status := stNoResource }), (!s.timev u, { status := stTimeInvalid }),
      (soon || s.past u t, { status := stDeadline })]
  run := fun u m p => .get fun s =>
    let t := arg p 0 8
    let mask := if arg p 12 1 = 1 then BitVec.ofNat 64 (arg p 16 8) else 0
    if s.jobLive u then
      if s.rd u (jobState u) = jobRunning then .reply u m p.tag { status := stOk, result := 1 }
      else .schedule u { t, kind := .job true, cmd := some (m, p.tag) }
    else .seq [
      .wr u (jobId u) (arg p 8 4), .wr u (jobState u) jobArmed, .wr u (jobT u) t,
      match u with
      | .htu => .both (.htu fun x => { x with relBlocked := false, jobPart := p.part })
          (.schedule .htu { t, kind := .job false, cmd := some (m, p.tag) })
      | .vta => .seq [
          .wr .vta Reg.VTA_JOB_ROOT (p.roleN != rolePeer).toNat,
          .vta fun x => { x with jobMask := mask, jobPart := p.part, jobReply := [], jobCmd := some (m, p.tag) },
          .schedule .vta { t, kind := .job false, cmd := none },
          .each ((List.range 64).filter (s.digestMask mask .tray).getLsbD) fun k => .wr .vta (Reg.VTA_DIE_JOB_ID k) (arg p 8 4),
          .each ((List.range 64).filter fun k => (s.digestMask mask .tray).getLsbD k && !s.portsBelow.contains k) fun k =>
            .forward .vta k 0x53 { p with params := p.params.take 12 ++ zeros 12, role := 6 } none,
          .cond (arg p 12 1 == 1) (.forwardBelow 0x53 p 12 (s.digestMask mask) fun b => b.take 16 ++ zeros 8)]]

/-- A start instant passes without time, or is passed over (R143, R154, R314): the job is not started. -/
def Prog.jobMissed (u : UnitId) (due : List Sched) : Prog := .get fun s => .both
  (.each due fun e => .both (.unschedule u e) (.answer u e.cmd { status := stDeadline })) <|
  .cond (s.rd u (jobState u) == jobArmed) <| .seq [
    .wr u (jobState u) jobIdle, .wr u (jobId u) 0,
    .cond (u == .vta) <| .both
      (.vta fun x => { x with jobCmd := none }) (.answer .vta s.vx.jobCmd { status := stDeadline, result := s.startFailed })]

/-- The start instant comes (R308, R313, R314, R154). -/
def Prog.jobStart (u : UnitId) : Prog := .get fun s =>
  let due := (s.jobEntries u).filter fun e => s.due u e.t
  .cond (due != []) <|
    if s.timev u then .seq [
      .each due fun e => .both (.unschedule u e) (.acted u e.t),
      .cond (s.rd u (jobState u) == jobArmed) <| .both (.wr u (jobState u) jobRunning) (match u with
        | .htu => .release 0
        | .vta => .both
            (.each ((List.range 64).filter fun k => s.rd .vta (Reg.VTA_DIE_JOB_ID k) == s.rd .vta Reg.VTA_JOB_JOB_ID) fun k =>
              .wr .vta (Reg.VTA_DIE_LEASE_END k) (s.rd .vta Reg.VTA_JOB_T_START + s.leaseNs))
            (.cond (s.jobTargets == []) .startReply)),
      .each due fun e => .answer u e.cmd { status := stOk, result := if e.kind = .job true then 1 else 0 }]
    else .jobMissed u due

/-- No reply has come from a die by T + 10 µs (R315). -/
def Prog.startNoReply (port : Nat) : Prog := .get fun s =>
  .cond (s.jobLive .vta && s.jobTargets.contains (64 + port) && !s.vx.jobReply.any (·.1 == 64 + port)
      && s.rd .vta Reg.VTA_JOB_T_START + 10000 ≤ s.ns .vta) (.abortDecide 2 (s.dieId .vta + port))

/-- T plus the lead has come without every reply (R314). -/
def Prog.startDeadline : Prog := .get fun s =>
  .cond (s.rd .vta Reg.VTA_JOB_T_START + s.treeLead ≤ s.ns .vta) .startReply

/-- A REPLAY_LOST message of a die (R317). -/
def Prog.replayLostRx (input : Nat) (r : Rec) : Prog := .get fun s =>
  .cond (s.rd .vta (Reg.VTA_DIE_JOB_ID input) == s.rd .vta Reg.VTA_JOB_JOB_ID) (.abortDecide 5 r.die)

-- verdicts

/-- Smoothed score of a die. -/
def State.hs (s : State) (k : Nat) : Int := toSigned 64 (s.rd .vta (Reg.VTA_DIE_HS k))

/-- S_v of a die (R300): the largest output 0 of its die and cluster entities in position v; `none` when missing or MEDIA. -/
def State.svcScore (s : State) (v k : Nat) : Option Int :=
  let row (r : Nat) : Option Score := Sparse.find s.vx.scores (2 ^ 15 * v + r)
  let all := (row (16384 + k)).toList ++ (List.range 256).filterMap fun c => row (256 * k + c)
  if s.rd .vta (Reg.HTR_SVC_SLOT v) = 0xF ∨ all.any (fun e => e.flags.testBit 1) then none
  else match all.filterMap fun e => e.outs.head? with
    | [] => none
    | x :: t => some (t.foldl max x)

/-- F of a die. -/
def State.faultsOf (s : State) (k : Nat) : Nat := Sparse.get 0 s.vx.faultsF k

/-- H of a die (R300, R301). -/
def State.rawScore (s : State) (k : Nat) : Int :=
  let w (v : Nat) : Nat := s.rd .vta (match v with
    | 0 => Reg.VTA_FLT_WEIGHT_W0
    | 1 => Reg.VTA_FLT_WEIGHT_W1
    | 2 => Reg.VTA_FLT_WEIGHT_W2
    | _ => Reg.VTA_FLT_WEIGHT_W3)
  let fw := s.rd .vta Reg.VTA_FLT_FAILW_FAILW * (if s.rd .vta (Reg.VTA_DIE_VERDICT k) = vProbation then 2 else 1)
  toSigned 64 (ofSigned 64 (((List.range 4).map fun v => ((w v : Int) * (s.svcScore v k).getD 0)).sum / 16 + (fw * s.faultsOf k : Nat)))

/-- Entries of the last 24 h (R307): in fleet time, or in operating hours while TIMEV is 0. -/
def State.lastDay (s : State) : Nat :=
  (s.v.evr.quarHist.filter fun e =>
    if s.timev .vta then s.ns .vta < e.1 + 86400000000000 else s.hours .vta < e.2 + 86400).length

/-- Dies in QUARANTINE. -/
def State.inQuar (s : State) : Nat := ((List.range 64).filter fun k => s.rd .vta (Reg.VTA_DIE_VERDICT k) == vQuarantine).length

/-- The budget allows one more entry (R307). -/
def State.budgetLeft (s : State) : Bool :=
  s.inQuar < s.rd .vta Reg.VTA_FLT_BUDGET_AT_ONCE && s.lastDay < s.rd .vta Reg.VTA_FLT_BUDGET_PER_DAY

/-- VTA_FLT_BUDGET shows the counts. -/
def Prog.showBudgetDay : Prog := .get fun s => .both
  (.wr .vta Reg.VTA_FLT_BUDGET_IN_QUAR s.inQuar) (.wr .vta Reg.VTA_FLT_BUDGET_LAST_24H (min 255 s.lastDay))

-- verdict causes and flags of R303
def causeScore : Nat := 1
def causeDrained : Nat := 2
def causeLiveness : Nat := 3
def causeCommand : Nat := 4
def flExceeded : Nat := 1
def flIncomplete : Nat := 2
def flOperator : Nat := 4
def flPeriodic : Nat := 8

/-- A VERDICT record of a die (R303): the scores in it, and its epoch, are those of the period that was scored last. A record with OPERATOR goes
up at each level. -/
def Prog.verdictRecord (k old cause flags : Nat) : Prog := .get fun s =>
  let sv (v : Nat) : Option Int := s.svcScore v k
  let inc := if (List.range 4).any fun v => (sv v).isNone then flIncomplete else 0
  .seq [
    .verdictRec 0x60 (le 4 (s.dieId .vta + k) ++ le 1 (s.rd .vta (Reg.VTA_DIE_VERDICT k)) ++ le 1 old ++ le 1 cause
      ++ le 1 (flags ||| inc) ++ le 4 (s.rd .vta (Reg.VTA_DIE_JOB_ID k)) ++ le 4 (epochOf (s.vx.scored * 1000))
      ++ le 8 (ofSigned 64 (s.rawScore k)) ++ le 8 (s.rd .vta (Reg.VTA_DIE_HS k))
      ++ (List.range 4).flatMap (fun v => le 8 (ofSigned 64 ((sv v).getD 0))) ++ le 4 (s.faultsOf k) ++ le 4 s.lastDay),
    .vta fun x => { x with quiet := Sparse.put x.quiet k 0 }]

/-- A die takes a verdict state. -/
def Prog.setVerdict (k new cause flags : Nat) : Prog := .get fun s =>
  let old := s.rd .vta (Reg.VTA_DIE_VERDICT k)
  .seq [.wr .vta (Reg.VTA_DIE_VERDICT k) new, .wr .vta (Reg.VTA_DIE_CAUSE k) cause,
    .vta fun x => { x with calm := Sparse.put x.calm k 0 },
    .verdictRecord k old cause flags, .showBudgetDay, .cond (new == vQuarantine || new == vDead) (.trigger .vta 3)]

/-- A QUARANTINE or PROBATION command to a die's HTU (R304, R305). -/
def Prog.tellDie (k opcode action : Nat) : Prog := .get fun s =>
  .forward .vta k opcode (peerCmd 0 (le 4 (s.dieId .vta + k) ++ le 1 action ++ zeros 3)) none

/-- A die leaves its sheaves, and its job is aborted (R305, R310). -/
def Prog.cutDie (k cause : Nat) : Prog := .get fun s => .both (.inputGone .tray k 4)
  (.cond (s.rd .vta (Reg.VTA_DIE_JOB_ID k) != 0) (.abortDecide cause (s.dieId .vta + k)))

/-- Entry to QUARANTINE (R305). -/
def Prog.quarantine (k cause flags : Nat) : Prog := .get fun s => .seq [
  .tellDie k 0x90 1, .cutDie k 4,
  .evr .vta fun v => { v with quarHist := (v.quarHist ++ [(s.ns .vta, s.hours .vta)]).drop (v.quarHist.length - 63) },
  .setVerdict k vQuarantine cause flags]

/-- Entry to PROBATION (R304). -/
def Prog.probation (k cause flags : Nat) : Prog := .both (.tellDie k 0x91 1) (.setVerdict k vProbation cause flags)

/-- A return to HEALTHY (R302, R304). -/
def Prog.healthy (k cause : Nat) : Prog := .get fun s => .both
  (.cond (s.rd .vta (Reg.VTA_DIE_VERDICT k) == vProbation) (.tellDie k 0x91 2)) (.setVerdict k vHealthy cause 0)

/-- A die reaches QUAR_THR with the budget spent (R302). -/
def Prog.spent (k cause : Nat) : Prog := .get fun s =>
  let due := match Sparse.find s.vx.exceedT k with
    | some t => t + 60 * ticksPerS ≤ s.v.ticks
    | none => true
  if s.rd .vta (Reg.VTA_DIE_VERDICT k) = vProbation then
    .cond due <| .both (.verdictRecord k vProbation cause (flExceeded + flOperator))
      (.vta fun x => { x with exceedT := Sparse.put x.exceedT k s.v.ticks })
  else .both (.probation k cause (flExceeded + flOperator))
    (.vta fun x => { x with exceedT := Sparse.put x.exceedT k s.v.ticks })

/-- The DRAINED row (R302): the manual names no message by which an HTU reports DRAINED, so which dies have newly reported it is a
free value. -/
def Prog.drainedRow : Prog := .free fun m => .get fun s =>
  .each ((List.range 64).filter fun k => m.testBit k && (Sparse.find s.v.conns k).isSome && s.rd .vta (Reg.VTA_DIE_VERDICT k) < 3)
    fun k => .get fun s => .quarantine k causeDrained (if s.budgetLeft then 0 else flExceeded)

/-- The age in µs of an event of a die (R308). -/
def State.ageUs (s : State) (l : List (Nat × Nat × Nat × Bool)) (k : Nat) : Nat :=
  let (t, tick, tv) := Sparse.get (0, 0, false) l k
  min (2 ^ 32 - 1) (if tv && s.timev .vta then (s.ns .vta - t) / 1000 else (s.v.ticks - tick) / ticksPerUs)

/-- The stamp of an event now. -/
def State.stamp (s : State) : Nat × Nat × Bool := (s.ns .vta, s.v.ticks, s.timev .vta)

/-- The liveness of one die (R308 to R310). -/
def Prog.liveDie (k : Nat) : Prog := .get fun s =>
  let lease := s.rd .vta Reg.VTA_FLT_CFG_LEASE_MS * 1000
  let fur := s.ageUs s.vx.furAt k
  let mg := s.ageUs s.vx.mgmtAt k
  let held := s.rd .vta (Reg.VTA_DIE_LEASE_END k)
  let ended := held ≤ s.ns .vta
  let lapsed := held != 0 && ended
  let now := (decide (fur > lease), decide (mg > lease), lapsed)
  let was := (s.on .vta (Reg.VTA_DIE_SUSPECT_FUR k), s.on .vta (Reg.VTA_DIE_SUSPECT_MGMT k), s.on .vta (Reg.VTA_DIE_LAPSED k))
  let dead := ended && fur ≥ 3 * lease && mg ≥ 3 * lease && s.rd .vta (Reg.VTA_DIE_VERDICT k) != vDead
  .seq [
    .wr .vta (Reg.VTA_DIE_FUR_AGE k) fur, .wr .vta (Reg.VTA_DIE_MGMT_AGE k) mg,
    .cond (now != was) <| .seq [
      .wr .vta (Reg.VTA_DIE_SUSPECT_FUR k) now.1.toNat, .wr .vta (Reg.VTA_DIE_SUSPECT_MGMT k) now.2.1.toNat,
      .wr .vta (Reg.VTA_DIE_LAPSED k) now.2.2.toNat,
      .verdictRec 0x63 (le 4 (s.dieId .vta + k) ++ le 1 (now.1.toNat + 2 * now.2.1.toNat + 4 * now.2.2.toNat) ++ zeros 3)],
    .cond dead (.both (.cutDie k 3) (.setVerdict k vDead causeLiveness 0))]

/-- LIVENESS_CHECK (R302, R307 to R310): of every die whose connection is known. -/
def Prog.livenessCheck : Prog := .get fun s => .cond (s.gorseUp .vta) <| .seq [
  .each ((s.v.conns.map (·.1)).filter (· < 64)) .liveDie, .drainedRow, .showBudgetDay]

/-- The score rows of one evaluation after the budget's choice (R302). -/
def Prog.scoreDie (k : Nat) : Prog := .get fun s =>
  let v := s.rd .vta (Reg.VTA_DIE_VERDICT k)
  let h := s.hs k
  let thr (f : Fld) : Int := toSigned 32 (s.rd .vta f)
  let low := decide (h < thr Reg.VTA_FLT_THR_NOTIFY_THR)
  let calm := if low then Sparse.get 0 s.vx.calm k + 1 else 0
  let quiet := Sparse.get 0 s.vx.quiet k + 1
  .cond (v < 3) <| .seq [
    .vta fun x => { x with calm := Sparse.put x.calm k calm, quiet := Sparse.put x.quiet k quiet },
    if h ≥ thr Reg.VTA_FLT_THR_QUAR_THR then (if s.budgetLeft then .quarantine k causeScore 0 else .spent k causeScore)
    else if v < vProbation ∧ h ≥ thr Reg.VTA_FLT_THR_PROB_THR then .probation k causeScore 0
    else if v = vHealthy ∧ !low then .setVerdict k vNotify causeScore 0
    else if v ≠ vHealthy ∧ low ∧ calm ≥ s.rd .vta Reg.VTA_FLT_CLEAR_CLEAR_PERIODS then .healthy k causeScore
    else .cond (v != vHealthy && quiet ≥ 1000) (.verdictRecord k v causeScore flPeriodic)]

/-- The dies that are scored: members of a job or a sheaf (R300). -/
def State.scoredDies (s : State) : List Nat := (List.range 64).filter fun k =>
  s.rd .vta (Reg.VTA_DIE_JOB_ID k) != 0 || s.vx.members.any fun m => m.level == .tray && m.input == k

/-- The verdict evaluation of a run set (R300 to R302): smoothing, then the rows, the higher Hs first. -/
def Prog.evaluate : Prog := .get fun s => .cond (s.gorseUp .vta) <|
  let smooth (k : Nat) : Prog := .get fun s =>
    let d := s.rd .vta Reg.VTA_FLT_CFG_DECAY_LOG2
    let n := if s.rd .vta (Reg.VTA_DIE_VERDICT k) = vProbation then d - 1 else d
    .wr .vta (Reg.VTA_DIE_HS k) (ofSigned 64 (s.hs k + (s.rawScore k - s.hs k) / (2 ^ n : Nat)))
  .seq [.each s.scoredDies smooth,
    .each ((s.v.conns.map (·.1)).filter (· < 64)) .liveDie, .drainedRow,
    .get fun s =>
      let order := topMerge' (s.scoredDies.map fun k => (s.hs k, k))
      .each order .scoreDie]
where
  /-- Dies in descending Hs, ties by lower die ID. -/
  topMerge' (l : List (Int × Nat)) : List Nat := (l.foldl (fun a e => topInsert e a) []).map (·.2)

/-- Checks of QUARANTINE and PROBATION (R306). -/
def State.dieCheck (s : State) (u : UnitId) (p : Packet) : Option Ans := firstBad [
  (match u with
    | .htu => arg p 0 4 ≠ s.dieId .htu
    | .vta => arg p 0 4 / 64 * 64 ≠ s.dieId .vta, badParam 0x100),
  (arg p 4 1 = 0 ∨ arg p 4 1 > 2, badParam 0x101)]

/-- QUARANTINE at the HTU (R305): QUARANTINED and DRAIN_REQ. -/
def Prog.quarHtu (m : Nat) (p : Packet) : Prog := .get fun s =>
  let on := s.on .htu Reg.HTU_JOB_QUARANTINED
  if arg p 4 1 = 1 then .seq [.wr .htu Reg.HTU_JOB_QUARANTINED 1, .drain 4, .reply .htu m p.tag { status := stOk, result := 1 }]
  else .both (.wr .htu Reg.HTU_JOB_QUARANTINED 0) (.reply .htu m p.tag { status := stOk, result := on.toNat })

/-- QUARANTINE (R305, R306). -/
def opQuarantine : Op where
  code := 0x90
  plen := (· == 8)
  rsvd := fun _ p => anySet p 5 3
  perms := permSnap
  check := fun s u _ p => (s.dieCheck u p).orElse fun _ =>
    let held := match u with
      | .htu => s.on .htu Reg.HTU_JOB_QUARANTINED
      | .vta => decide (s.rd .vta (Reg.VTA_DIE_VERDICT (arg p 0 4 % 64)) ≥ 3)
    firstBad [(held && arg p 4 1 == 2 && !([1, 4, 5].contains p.roleN), { status := stDenied })]
  run := fun u m p => match u with
    | .htu => .quarHtu m p
    | .vta => .get fun s =>
      let k := arg p 0 4 % 64
      let v := s.rd .vta (Reg.VTA_DIE_VERDICT k)
      let free := p.roleN = roleFaultManager ∨ p.roleN = roleOperator
      if arg p 4 1 = 2 then .both
        (.cond (v ≥ 3) (.both (.wr .vta (Reg.VTA_DIE_HS k) 0) (.setVerdict k vHealthy causeCommand 0)))
        (.reply .vta m p.tag { status := stOk, result := if v ≥ 3 then 1 else 0 })
      else if v = vQuarantine then .reply .vta m p.tag { status := stOk }
      else .both
        (if s.budgetLeft ∨ free then .quarantine k causeCommand (if s.budgetLeft then 0 else flExceeded) else .spent k causeCommand)
        (.reply .vta m p.tag { status := stOk, result := if s.budgetLeft ∨ free then 1 else 0 })

/-- PROBATION at the HTU (R304): the steps from the next STEP_OPEN are gated; leaving restores PRE_MODE. A STOPPED Sentinel writes
MODE_REFUSED; under DUAL nothing changes. -/
def Prog.probHtu (m : Nat) (p : Packet) : Prog := .get fun s =>
  let on := s.on .htu Reg.HTU_JOB_PROBATION
  let mode := s.rd .htu Reg.SNT_MODE_MODE
  let stopped := (s.fn .htu fidSentinel).st = .stopped
  let enter := arg p 4 1 = 1
  let want := if enter then modeGated else s.rd .htu Reg.HTU_JOB_PRE_MODE
  .seq [
    .cond (enter || on) <| .both (.wr .htu Reg.HTU_JOB_PROBATION (decide enter).toNat) <|
      if stopped then .event .htu 0x0302 (le 1 want ++ le 1 modeOff ++ zeros 2 ++ le 4 (s.rd .htu Reg.SNT_STATUS_STEP))
      else .cond (mode != modeDual) <| .seq [
        .cond (enter && !on) (.wr .htu Reg.HTU_JOB_PRE_MODE mode),
        .wr .htu Reg.SNT_MODE_NEXT_MODE want, .wr .htu Reg.SNT_MODE_NEXT_VALID 1],
    .reply .htu m p.tag { status := stOk, result := if enter then (if stopped then 0 else 1) else on.toNat }]

/-- PROBATION (R304, R306). -/
def opProbation : Op where
  code := 0x91
  plen := (· == 8)
  rsvd := fun _ p => anySet p 5 3
  perms := permSnap
  check := fun s u _ p => s.dieCheck u p
  run := fun u m p => match u with
    | .htu => .probHtu m p
    | .vta => .get fun s =>
      let k := arg p 0 4 % 64
      let v := s.rd .vta (Reg.VTA_DIE_VERDICT k)
      let act := if arg p 4 1 = 1 then v < vProbation ∨ v = vDead else v = vProbation
      .both (.cond act (if arg p 4 1 = 1 then .probation k causeCommand 0
          else .healthy k causeCommand))
        (.reply .vta m p.tag { status := stOk, result := if act then 1 else 0 })

/-- The final reply of an HTU to PROBATION: a STOPPED Sentinel flags the verdict INCOMPLETE (R304). -/
def Prog.probReplied (k result : Nat) : Prog := .get fun s =>
  .cond (result == 0 && s.rd .vta (Reg.VTA_DIE_VERDICT k) == vProbation)
    (.verdictRecord k vProbation (s.rd .vta (Reg.VTA_DIE_CAUSE k)) flIncomplete)

/-- LEASE_RENEW at the VTA (R308, R311): PROGRESS renews the leases of the job's dies, MGMT their management ages; the answer counts
the dies. -/
def Prog.leaseVta (p : Packet) (answer : Ans → Prog) : Prog := .get fun s =>
  let ks := (List.range 64).filter fun k => (arg p 8 8).testBit k
  let job := ks.filter fun k => s.inRunning k && arg p 4 4 == s.rd .vta Reg.VTA_JOB_JOB_ID
  if arg p 0 1 = 1 then .both (.each job .renewLease) (answer { status := stOk, result := job.length })
  else .both (.vta fun x => { x with mgmtAt := ks.foldl (fun l k => Sparse.put l k s.stamp) x.mgmtAt })
    (answer { status := stOk, result := ks.length })

/-- LEASE_RENEW (R311). -/
def opLeaseRenew : Op where
  code := 0x92
  plen := (· == 16)
  rsvd := fun _ p => anySet p 1 3
  perms := permLease
  check := fun s u _ p =>
    let k := arg p 0 1
    let own := match u with
      | .htu => s.hx.jobPart
      | .vta => s.vx.jobPart
    firstBad [
      (k = 0 ∨ k > 2, badParam 0x100), (u = .htu ∧ k = 2, badParam 0x101),
      ((p.roleN = roleTenant ∧ (k ≠ 1 ∨ own ≠ p.part)) ∨ ((p.roleN = roleFaultManager ∨ p.roleN = roleOperator) ∧ k ≠ 2),
        { status := stDenied }),
      (u = .htu ∧ arg p 8 8 ≠ 0, badParam 0x100)]
  run := fun u m p => match u with
    | .htu => .get fun s => .forward .htu 0 0x92
        { p with params := p.params.take 8 ++ le 8 (2 ^ (s.dieId .htu % 64)), role := 6 } (some (m, p.tag))
    | .vta => .leaseVta p (.reply .vta m p.tag)

-- roles

/-- A ROLE_CHANGE payload: level, new holder (its row, rack and tray), and the change instant (R318). -/
def rolePayload (l : Level) (holder since : Nat) : List Byte := le 1 (levelNo l) ++ zeros 3 ++ le 4 holder ++ le 8 since

/-- The millisecond heartbeat of a role holder to its standby (R318). -/
def Prog.roleHeartbeat (l : Level) : Prog := .get fun s => .cond (l != .tray && s.holdsRole l && s.gorseUp .vta) (.ether (8 + levelNo l) 5 0 (.heartbeat l))

/-- Mailbox 9 closes and reopens: its session ends (R114, R318). -/
def Prog.mbx9Reopen : Prog := .both (.modMb .vta 9 fun b => { b with keyEx := false, bound := false, chain := 0 })
  (.wr .vta (Reg.MBX_STATUS_OPEN 9) 0)

/-- Three heartbeats are missing at the standby: it takes the role over 2 µs later (R28, R318). -/
def Prog.roleTakeover (l : Level) : Prog := .get fun s => .opt (s.roleAt l) fun r =>
  let me := Config.vtaAddr.toNat
  .cond (r.standby == me && r.holder != me) <|
    let since := s.ns .vta + 2000
    let rec' := { s.msg .vta 0x64 0 (s.ns .vta) (rolePayload l me since) with unit := unitCode .vta false (levelRank l) }
    .seq [
      .vta fun x => { x with roles := x.roles.map fun e => if e.level = l then { e with holder := me, standby := r.holder, since, prev := r.holder } else e },
      .ethRec false 5 rec', .ethRec true 5 rec', .verdictRec 0x64 (rolePayload l me since)]

/-- Whether a VTA number lies below the unit of a role that this VTA stands in: its rack, its row, the hall (R21, R27). -/
def sameUnit (l : Level) (v : Nat) : Bool :=
  let me := Config.vtaAddr.toNat
  match l with
  | .tray => v == me
  | .rack => v / 8 == me / 8
  | .row => v / 128 == me / 128
  | .hall => true

/-- The level above a role, and the input there of the unit that a holder of it heads (R21, R189). -/
def headInput (l : Level) (v : Nat) : Option (Level × Nat) :=
  match l with
  | .rack => some (.row, v / 8 % 16)
  | .row => some (.hall, v / 128 % 16)
  | _ => none

/-- A ROLE_CHANGE arrives (R318): in this VTA's own unit the holder changes, and a former holder stops acting in the role and writes a record
of its own; for a unit below, the role above accepts its messages from the named holder only. -/
def Prog.roleChange (r : Rec) : Prog := .get fun s =>
  let b := r.payload
  .opt ([Level.rack, .row, .hall].find? fun l => levelNo l == fieldAt b 0 1) fun l =>
    let holder := fieldAt b 4 4 % 2048
    let was := (s.roleAt l).map (·.holder) == some Config.vtaAddr.toNat
    .both (.opt (headInput l holder) fun (up, i) => .cond (sameUnit up holder) <| .vta fun x => { x with
      heads := (x.heads.filter fun h => !(h.1 == up && h.2.1 == i)) ++ [(up, i, holder, fieldAt b 8 8)] }) <|
    .cond (sameUnit l holder) <| .seq [
      .vta fun x => { x with roles := x.roles.map fun e =>
        if e.level = l ∧ e.holder ≠ holder then { e with holder, since := fieldAt b 8 8, prev := e.holder } else e },
      .cond (was && holder != Config.vtaAddr.toNat) (.verdictRec 0x64 (rolePayload l holder (fieldAt b 8 8))),
      .cond (levelNo l == levelNo s.topRole + 1) .mbx9Reopen]

-- stragglers

/-- The lag entries of a die in a store: those not capped, and whether some were (R270, R319). -/
def lagsOf (st : Store) (k : Nat) : List Nat × Bool :=
  let mine := st.lags.filter (·.1 == k)
  ((mine.filter fun e => !e.2.2).map (·.2.1), mine.any fun e => e.2.2)

/-- STRAGGLER_REPORT after a run set (R319): dies in descending mean lag. -/
def Prog.stragglers (st : Store) : Prog := .get fun s =>
  let one (k : Nat) : Option (Int × Nat) := match (lagsOf st k).1 with
    | [] => none
    | l => some (((l.sum / l.length : Nat) : Int), k)
  let all := ((List.range 64).filterMap one).foldl (fun a e => topInsert e a) []
  let top := all.take 16
  let entry (e : Int × Nat) : List Byte :=
    let (l, capped) := lagsOf st e.2
    le 4 (s.dieId .vta + e.2) ++ le 4 e.1.toNat ++ le 4 (l.foldl max 0) ++ le 2 l.length
      ++ le 1 (capped.toNat + 2 * (s.rd .vta (Reg.VTA_DIE_VERDICT e.2) == vProbation).toNat) ++ zeros 1
  .cond (all.any fun e => e.1 ≥ (s.rd .vta Reg.VTA_FLT_CLEAR_STRAG_THR : Int)) <|
    .emitReg .vta Reg.VTA_FLT_STREAM_S_VALID Reg.VTA_FLT_STREAM_STRAG 0x62 (top.flatMap entry)

end Sys2Proof.Machine
end

