-- ==== Sys2Proof/Machine/Forest.lean ====
section
/-! DEFINITION. Model images: parsing and checks (R268, R269), thermometer layouts (R276 to R278), TCAM entries and their placement
(R279 to R281), and the Heath arrays' arithmetic (R287 to R289). -/

namespace Sys2Proof.Machine

-- values

/-- v × 2^e in FP32, rounded to nearest even. -/
def fpScale (v : Half) (e : Int) : Half :=
  if !fpFinite v then v
  else if 0 ≤ e then fpRound 149 (fpInt v * 2 ^ e.toNat) else fpRound (149 + e.natAbs) (fpInt v)

/-- n / d in FP32, rounded to nearest even. -/
def fpRatio (n : Int) (d : Nat) : Half :=
  let q := n.natAbs * 2 ^ 151 / d
  let m : Nat := 2 * q + (if n.natAbs * 2 ^ 151 % d = 0 then 0 else 1)
  if n < 0 then fpRound 152 (-(m : Int)) else fpRound 152 m

/-- An integer in FP32. -/
def fpOfInt (n : Int) : Half := fpRatio n 1

/-- The ordered key of a value (R276): −0 is +0, a non-negative pattern gets its top bit, a negative one is inverted. -/
def fpKey (v : Half) : Half := if fpMag v = 0 then 0x80000000 else if fpNeg v then ~~~v else v ||| 0x80000000

/-- A NaN value is missing (R276). -/
def present (v : Option Half) : Option Half := v.bind fun x => if fpIsNan x then none else some x

-- the image

/-- A tree node (R269). -/
structure Node where
  kind  : Nat
  dflt  : Bool
  feat  : Nat
  out   : Nat
  arg   : Half
  lo    : Nat
  hi    : Nat
  rsvd  : Bool
deriving DecidableEq, Repr

/-- A node of 16 bytes. -/
def nodeAt (b : List Byte) (a : Nat) : Node :=
  { kind := fieldAt b a 1, dflt := (fieldAt b (a + 1) 1).testBit 0, feat := fieldAt b (a + 2) 1, out := fieldAt b (a + 3) 1
    arg := BitVec.ofNat 32 (fieldAt b (a + 4) 4), lo := fieldAt b (a + 8) 2, hi := fieldAt b (a + 10) 2
    rsvd := fieldAt b (a + 1) 1 / 2 != 0 || fieldAt b (a + 12) 4 != 0 }

/-- The children of a node. -/
def Node.children (n : Node) : List Nat := if n.kind = 2 then [] else [n.lo, n.hi]

/-- A parsed tree: its group and nodes. -/
structure Tree where
  group : Nat
  nodes : List Node
deriving DecidableEq, Repr

/-- A parsed image (R268). -/
structure Image where
  version : Nat
  groups  : Nat
  signed  : Bool
  feats   : List FeatEnt
  bases   : List Int
  trees   : List Tree
  jobs    : List (List Byte)
  bytes   : List Byte
deriving DecidableEq, Repr

/-- A feature map entry (R270). -/
def featAt (b : List Byte) (a : Nat) : FeatEnt :=
  { kind := fieldAt b a 1, delta := (fieldAt b (a + 1) 1).testBit 0, a := fieldAt b (a + 2) 2, b := fieldAt b (a + 4) 1
    scale := toSigned 8 (fieldAt b (a + 5) 1) }

/-- Whether a feature map entry is valid (R270): a KIND of the table, DELTA on SAMPLE only, an index in range, reserved bytes 0. -/
def featBad (b : List Byte) (a : Nat) : Bool :=
  let e := featAt b a
  e.kind = 0 || e.kind > 8 || fieldAt b (a + 1) 1 ≥ 2 || (e.delta && e.kind != 1) || fieldAt b (a + 6) 2 != 0
    || (e.kind == 4 && e.a > 63) || (e.kind == 5 && e.a > 47) || (e.kind == 6 && e.a > 15) || (e.kind == 8 && e.a > 7)

/-- Depth of the tree below node `i` in nodes, with `fuel` nodes allowed; `none` where a path is longer. -/
def pathsOk (nodes : List Node) : Nat → Nat → Bool
  | 0, _ => false
  | fuel + 1, i => match nodes[i]? with
    | none => false
    | some n => n.children.all (pathsOk nodes fuel)

/-- A tree is malformed (R269). -/
def treeBad (feats outs groups : Nat) (t : Tree) : Bool :=
  let kids := t.nodes.flatMap Node.children
  t.nodes == [] || t.group ≥ groups
    || t.nodes.any (fun n => n.kind > 2 || n.rsvd || (n.kind != 2 && n.feat ≥ feats) || (n.kind == 2 && n.out ≥ outs))
    || kids.any (fun k => k = 0 || k ≥ t.nodes.length)
    || (List.range t.nodes.length).any (fun i => i != 0 && (kids.filter (· == i)).length != 1)
    || !pathsOk t.nodes 64 0

/-- Layout of a group (R277): for each feature tested, its distinct (threshold, default) pairs in ascending order, default 0 first,
then the missing bit. −0 and +0 are one threshold. -/
def groupLayout (trees : List Tree) (g feats : Nat) : List LayBit :=
  let nodes := (trees.filter (·.group == g)).flatMap fun t => t.nodes.filter (·.kind != 2)
  let norm (v : Half) : Half := if fpMag v = 0 then 0 else v
  (List.range feats).flatMap fun f =>
    let mine := nodes.filter (·.feat == f)
    let pairs := ((mine.filter (·.kind == 0)).map fun n => (norm n.arg, n.dflt)).eraseDups
    let rank (p : Half × Bool) : Int × Nat := (-(((fpKey p.1).toNat * 2 + p.2.toNat : Nat) : Int), 0)
    let order := (pairs.foldl (fun l p => topInsert (rank p) l) []).map (·.1)
    let sorted := order.filterMap fun k => pairs.find? fun p => (rank p).1 == k
    if mine = [] then [] else sorted.map (fun p => { feat := f, thr := some p }) ++ [{ feat := f, thr := none }]

/-- One reachable path: the layout bits it cares for with their values, and its leaf. -/
abbrev Path := List (Nat × Bool) × Node

/-- All root-to-leaf paths with the bits they require; a path that needs one bit both ways is marked (R280). -/
def treePaths (lay : List LayBit) (nodes : List Node) : Nat → Nat → List (Nat × Bool) → List (Bool × Path)
  | 0, _, _ => []
  | fuel + 1, i, need => match nodes[i]? with
    | none => []
    | some n =>
      if n.kind = 2 then [(need.any fun e => need.contains (e.1, !e.2), (need, n))]
      else
        let norm : Half := if fpMag n.arg = 0 then 0 else n.arg
        let bit := lay.findIdx fun l => l == { feat := n.feat, thr := if n.kind = 0 then some (norm, n.dflt) else none }
        treePaths lay nodes fuel n.lo ((bit, false) :: need) ++ treePaths lay nodes fuel n.hi ((bit, true) :: need)

/-- The TCAM entry of a path (R279, R280). -/
def pathEntry (bank slot tree : Nat) (p : Path) : TEntry :=
  let bits (f : Nat × Bool → Bool) : BitVec 320 := (p.1.filter f).foldl (fun b e => b ||| (1#320 <<< e.1)) 0
  { bank, slot, tree, care := bits fun _ => true, value := bits fun e => e.2, leaf := p.2.arg, out := p.2.out }

/-- An image read from bytes, or the detail of R284 that it fails with. Section offsets count from the image start. -/
def parseImage (b : List Byte) (length : Nat) : Nat ⊕ Image :=
  let nf := fieldAt b 8 2
  let nt := fieldAt b 10 2
  let ng := fieldAt b 12 1
  let no := fieldAt b 13 1
  let nj := fieldAt b 14 1
  let sg := fieldAt b 15 1
  let badHead := fieldAt b 0 4 ≠ 0x4D525448 ∨ nf = 0 ∨ nf > 256 ∨ nt = 0 ∨ nt > 4096 ∨ ng = 0 ∨ ng > 64 ∨ no = 0 ∨ no > 16
    ∨ nj > 8 ∨ sg > 1 ∨ fieldAt b 16 8 ≠ length ∨ length > 2 ^ 28 ∨ (cut b 24 40).any (· != 0)
  let base := 64 + 8 * nf
  let table := base + 8 * no
  let treeAt (i : Nat) : Nat × Nat × Nat := (fieldAt b (table + 8 * i) 1, fieldAt b (table + 8 * i + 2) 2, fieldAt b (table + 8 * i + 4) 4)
  let rows := (List.range nt).map treeAt
  let nodesEnd := rows.foldl (fun m r => max m (r.2.2 + 16 * r.2.1)) (table + 8 * nt)
  let badOff := rows.any (fun r => r.2.2 % 8 != 0 || r.2.2 < table + 8 * nt) || nodesEnd + 64 * nj > b.length
  if badHead ∨ b.length < table + 8 * nt then .inl 0x101
  else if badOff then .inl 0x101
  else
    let trees := rows.map fun r => { group := r.1, nodes := (List.range r.2.1).map fun k => nodeAt b (r.2.2 + 16 * k) }
    let jobs := (List.range nj).map fun j => cut b (nodesEnd + 64 * j) 64
    if (List.range nf).any (fun i => featBad b (64 + 8 * i)) then .inl 0x105
    else if jobs.any (fun j => (Config.heathJob j b).isNone) then .inl 0x105
    else if trees.any (treeBad nf no ng) then .inl 0x103
    else if trees.any (fun t => t.nodes.any fun n => n.kind == 0 && fpIsNan n.arg) then .inl 0x104
    else .inr { version := fieldAt b 4 4, groups := ng, signed := sg == 1, feats := (List.range nf).map fun i => featAt b (64 + 8 * i)
                bases := (List.range no).map fun k => toSigned 64 (fieldAt b (base + 8 * k) 8), trees, jobs, bytes := b }

/-- The key's feature bits of a group for one entity (R278). -/
def encodeKey (lay : List LayBit) (feats : List (Option Half)) : BitVec 320 :=
  (lay.zipIdx).foldl (fun k (l, i) =>
    let v := present ((feats[l.feat]?).getD none)
    let bit := match l.thr, v with
      | none, none => true
      | none, some _ => false
      | some (_, d), none => d
      | some (t, _), some x => decide ((fpKey t).toNat ≤ (fpKey x).toNat)
    if bit then k ||| (1#320 <<< i) else k) 0

-- Heath arithmetic

/-- An FP32 input in a format with `prec` significant bits and least exponent `qmin` − 149, rounded to nearest even (R287). -/
def narrow (fmt prec qmin : Nat) (maxUnits : Nat) (x : Half) : Half :=
  if !fpFinite x then x else
    let n := (fpInt x).natAbs
    let d := max (n.log2 + 1 - prec) qmin
    let r := shiftRne n d * 2 ^ d
    if r > maxUnits then Config.heathOverflow fmt x else fpRound 149 (if fpNeg x then -(r : Int) else r)

/-- Inputs converted once to the job's format (R224, R287). -/
def heathConvert (j : HeathJob) (xs : List Half) : List Half :=
  match j.fmt with
  | 0 => xs.map (narrow 0 8 16 (255 * 2 ^ 269))
  | 1 => xs.map (narrow 1 4 140 (448 * 2 ^ 149))
  | 2 => xs.map (narrow 2 3 133 (57344 * 2 ^ 149))
  | 3 => (chunked 32 xs.length xs).flatMap fun l =>
      let e : Int := (Config.blockExponent l).toNat - 127
      l.map fun x => fpScale (narrow 3 4 140 (448 * 2 ^ 149) (fpScale x (-e))) e
  | 5 => xs.map fun x =>
      if !fpFinite x then Config.heathOverflow 5 x
      else
        let v := fpScale x j.scale
        let r : Int := (shiftRne (fpInt v).natAbs 149 : Nat)
        fpOfInt (max (-128) (min 127 (if fpNeg v then -r else r)))
  | _ => xs

/-- One dot product: FP32 fused in ascending k, or INT32 saturating; the flag tells saturation (R287). -/
def heathDot (j : HeathJob) (ws xs : List Half) : Half × Bool :=
  if j.int32 then
    let r := (List.zip ws xs).foldl (fun (a : Int × Bool) p =>
      let v := a.1 + (fpInt p.1 / 2 ^ 149) * (fpInt p.2 / 2 ^ 149)
      let c := max (-(2 ^ 31)) (min (2 ^ 31 - 1) v)
      (c, a.2 || c != v)) (0, false)
    (Config.heathInt j.scale r.1, r.2)
  else ((List.zip ws xs).foldl (fun c p => fpFma c p.1 p.2) 0, false)

/-- A matrix times a vector, converted inputs; rows are outputs. -/
def heathMul (j : HeathJob) (m : List (List Half)) (xs : List Half) : List Half × Bool :=
  let x := heathConvert j xs
  let r := m.map fun row => heathDot j (heathConvert j row) x
  (r.map (·.1), r.any (·.2))

/-- Columns of a matrix given by rows. -/
def transpose (m : List (List Half)) : List (List Half) :=
  (List.range ((m.head?.map List.length).getD 0)).map fun i => m.map fun r => r.getD i 0

/-- PROJ of one entity (R288, R289): the residual and the missing inputs. -/
def heathProj (j : HeathJob) (xs : List (Option Half)) : List Half × Bool :=
  let miss := (xs.filter fun x => (present x).isNone).length
  let d := (List.zip xs j.mean).map fun p => match present p.1 with
    | some x => fpAdd x (p.2 ^^^ 0x80000000)
    | none => 0
  let u := j.layers.headD []
  let y := heathMul j (transpose u) d
  let back := heathMul j u y.1
  let r := List.zipWith (fun a b => fpAdd a (b ^^^ 0x80000000)) d back.1
  ([r.foldl (fun c x => fpFma c x x) 0, fpOfInt miss], y.2 || back.2)

/-- The layers of an MLP: ReLU between layers, the last linear. -/
def heathLayers (j : HeathJob) : List (List (List Half)) → List Half → List Half × Bool
  | [], x => (x, false)
  | [m], x => heathMul j m x
  | m :: ms, x =>
    let y := heathMul j m x
    let z := heathLayers j ms (y.1.map fun v => if fpNeg v && !fpIsNan v then 0 else v)
    (z.1, y.2 || z.2)

/-- MLP of one entity (R288, R289): a missing input is 0. -/
def heathMlp (j : HeathJob) (xs : List (Option Half)) : List Half × Bool :=
  let r := heathLayers j j.layers (xs.map fun x => (present x).getD 0)
  (r.1.take 16, r.2)

/-- Mean in FP32, rounded once. -/
def fpMean (l : List Half) : Half := fpRatio (l.map fpInt).sum (l.length * 2 ^ 149)

/-- GRAM over the dies (R288, R289): outputs of each die with a usable step. -/
def heathGram (j : HeathJob) (steps : List (List (Nat × Nat × Bool))) : List (Nat × List Half) × Bool :=
  let win := (steps.take j.window).filter fun s => (s.filter fun e => !e.2.2).length ≥ 2
  let term (k : Nat) (s : List (Nat × Nat × Bool)) : Option Half :=
    (s.find? fun e => e.1 == k && !e.2.2).map fun e => fpOfInt e.2.1
  let dies := (List.range 64).filter fun k => win.any fun s => (term k s).isSome
  let fill (k : Nat) (s : List (Nat × Nat × Bool)) : Half := (term k s).getD <|
    fpMean ((s.filter fun e => e.1 != k && !e.2.2 && dies.contains e.1).map fun e => fpOfInt e.2.1)
  let rowOf (k : Nat) : List Half :=
    let r := win.map (fill k)
    let m := fpMean r
    heathConvert j (r.map fun x => fpAdd x (m ^^^ 0x80000000))
  let rows := dies.map fun k => (k, rowOf k)
  let g (a b : List Half) : Half × Bool :=
    let d := heathDot j a b
    (fpRatio (fpInt d.1) (win.length * 2 ^ 149), d.2)
  let off (k : Nat) (r : List Half) : List Half := (rows.filter (·.1 != k)).map fun e => (g r e.2).1
  let all := rows.flatMap fun e => off e.1 e.2
  (rows.map fun e => (e.1, [(g e.2 e.2).1, fpMean (off e.1 e.2), fpMean all]),
   rows.any fun e => rows.any fun f => (g e.2 f.2).2)

/-- Multiply-accumulates of a job for one entity, or for the whole GRAM. -/
def heathMacs (j : HeathJob) : Nat :=
  let size (m : List (List Half)) : Nat := (m.map List.length).sum
  match j.kind with
  | 1 => 2 * size (j.layers.headD []) + j.mean.length
  | 2 => 64 * 64 * j.window
  | _ => (j.layers.map size).sum

end Sys2Proof.Machine
end

