-- ==== Sys2Proof/Machine/Heather.lean ====
section
/-! DEFINITION. The Heather engine: gathering (R272), the entity table (R273 to R275), searches and scores (R282, R283, R296), run sets
(R290, R294, R299), records (R297), loading and swapping (R265 to R267, R271, R284 to R286, R295), and scrubbing (R298). -/

namespace Sys2Proof.Machine

-- slots

/-- Fields of a slot that follow its function state. -/
def Prog.showSlot (n : Nat) : Prog := .get fun s =>
  .wr .vta (Reg.HTR_SLOT_STATE n) (match (s.fn .vta (fidSlot n)).st with
    | .stopped => 0
    | .running => 1
    | .draining => 2
    | .faulted => 3)

/-- The position that a slot holds, 0xF for none. -/
def State.svcOf (s : State) (n : Nat) : Nat := s.rd .vta (Reg.HTR_SLOT_SVC n)

/-- HTR_STATUS and HTR_BANK follow the banks. -/
def Prog.showBanks : Prog := .get fun s =>
  let count (st : Nat) : Nat := ((List.range 64).filter fun b => s.rd .vta (Reg.HTR_BANK_STATE b) == st).length
  .seq [
    .each (List.range 64) fun b =>
      let mine := s.vx.tcam.filter (·.bank == b)
      .both (.wr .vta (Reg.HTR_BANK_USED b) mine.length)
        (.wr .vta (Reg.HTR_BANK_TREES b) ((mine.map fun e => (e.slot, e.tree)).eraseDups.length)),
    .wr .vta Reg.HTR_STATUS_BANKS_ACTIVE (count 0), .wr .vta Reg.HTR_STATUS_BANKS_RETIRED (count 1)]

/-- A slot is emptied: its entries, golden copies and registers go. -/
def Prog.emptySlot (n : Nat) : Prog := .seq [
  .vta fun x => { x with
    slots := Sparse.del x.slots n, tcam := x.tcam.filter (·.slot != n), golden := x.golden.filter (·.slot != n)
    leafBad := x.leafBad.filter (·.slot != n) },
  .wr .vta (Reg.HTR_SLOT_LOADED n) 0, .wr .vta (Reg.HTR_SLOT_TRUSTED n) 0, .wr .vta (Reg.HTR_SLOT_PART n) 0,
  .wr .vta (Reg.HTR_SLOT_TREES n) 0, .wr .vta (Reg.HTR_SLOT_ENTRIES n) 0, .wr .vta (Reg.HTR_SLOT_GROUPS n) 0,
  .wr .vta (Reg.HTR_SLOT_FEATURES n) 0, .wr .vta (Reg.HTR_SLOT_VERSION n) 0, .wr .vta (Reg.HTR_SLOT_DIGEST n) 0,
  .showBanks]

/-- Sources that a list of slots references (R272). -/
def slotSources (l : List Slot) : List (Nat × Nat × Nat) :=
  ((l.flatMap fun x => (x.feats.filter fun e => e.kind != 4).map fun e => (e.kind, e.a, e.b))).eraseDups

/-- The RUNNING slots. -/
def State.runningSlots (s : State) : List (Nat × Slot) :=
  s.vx.slots.filter fun e => (s.fn .vta (fidSlot e.1)).st == .running

/-- START_FUNCTION of a slot: it must hold an image, and at most 512 sources may be referenced (R272). -/
def State.startSlotCheck (s : State) (n : Nat) : Option Ans :=
  match Sparse.find s.vx.slots n with
  | none => some (badParam 3)
  | some sl => firstBad [((slotSources (sl :: s.runningSlots.map (·.2))).length > 512, { status := stNoResource })]

-- gathering

/-- Whether a RUNNING slot references a source. -/
def State.referencedSrc (s : State) (k a b : Nat) : Bool :=
  s.runningSlots.any fun e => e.2.feats.any fun f => f.kind == k && f.a == a && f.b == b

/-- A value kept: the latest of its source and row replaces an earlier one. -/
def Store.keep (st : Store) (v : Val) : Store :=
  { st with vals := st.vals.filter (fun x => !(x.src == v.src && x.row == v.row)) ++ [v] }

/-- One more record of a source and row. -/
def Store.tally (st : Store) (src : Nat × Nat × Nat) (row : Nat) : Store :=
  let old := ((st.vals.find? fun x => x.src == src && x.row == row).map (·.v)).getD 0
  st.keep { src, row, v := old + 1, absent := false }

/-- The engine-fault causes of R230. -/
def engineCause (c : Nat) : Bool := [causeMismatch, causeNan, causeInf, causeDual, causeSkew].contains c

/-- A record at the tray merge is gathered (R270, R272, R300): COUNTER_SAMPLE entries and TILE_VERDICT counts of the sources in use; source
kind 0x100 × partition + 1 keeps a sample's partition, and kind 0 the engine-fault FAILs of a die. -/
def Prog.gatherRec (r : Rec) : Prog := .get fun s =>
  let port := r.die % 64
  let b := r.payload
  let t := if r.timev then r.time else s.ns .vta
  let own := r.die / 64 * 64 == s.dieId .vta % 2 ^ 17 && r.unit == 0
  .cond own <|
    if r.typ = 0x20 then
      let e := fieldAt b 0 1
      let clu := fieldAt b 1 1 = 1 ∨ fieldAt b 1 1 = 5
      .cond (s.referencedSrc 1 r.stream e) <| .gather (s.periodOf t) fun st =>
        (List.range (fieldAt b 4 2)).foldl (fun st i =>
          let a := 8 + 16 * i
          let row := if clu then 256 * port + fieldAt b (a + 8) 1 else 16384 + port
          st.keep { src := (256 * r.part + 1, r.stream, e), row, v := BitVec.ofNat 64 (fieldAt b a 8)
                    absent := (fieldAt b (a + 9) 1).testBit 1 }) st
    else .cond (r.typ == 0x40) <|
      let clu := 256 * port + fieldAt b 4 1
      let v := fieldAt b 5 1
      let c := fieldAt b 6 1
      let near := (fieldAt b 7 1).testBit 0
      let codes := (if near then [(0, c)] else []) ++ (if v ≠ 0 then [(v, c)] else [])
      .gather (s.periodOf t) fun st =>
        let st := if v = vFail ∧ engineCause c then st.tally (0, 0, 0) (16384 + port) else st
        codes.foldl (fun st k => if s.referencedSrc 3 k.1 k.2 then st.tally (3, k.1, k.2) clu else st) st

-- the entity table

/-- A field of an entity row. -/
def State.ent (s : State) (row a n : Nat) : Nat := ofLe (Memory.readN s.entity (320 * row + a) n)

/-- VALID rows, in ascending order (R273). -/
def State.validRows (s : State) : List Nat :=
  ((s.entity.map fun c => c.1 / 320).eraseDups).filter fun r => r ≤ 16448 && (s.ent r 5 1).testBit 0

/-- A stored FP32 with its TRUST bit: missing when untrusted for a TRUSTED slot, or NaN (R274). -/
def State.entFp (s : State) (trusted : Bool) (row a bit : Nat) : Option Half :=
  if trusted && !(s.ent row 16 8).testBit bit then none else present (some (BitVec.ofNat 32 (s.ent row a 4)))

/-- The partition of a logical cluster, as the policy in force names it. -/
def State.clusterPart (s : State) (c : Nat) : Nat := ((s.v.pol.body.bind (·.clusters)).bind fun l => l[c]?).getD 0

/-- The rows that a slot scores in a position, or all of its scope (R271, R290). -/
def State.inScope (s : State) (sl : Slot) (row : Nat) : Bool :=
  sl.role != roleAnalytics || (row < 16384 && s.clusterPart (row % 256) == sl.part)

-- features

/-- The sampled value of an entity in a list of values (R270): its own entry, or for a die the sum of its cluster entries. -/
def sampleOf (sl : Slot) (vals : List Val) (a b row : Nat) : Option Word :=
  let mine := vals.filter fun v => v.src.1 % 256 == 1 && v.src.2 == (a, b) && !v.absent
    && (sl.role != roleAnalytics || v.src.1 / 256 == sl.part)
  match mine.find? (·.row == row) with
  | some v => some v.v
  | none =>
    if 16384 ≤ row ∧ row < 16448 then match mine.filter fun v => v.row / 256 == row - 16384 with
      | [] => none
      | l => some (l.foldl (fun x v => x + v.v) 0)
    else none

/-- The port of an entity; none for the tray. -/
def portOfRow (row : Nat) : Option Nat :=
  if row < 16384 then some (row / 256) else if row < 16448 then some (row - 16384) else none

/-- The value of one feature map entry for an entity (R270, R274). -/
def State.feature (s : State) (sl : Slot) (trusted : Bool) (st : Store) (heath : List (Option Half)) (row : Nat) (e : FeatEnt) :
    Option Half :=
  let raw : Option Half := match e.kind with
    | 1 => match sampleOf sl st.vals e.a e.b row with
      | none => none
      | some v =>
        if e.delta then (sampleOf sl st.prev e.a e.b row).map fun p => fpOfInt (v - p).toInt
        else some (fpOfInt v.toNat)
    | 2 => (portOfRow row).bind fun k => match (lagsOf st k).1 with
      | [] => none
      | l => some (fpRatio (l.sum : Nat) l.length)
    | 3 =>
      let count (p : Nat → Bool) : Nat := ((st.vals.filter fun v => v.src == (3, e.a, e.b) && p v.row).map fun v => v.v.toNat).sum
      if row < 16384 then some (fpOfInt (count (· == row)))
      else (portOfRow row).map fun k => fpOfInt (count fun r => r / 256 == k)
    | 4 => (heath[e.a]?).getD none
    | 5 => s.entFp trusted row (24 + 4 * e.a) e.a
    | 6 => s.entFp trusted row (216 + 4 * e.a) (48 + e.a)
    | 7 => some (fpOfInt (s.ent row 8 4))
    | _ =>
      if (s.ent row 312 4 + 2 ^ 32 - st.period % 2 ^ 32) % 2 ^ 32 < s.periodUs st.period then present (some (BitVec.ofNat 32 (s.ent row (280 + 4 * e.a) 4))) else none
  raw.map fun v => fpScale v e.scale

/-- The Heath outputs of an entity (R288, R289), with saturation and the number of non-finite outputs. `gram` holds the GRAM results of
the slot's jobs in order. -/
def State.heathOut (s : State) (sl : Slot) (trusted : Bool) (st : Store) (gram : List (List (Nat × List Half))) (row : Nat) :
    List (Option Half) × Bool × Nat :=
  let jobs := (sl.jobs.filterMap fun d => Config.heathJob d sl.image).zip gram
  let inputs (j : HeathJob) : List (Option Half) := j.feats.map fun f =>
    (sl.feats[f]?).bind fun e => if e.kind = 4 then none else s.feature sl trusted st [] row e
  jobs.foldl (fun acc (j, g) =>
    let r : List Half × Bool := match j.kind with
      | 1 => if row < 16448 then heathProj j (inputs j) else ([], false)
      | 2 => if 16384 ≤ row ∧ row < 16448 then ((((g.find? (·.1 == row - 16384)).map (·.2)).getD []), false) else ([], false)
      | _ => heathMlp j (inputs j)
    let outs := r.1.map fun v => if fpFinite v then some v else none
    (acc.1.mapIdx (fun i o => if j.base ≤ i ∧ i < j.base + outs.length then (outs[i - j.base]?).getD none else o),
      acc.2.1 || r.2, acc.2.2 + (outs.filter Option.isNone).length)) (List.replicate 64 none, false, 0)

/-- Bracken writes POSTED values of an entity directly (R273): bytes 280 to 315 of a row, up to 8 in each write. The spec gives this path no
address, and no row of the table writes by it. -/
def Prog.post (row a : Nat) (bytes : List Byte) : Prog :=
  .cond (row < 24576 && 280 ≤ a && a + bytes.length ≤ 316 && bytes.length ≤ 8) (.entity (320 * row + a) bytes)

/-- One search per tree (R279, R282, R283): the matching entry of each tree, with the counts of trees with none, with several, and with
a leaf word that is uncorrectable, and the banks of those trees. -/
def State.search (s : State) (n : Nat) (sl : Slot) (feats : List (Option Half)) : List TEntry × Nat × Nat × Nat × List Nat :=
  let keys := sl.layouts.map fun l => encodeKey l feats
  let hit (t : Nat) : List TEntry := s.vx.tcam.filter fun e =>
    e.slot == n && e.tree == t && e.bank == sl.bankOf.getD t 64
      && (keys.getD (sl.groupOf.getD t 0) 0 &&& e.care) == e.value && s.rd .vta (Reg.HTR_BANK_STATE e.bank) == 0
  (List.range sl.groupOf.length).foldl (fun a t => match hit t with
    | [e] => if s.vx.leafBad.contains e then (a.1, a.2.1, a.2.2.1, a.2.2.2.1 + 1, a.2.2.2.2 ++ [e.bank]) else (a.1 ++ [e], a.2)
    | [] => (a.1, a.2.1 + 1, a.2.2.1, a.2.2.2.1, a.2.2.2.2 ++ [sl.bankOf.getD t 64])
    | _ => (a.1, a.2.1, a.2.2.1 + 1, a.2.2.2.1, a.2.2.2.2 ++ [sl.bankOf.getD t 64])) ([], 0, 0, 0, [])

/-- GRAM results of a slot's jobs, computed once per run. -/
def State.gramOf (s : State) (sl : Slot) : List (List (Nat × List Half) × Bool) :=
  (sl.jobs.filterMap fun d => Config.heathJob d sl.image).map fun j => if j.kind = 2 then heathGram j s.vx.lagHist else ([], false)

/-- The score of one entity (R282, R296), with trees that hit none and several, and its non-finite Heath outputs. -/
def State.score (s : State) (n : Nat) (sl : Slot) (trusted : Bool) (st : Store) (gram : List (List (Nat × List Half) × Bool))
    (row : Nat) : Score × Nat × Nat × Nat :=
  let (heath, sat, nonfin) := s.heathOut sl trusted st (gram.map (·.1)) row
  let feats := sl.feats.map (s.feature sl trusted st heath row)
  let (hits, none', many, bad, hurt) := s.search n sl feats
  let outs := sl.bases.mapIdx fun k b => b + ((hits.filter (·.out == k)).map fun e => e.leaf.toInt).sum
  let media := none' + many + bad ≠ 0
  ({ row, outs, heath, feats, hurt, miss := (feats.filter fun f => (present f).isNone).length
     flags := trusted.toNat + (if media then 2 else 0) + (if st.late then 4 else 0)
       + (if sat || gram.any (·.2) then 8 else 0) }, none', many, nonfin)

-- records

/-- A SCORE payload (R297). -/
def State.scorePayload (s : State) (pos n trees period : Nat) (x : Score) (all : Bool) : List Byte :=
  le 4 (s.ent x.row 0 4) ++ le 1 pos ++ le 1 n ++ le 1 (x.flags + (if all then 16 else 0)) ++ le 1 x.outs.length
    ++ le 4 (epochOf (period * 1000)) ++ le 2 trees ++ le 2 x.miss
    ++ x.outs.flatMap (fun v => le 8 (ofSigned 64 v))
    ++ (List.range 4).flatMap fun i => le 4 ((((x.heath[i]?).getD none).getD fpNan).toNat)

/-- A SCORE_SUMMARY payload: one sketch of output 0 (R297). -/
def State.summaryPayload (s : State) (v period : Nat) (l : List Score) : List Byte :=
  let off := s.rd .vta (Reg.HTR_SVC_OFFSET v)
  let lane := laneMergeAll 0x0D off (l.map fun x => laneOne 0x0D 0 off (ofSigned 64 (x.outs.headD 0)) 0)
  let p : Part := { op := 0x0D, level := 1, flags := 0, ladder := s.ladder .vta
                    epoch := BitVec.ofNat 32 (epochOf (period * 1000)), members := l.length % 65536
                    contrib := l.length % 65536, dies := 0
                    clusters := (l.filter fun x => x.row < 16384).length, lanes := [lane] }
  p.payload { id := 0, part := 0, digest := 0 } 1

-- run sets

/-- Counts that a list of scores leaves in the engine's registers. -/
def Prog.scoreCounts (n : Nat) (trees : Nat) (l : List (Score × Nat × Nat × Nat)) : Prog := .seq [
  .bumpBy .vta Reg.HTR_ERR_NO_HIT (l.map fun e => e.2.1).sum,
  .bumpBy .vta Reg.HTR_ERR_MULTI_HIT (l.map fun e => e.2.2.1).sum,
  .bumpBy .vta Reg.HTH_ERR_NONFINITE (l.map fun e => e.2.2.2).sum,
  .count .vta Reg.HTR_SEARCHES_COUNT (trees * l.length),
  .vta fun x => { x with scrubQ := (x.scrubQ ++ l.flatMap (·.1.hurt)).eraseDups },
  .bumpBy .vta (Reg.HTR_SLOT_MEDIA n) (l.filter fun e => e.1.flags.testBit 1).length,
  .cond (l.any fun e => e.1.flags.testBit 3) (.bump .vta Reg.HTH_ERR_SAT)]

/-- HIST of the entities of a run (R275): the field takes x, or moves towards it by 2^−ALPHA_LOG2. A trusted position, whose slot reads an
untrusted HIST as missing (R274), does so here too (DEDUCED, log entry 143). -/
def Prog.updateHist (v : Nat) (l : List Score) : Prog := .get fun s =>
  .each ((List.range 16).filter fun h => s.on .vta (Reg.HTR_HIST_EN h) && s.rd .vta (Reg.HTR_HIST_SVC h) == v) fun h =>
    .each l fun x => .get fun s =>
      match Sys2Proof.Machine.present ((x.feats[s.rd .vta (Reg.HTR_HIST_FEATURE h)]?).getD none) with
      | none => .skip
      | some f =>
        let new := match s.entFp (decide (v ≤ 3)) x.row (216 + 4 * h) (48 + h) with
          | none => f
          | some old => fpAdd old (fpScale (fpAdd f (old ^^^ 0x80000000)) (-(s.rd .vta (Reg.HTR_HIST_ALPHA_LOG2 h) : Int)))
        let trust := s.ent x.row 16 8
        let bit := 2 ^ (48 + h)
        let trust' := if v ≤ 3 then trust ||| bit else if trust.testBit (48 + h) then trust - bit else trust
        .both (.entity (320 * x.row + 216 + 4 * h) (le 4 new.toNat)) (.entity (320 * x.row + 16) (le 8 trust'))

/-- The Heather engine's trace word for a position (R349). -/
def Prog.traceRun (v n period : Nat) (skipped : Bool) : Prog := .get fun s =>
  .traceData .vta 0x21 0 (BitVec.ofNat 64 (n + 2 ^ 4 * v + 2 ^ 8 * skipped.toNat + 2 ^ 32 * (period / s.periodUs period % 2 ^ 32)))

/-- One position of a run set (R290, R294, R296, R297). -/
def Prog.runPosition (st : Store) (v n : Nat) : Prog := .get fun s =>
  .opt (Sparse.find s.vx.slots n) fun sl =>
    let trusted := s.on .vta (Reg.HTR_SLOT_TRUSTED n)
    let rows := s.validRows.filter fun r => (s.ent r 4 1).testBit v && s.inScope sl r
    let gram := s.gramOf sl
    let l := rows.map fun r => s.score n sl trusted st gram r
    let sc := l.map (·.1)
    let report := toSigned 64 (s.rd .vta (Reg.HTR_SVC_REPORT v))
    let stream := s.rd .vta (Reg.HTR_SVC_STREAM v)
    .seq [
      .traceRun v n st.period false,
      .scoreCounts n sl.groupOf.length l,
      .vta fun x => { x with scores := sc.foldl (fun t e => Sparse.put t (2 ^ 15 * v + e.row)
        { e with outs := e.outs.take 4, heath := e.heath.take 4, feats := [], hurt := [] }) x.scores },
      .cond (s.on .vta (Reg.HTR_SVC_VALID v)) <| .both
        (.cond (s.ladder .vta < 2 || v ≤ 3) <| .each (sc.filter fun e => e.outs.headD 0 ≥ report) fun e =>
          .emit .vta stream 0x50 (s.scorePayload v n sl.groupOf.length st.period e false))
        (.emit .vta stream 0x51 (s.summaryPayload v st.period sc)),
      .updateHist v sc]

/-- Indexes 6 and 7 take their values (R110): the images of the slots in service positions 0 to 7, and their Heath sections. -/
def Prog.measureSlots : Prog := .get fun s =>
  let live := (List.range 8).filterMap fun v => Sparse.find s.vx.slots (s.rd .vta (Reg.HTR_SVC_SLOT v))
  .both (.measure .vta 6 (Config.sha384 (live.flatMap (·.image)))) (.measure .vta 7 (Config.sha384 (live.flatMap fun x => x.jobs.flatten)))

/-- A MODEL_SWAP takes effect (R286). -/
def Prog.applySwap (v m : Nat) (tag : BitVec 16) : Prog := .get fun s =>
  let new := s.rd .vta (Reg.HTR_SVC_PEND_SLOT v)
  let old := s.rd .vta (Reg.HTR_SVC_SLOT v)
  .seq [
    .cond (old != 0xF) (.wr .vta (Reg.HTR_SLOT_SVC old) 0xF),
    .cond (new != 0xF) (.wr .vta (Reg.HTR_SLOT_SVC new) v),
    .wr .vta (Reg.HTR_SVC_SLOT v) new, .wr .vta (Reg.HTR_SVC_PEND v) 0, .wr .vta (Reg.HTR_SVC_PEND_SLOT v) 0xF,
    .wr .vta (Reg.HTR_SVC_APPLY_NS v) 0,
    .vta fun x => { x with swaps := Sparse.del x.swaps v, scores := x.scores.filter fun e => new != 0xF || e.1 / 2 ^ 15 != v },
    .measureSlots,
    .reply .vta m tag { status := stOk }]

/-- The bank that a tree goes to (R281): the ACTIVE one with fewest trees, then most free entries, then lowest; it must hold the entries. -/
def placeTree (active : List Nat) (tcam : List TEntry) (size : Nat) : Option Nat :=
  let used (b : Nat) : Nat := (tcam.filter (·.bank == b)).length
  let trees (b : Nat) : Nat := ((tcam.filter (·.bank == b)).map fun e => (e.slot, e.tree)).eraseDups.length
  let fits := active.filter fun b => used b + size ≤ 8192
  fits.head?.map fun b0 => fits.foldl (fun b c =>
    if trees c < trees b ∨ (trees c = trees b ∧ used c < used b) then c else b) b0

/-- The ACTIVE banks. -/
def State.activeBanks (s : State) : List Nat :=
  (List.range 64).filter fun b => s.rd .vta (Reg.HTR_BANK_STATE b) == 0 && !s.vx.bankOut.contains b

/-- One tree of a retiring bank moves to another, from its golden copy (R298); a slot whose tree fits nowhere is FAULTED. -/
def Prog.moveTree (b slot tree : Nat) : Prog := .get fun s =>
  let mine := s.vx.golden.filter fun e => e.slot == slot && e.tree == tree
  let rest := s.vx.tcam.filter fun e => !(e.slot == slot && e.tree == tree)
  match placeTree (s.activeBanks.filter (· != b)) rest mine.length with
  | some c =>
    let moved := mine.map fun e => { e with bank := c }
    .vta fun x => { x with
      tcam := rest ++ moved
      golden := (x.golden.filter fun e => !(e.slot == slot && e.tree == tree)) ++ moved
      slots := x.slots.map fun e => if e.1 = slot then (slot, { e.2 with bankOf := e.2.bankOf.set tree c }) else e }
  | none => .both (.faultFn .vta (fidSlot slot)) (.showSlot slot)

/-- Banks marked for retirement go RETIRED with their trees moved, and FAULTED slots leave their positions, as a run set starts
(R298). -/
def Prog.retireBanks : Prog := .get fun s => .seq [
  .each s.vx.bankOut fun b => .both
    (.each ((s.vx.tcam.filter (·.bank == b)).map fun e => (e.slot, e.tree)).eraseDups fun t => .moveTree b t.1 t.2)
    (.seq [.wr .vta (Reg.HTR_BANK_STATE b) 1, .evr .vta fun v => { v with remaps := v.remaps ++ [(4, 0, b)] },
      .event .vta 0x0603 (le 1 4 ++ zeros 7 ++ le 8 b)]),
  .vta fun x => { x with bankOut := [] },
  .get fun s => .each (List.range 8) fun v =>
    let n := s.rd .vta (Reg.HTR_SVC_SLOT v)
    .cond (n != 0xF && (s.fn .vta (fidSlot n)).st == .faulted) <| .both
      (.wr .vta (Reg.HTR_SVC_SLOT v) 0xF) (.wr .vta (Reg.HTR_SLOT_SVC n) 0xF),
  .showBanks]

/-- Heath jobs of the slots in service, onto the ACTIVE arrays in order. -/
def State.heathJobs (s : State) : List (Nat × Nat × Nat × HeathJob) :=
  let arrays := (List.range 8).filter fun a => s.rd .vta (Reg.HTH_ARRAY_STATE a) != 2
  let jobs := (s.vx.runSlots.flatMap fun e => match Sparse.find s.vx.slots e.2 with
    | some sl => (sl.jobs.zipIdx).filterMap fun d => (Config.heathJob d.1 sl.image).map fun j => (e.2, d.2, j)
    | none => [])
  (jobs.zipIdx).filterMap fun (j, i) => (arrays[i % max 1 arrays.length]?).map fun a => (a, j.1, j.2.1, j.2.2)

/-- The run set of a period starts: swaps due apply, banks retire, and the Heath jobs go to the arrays (R286, R290, R298). -/
def Prog.startSet (period : Nat) : Prog := .get fun s => .seq [
  .each (s.vx.swaps.filter fun e => s.rd .vta (Reg.HTR_SVC_APPLY_NS e.1) ≤ s.ns .vta) fun e => .applySwap e.1 e.2.1 e.2.2,
  .retireBanks,
  .get fun s => .vta fun x => { x with
    running := some period
    stores := x.stores.filter fun st => !st.scored
    runSlots := ((List.range 8).map fun v => (v, s.rd .vta (Reg.HTR_SVC_SLOT v))).filter fun e => e.2 != 0xF },
  .get fun s => .each s.heathJobs fun e => .seq [
    .wr .vta (Reg.HTH_ARRAY_STATE e.1) 1, .wr .vta (Reg.HTH_ARRAY_SLOT e.1) e.2.1, .wr .vta (Reg.HTH_ARRAY_JOB e.1) e.2.2.1,
    .traceData .vta 0x22 0 (BitVec.ofNat 64 (e.2.1 + 2 ^ 4 * e.2.2.1 + 2 ^ 8 * e.1))]]

/-- A run set is skipped (R290): its slots count it and its store is freed. -/
def Prog.skipSet (period : Nat) : Prog := .get fun s => .both
  (.each (List.range 8) fun v =>
    let n := s.rd .vta (Reg.HTR_SVC_SLOT v)
    .cond (n != 0xF) (.both (.bump .vta (Reg.HTR_SLOT_SKIPPED n)) (.traceRun v n period true)))
  (.vta fun x => { x with stores := x.stores.filter fun st => st.period != period })

/-- The units that scoring needs beside the DDR5 (R443): a TCAM bank, and a sward group with a logical core. -/
def State.scores (s : State) : Bool :=
  s.on .vta Reg.VTA_STATUS_DDR_READY && s.rd .vta Reg.HTR_STATUS_BANKS_ACTIVE != 0
    && (List.range 30).any fun g => s.rd .vta (Reg.VTA_SWG_LOGICAL g) != 0

/-- A period can be scored (R290, R299, R442, R443): time held all through it, and the engine runs. -/
def State.scorable (s : State) (period : Nat) : Bool :=
  s.scores && s.timev .vta && s.v.validSince ≤ period * 1000 && s.on .vta Reg.HTR_STATUS_INIT_DONE
    && !s.on .vta Reg.VTA_THERM_STOPPED

/-- FEATURE_CUTOFF after the end of period number `number` (R272, R290). -/
def Prog.featureCutoff (number : Nat) : Prog := .get fun s =>
  let period := s.periodStart number
  let per := s.periodUs period
  let cut' := (period + per + s.rd .vta Reg.HTR_PERIOD_FEATURE_CUTOFF) * 1000
  let fresh := match s.vx.closedP with
    | some (p, _) => decide (p ≤ period)
    | none => true
  .cond (cut' ≤ s.ns .vta && fresh && s.on .vta Reg.HTR_STATUS_INIT_DONE && !s.v.gated) <| .seq [
    .cond (!s.vx.stores.any (·.period == period)) (.gather period id),
    .get fun s =>
      let prev := match s.vx.closedP with
        | some (p, l) => if p = period then l else []
        | none => []
      let vals := ((s.vx.stores.find? (·.period == period)).map (·.vals)).getD []
      .vta fun x => { x with
        closedP := some (period + per, vals)
        stores := x.stores.map fun st => if st.period ≤ period then { st with closed := true, prev := if st.period = period then prev else st.prev }
          else st },
    .get fun s =>
      if !s.scorable period then .skipSet period
      else match s.vx.running, s.vx.waitSet with
        | none, _ => .startSet period
        | some _, some w => .both (.skipSet w) (.vta fun x => { x with waitSet := some period })
        | some _, none => .vta fun x => { x with waitSet := some period }]

/-- The run set of period number `number` completes (R275, R290, R296, R300, R319). -/
def Prog.runSetComplete (number : Nat) : Prog := .get fun s => .opt s.vx.running fun period =>
  .cond (s.isPeriod number period) <| .opt (s.vx.stores.find? (·.period == period)) fun st => .seq [
    .each s.vx.runSlots fun e => .runPosition st e.1 e.2,
    .each s.heathJobs fun e => .both (.wr .vta (Reg.HTH_ARRAY_STATE e.1) 0)
      (.count .vta (Reg.HTH_ARRAY_MACS e.1) (heathMacs e.2.2.2 * (if e.2.2.2.kind = 2 then 1 else s.validRows.length))),
    .vta fun x => { x with
      faultsF := (st.vals.filter fun v => v.src == (0, 0, 0)).foldl (fun l v => Sparse.put l (v.row - 16384) v.v.toNat) []
      running := none, scored := period
      stores := x.stores.map fun e => if e.period = period then { e with scored := true } else e },
    .evaluate, .stragglers st,
    .get fun s => .opt s.vx.waitSet fun w => .both (.vta fun x => { x with waitSet := none }) (.startSet w)]

-- commands

/-- The staging area (R367). -/
def stagingBase : Nat := 0x10000000

/-- Bytes of the staging area lie in pages of a partition (R284, R368). -/
def State.stagingOk (s : State) (part off len : Nat) : Bool :=
  off + len ≤ 2 ^ 30 && len != 0 && (List.range ((off + len - 1) / 2 ^ 22 - off / 2 ^ 22 + 1)).all fun i =>
    let g := off / 2 ^ 22 + i
    s.on .vta (Reg.TRC_STAGE_PAGE_VALID g) && s.rd .vta (Reg.TRC_STAGE_PAGE_OWNER g) == part
      && (!s.on .vta (Reg.TRC_STAGE_PAGE_GOLDEN g) || part == 0)

/-- The image that a TREE_LOAD names. -/
def State.imageOf (s : State) (p : Packet) : Nat ⊕ Image :=
  let len := arg p 8 8
  parseImage (Memory.readN s.ddr (stagingBase + 8 * arg p 4 4) (min len (2 ^ 28))) len

/-- A command that reads DDR5 from `a` for `n` bytes meets an uncorrectable page: MEDIA_ERROR with the first one's offset (R405). -/
def State.ddrBad (s : State) (a n : Nat) : Option Ans :=
  (((s.v.bad.filter fun e => e.1 == 11 && e.2 < a + n && a < e.2 + 4096).map (·.2)).min?).map fun o => { status := stMedia, detail := o }

/-- Ownership of a slot (R117, R265). -/
def State.ownsSlot (s : State) (p : Packet) (n : Nat) : Bool :=
  match Sparse.find s.vx.slots n with
  | some sl => [1, 4, 5].contains p.roleN || (sl.part == p.part && sl.role == p.roleN)
  | none => true

/-- The signature of a signed image holds (R267, R268). -/
def sigOk (im : Image) : Bool :=
  let n := Config.sigBlockLen im.bytes
  Config.sigVerifies Config.providerRoot (im.bytes.take (im.bytes.length - n)) (im.bytes.drop (im.bytes.length - n))

/-- The first feature or job that an ANALYTICS slot may not name (R271). -/
def dieWideFeat (im : Image) : Option Nat :=
  match im.feats.findIdx? fun e => e.kind == 2 || e.kind == 3 || e.kind == 6 || e.kind == 7 with
  | some i => some i
  | none => im.jobs.findIdx? fun d => (Config.heathJob d im.bytes).map (·.kind) == some 2

/-- Entries of an image with their banks, tree by tree (R280, R281): the entries, the banks and the unreachable paths, or the bank that
is full. -/
def placeImage (active : List Nat) (slot : Nat) (im : Image) (lays : List (List LayBit)) :
    List (Tree × Nat) → List TEntry → List Nat → Nat → Nat ⊕ (List TEntry × List Nat × Nat)
  | [], tcam, banks, lost => .inr (tcam, banks, lost)
  | (t, i) :: ts, tcam, banks, lost =>
    let paths := treePaths (lays.getD t.group []) t.nodes 64 0 []
    let good := (paths.filter fun p => !p.1).map (·.2)
    match placeTree active tcam good.length with
    | none => .inl ((placeTree active tcam 0).getD 0)
    | some b => placeImage active slot im lays ts (tcam ++ good.map (pathEntry b slot i)) (banks ++ [b])
        (lost + (paths.length - good.length))

/-- The layouts of an image's groups. -/
def layoutsOf (im : Image) : List (List LayBit) :=
  (List.range im.groups).map fun g => groupLayout im.trees g im.feats.length

/-- What a TREE_LOAD makes of its image: a refusal, or the image with its entries. -/
def State.loadImage (s : State) (p : Packet) : Ans ⊕ (Image × List TEntry × List Nat × Nat) :=
  let n := arg p 0 1
  if !s.stagingOk p.part (8 * arg p 4 4) (arg p 8 8) then .inl (badParam 0x106)
  else match s.ddrBad (stagingBase + 8 * arg p 4 4) (arg p 8 8) with
  | some a => .inl a
  | none => match s.imageOf p with
    | .inl d => .inl (badParam d)
    | .inr im =>
      let lays := layoutsOf im
      let reach (t : Tree) : Nat := ((treePaths (lays.getD t.group []) t.nodes 64 0 []).filter fun p => !p.1).length
      if im.signed ∧ !sigOk im then .inl (badParam 0x100)
      else if lays.any (fun l => l.length > 320) then .inl (badParam 0x102)
      else if im.trees.any fun t => reach t > 8192 then .inl (badParam 0x103)
      else match if p.roleN = roleAnalytics then dieWideFeat im else none with
        | some i => .inl { status := stDenied, detail := i }
        | none => match placeImage s.activeBanks n im lays im.trees.zipIdx (s.vx.tcam.filter (·.slot != n)) [] 0 with
          | .inl b => .inl { status := stNoResource, detail := b }
          | .inr r => .inr (im, r)

/-- TREE_LOAD (R265, R284): a failed load leaves the slot STOPPED and empty. RESULT is the entries written; 8 bytes of reply data count
the unreachable paths. -/
def opTreeLoad : Op where
  code := 0x40
  onHtu := false
  classes := [3]
  plen := (· == 16)
  rsvd := fun _ p => anySet p 1 3
  perms := permTree
  own := fun s _ p => s.ownsSlot p (arg p 0 1)
  check := fun s _ _ p => firstBad [
    (arg p 0 1 > 15, badParam 3),
    ((s.fn .vta (fidSlot (arg p 0 1))).st ≠ .stopped, { status := stNotStopped })]
  ready := fun s _ _ => s.on .vta Reg.VTA_STATUS_DDR_READY
  data := fun _ => 8
  run := fun u m p => .get fun s =>
    let n := arg p 0 1
    .both (.emptySlot n) <| .get fun s' => match s.loadImage p with
      | .inl a => .reply u m p.tag a
      | .inr (im, tcam, banks, lost) =>
        let mine := tcam.filter (·.slot == n)
        let posted := im.feats.any fun e => e.kind == 8
        let trusted := im.signed && !posted && p.part == 0 && (p.roleN == roleProvider || p.roleN == roleOperator)
        let sl : Slot := { feats := im.feats, bases := im.bases, groupOf := im.trees.map (·.group), bankOf := banks
                           layouts := layoutsOf im, jobs := im.jobs, part := p.part, role := p.roleN, signed := im.signed
                           image := im.bytes }
        .seq [
          .vta fun x => { x with slots := Sparse.put s'.vx.slots n sl, tcam := tcam, golden := x.golden ++ mine },
          .wr .vta (Reg.HTR_SLOT_LOADED n) 1, .wr .vta (Reg.HTR_SLOT_TRUSTED n) trusted.toNat, .wr .vta (Reg.HTR_SLOT_PART n) p.part,
          .wr .vta (Reg.HTR_SLOT_TREES n) im.trees.length, .wr .vta (Reg.HTR_SLOT_ENTRIES n) mine.length,
          .wr .vta (Reg.HTR_SLOT_GROUPS n) im.groups, .wr .vta (Reg.HTR_SLOT_FEATURES n) im.feats.length,
          .wr .vta (Reg.HTR_SLOT_VERSION n) im.version,
          .wr .vta (Reg.HTR_SLOT_DIGEST n) ((Config.sha384 im.bytes).toNat % 2 ^ 64),
          .showBanks,
          .reply u m p.tag { status := stOk, result := mine.length, data := le 4 lost ++ zeros 4 }]

/-- FEATURE_TABLE_LOAD (R273, R274, R285). -/
def opFeatureLoad : Op where
  code := 0x41
  onHtu := false
  classes := [3]
  plen := (· == 16)
  perms := permTree
  ready := fun s _ _ => s.on .vta Reg.VTA_STATUS_DDR_READY
  check := fun s _ _ p =>
    let n := arg p 4 4
    (firstBad [
      (n = 0 ∨ n > 24576 ∨ arg p 0 4 + n > 24576, badParam 0x101),
      (!s.stagingOk p.part (arg p 8 8) (280 * n), badParam 0x106)]).orElse fun _ =>
    if p.roleN ≠ roleAnalytics then none
    else ((List.range n).find? fun i => let r := arg p 0 4 + i; r ≥ 16384 || s.clusterPart (r % 256) != p.part).map fun i =>
      { status := stDenied, detail := arg p 0 4 + i }
  late := fun s _ _ p => s.ddrBad (stagingBase + arg p 8 8) (280 * arg p 4 4)
  run := fun u m p =>
    let n := arg p 4 4
    let weak := p.roleN = roleAnalytics
    .both
      (.each (List.range n) fun i => .get fun s =>
        let row := arg p 0 4 + i
        let src := Memory.readN s.ddr (stagingBase + arg p 8 8 + 280 * i) 280
        let base := 2 ^ 48 - 1
        let trust := s.ent row 16 8
        .seq [
          .entity (320 * row) (cut src 0 4),
          .cond (!weak) (.entity (320 * row + 4) (cut src 4 1)),
          .entity (320 * row + 5) (cut src 5 1),
          .entity (320 * row + 24) (cut src 24 192),
          .entity (320 * row + 16) (le 8 (trust / (base + 1) * (base + 1) + (if weak then 0 else base)))])
      (.reply u m p.tag { status := stOk, result := n })

/-- The SCORE_RUNs under way, by the ticks at which they end (R295). -/
def State.scoreRuns (s : State) : List Nat := s.vx.runsTill.filter (s.v.ticks < ·)

/-- Ticks that `n` searches take, one per ACTIVE bank in each cycle of 2.5 ns (R291). -/
def State.scoreTicks (s : State) (n : Nat) : Nat := n * 25 / (8 * max 1 (s.rd .vta Reg.HTR_STATUS_BANKS_ACTIVE))

/-- SCORE_RUN (R294, R295): its effect is made at once, and it counts as under way for the time of its searches (log entry 143); it scores the rows against the store of the latest period whose run set has started; its records are withheld at
ladder level L2 and above. -/
def opScoreRun : Op where
  code := 0x42
  onHtu := false
  classes := [3]
  plen := (· == 16)
  rsvd := fun _ p => arg p 1 1 / 2 != 0 || anySet p 12 4
  ready := fun s _ _ => s.scores
  perms := permTree
  check := fun s _ _ p => firstBad [
    (arg p 0 1 > 15, badParam 3),
    (arg p 4 4 + arg p 8 4 > 24576, badParam 0x101),
    (s.rd .vta (Reg.HTR_PART_WT_WEIGHT p.part) = 0, { status := stDenied }),
    ((s.fn .vta (fidSlot (arg p 0 1))).st ≠ .running ∨ s.on .vta Reg.VTA_THERM_STOPPED ∨ s.scoreRuns.length ≥ 16, { status := stBusy })]
  run := fun u m p => .get fun s =>
    let n := arg p 0 1
    let all := (arg p 1 1).testBit 0
    let blank : Store := { period := 0, vals := [], lags := [], late := false, closed := true, scored := true }
    let st := (((s.vx.stores.filter fun e => e.scored || s.vx.running == some e.period).getLast?).getD blank)
    match Sparse.find s.vx.slots n with
    | none => .reply u m p.tag { status := stBusy }
    | some sl =>
      let rows := (s.validRows.filter fun r => arg p 4 4 ≤ r && r < arg p 4 4 + arg p 8 4).filter (s.inScope sl)
      let gram := s.gramOf sl
      let l := rows.map fun r => s.score n sl (s.on .vta (Reg.HTR_SLOT_TRUSTED n)) st gram r
      let report := toSigned 64 (s.rd .vta (Reg.HTR_SVC_REPORT 4))
      .seq [
        .scoreCounts n sl.groupOf.length l,
        .vta fun x => { x with runsTill := s.scoreRuns ++ [s.v.ticks + s.scoreTicks (rows.length * sl.groupOf.length)] },
        .cond (s.ladder .vta < 2) <| .each ((l.map (·.1)).filter fun e => all || e.outs.headD 0 ≥ report) fun e =>
          .emit .vta (arg p 2 2) 0x50 (s.scorePayload 0xFF n sl.groupOf.length st.period e all),
        .reply u m p.tag { status := stOk, result := rows.length }]

/-- MODEL_SWAP (R286). -/
def opModelSwap : Op where
  code := 0x43
  onHtu := false
  classes := [3]
  plen := (· == 16)
  rsvd := fun _ p => anySet p 2 6
  perms := permSwap
  check := fun s _ _ p =>
    let v := arg p 0 1
    let n := arg p 1 1
    let held := s.svcOf n
    firstBad [
      (v > 7 ∨ (n > 15 ∧ n ≠ 0xFF), badParam 3),
      (n ≠ 0xFF ∧ v ≤ 3 ∧ !s.on .vta (Reg.HTR_SLOT_TRUSTED n), badParam 0x120),
      (n ≠ 0xFF ∧ held ≠ 0xF ∧ held ≠ v, badParam 0x121),
      (n ≠ 0xFF ∧ (s.fn .vta (fidSlot n)).st ≠ .running, { status := stBusy }),
      ((Sparse.find s.vx.swaps v).isSome, { status := stBusy })]
  run := fun _ m p =>
    let v := arg p 0 1
    .seq [
      .wr .vta (Reg.HTR_SVC_PEND v) 1, .wr .vta (Reg.HTR_SVC_PEND_SLOT v) (if arg p 1 1 = 0xFF then 0xF else arg p 1 1),
      .wr .vta (Reg.HTR_SVC_APPLY_NS v) (arg p 8 8),
      .vta fun x => { x with swaps := Sparse.put x.swaps v (m, p.tag) }]

-- scrubbing

/-- The rewrites of a bank in the last 24 h (R298). -/
def State.dayFixes (s : State) (b : Nat) : List (Nat × Nat) :=
  s.vx.fixes.filter fun e => e.1 == b && s.v.ticks < e.2 + 86400 * ticksPerS

/-- A scrub pass over a bank (R298), which finds that the entries listed, numbered within the bank, differ from the golden copy: they
are rewritten; a rewrite that does not read back, or the seventeenth in 24 h, marks the bank for retirement. -/
def Prog.tcamScrub (b : Nat) (differ : List Nat) : Prog := .get fun s =>
  let gold := s.vx.golden.filter (·.bank == b)
  let n := (differ.eraseDups.filter fun i => decide (i < gold.length)).length
  let day := s.dayFixes b ++ List.replicate n (b, s.v.ticks)
  let stuck := (List.range n).any fun i => !Config.tcamReadsBack (s.rd .vta (Reg.HTR_BANK_FIXES b) + i)
  .both (.vta fun x => { x with scrubQ := x.scrubQ.filter (· != b) }) <| .cond (n != 0 && s.rd .vta (Reg.HTR_BANK_STATE b) == 0) <| .seq [
    .vta fun x => { x with
      tcam := (x.tcam.filter (·.bank != b)) ++ gold, fixes := x.fixes.filter (·.1 != b) ++ day
      bankOut := if (stuck || day.length > 16) && !x.bankOut.contains b then x.bankOut ++ [b] else x.bankOut },
    .bumpBy .vta (Reg.HTR_BANK_FIXES b) n, .showBanks]

end Sys2Proof.Machine
end

