-- ==== Sys2Proof/Machine/Pulses.lean ====
section
/-! DEFINITION. Pulse generators (R157 to R159, R448). -/

namespace Sys2Proof.Machine

/-- Pulse generators of a unit (R157). -/
def genCount : UnitId → Nat
  | .htu => 8
  | .vta => 16

-- TIM_PULSE.STATE of R164
def genIdle : Nat := 0
def genOneShot : Nat := 1
def genPeriodic : Nat := 2

/-- The tick that holds the next instant has come (R163). -/
def State.genDue (s : State) (u : UnitId) (g : Nat) (gen : Gen) : Bool :=
  !(s.dev u).gated && s.genInstant u g gen ≤ s.ns16 u

/-- A PULSE record of a firing (R448). -/
def Prog.pulseRec (u : UnitId) (g dest t : Nat) (gen : Gen) : Prog := .get fun s =>
  .cond (s.on u Reg.TIM_PULSE_STREAM_VALID) <| .emitAt u (s.rd u Reg.TIM_PULSE_STREAM_STREAM) (some t) fun r =>
    { r with typ := 0x25, payload := le 1 g ++ le 1 dest ++ zeros 2 ++ le 4 gen.fired ++ le 2 gen.frac ++ zeros 6 }

/-- The row PULSE_FIRING (R154, R157, R158, R349): the destinations of a due firing act or are skipped one at a time; a firing whose instant
passes while TIMEV is 0 does not act at all. Whether a snapshot stands in the epoch of a SNAP firing is settled at the instant. -/
def Prog.pulseFiring (u : UnitId) (g : Nat) : Prog := .both
  (.get fun s => .opt (Sparse.find (s.dev u).gens g) fun gen => .cond (s.genDue u g gen && s.timev u && !gen.snap) (.armSnap u g)) <|
  .get fun s => .opt (Sparse.find (s.dev u).gens g) fun gen => .cond (s.genDue u g gen) <|
    let t := s.rd u (Reg.TIM_PULSE_NEXT g)
    let dest := s.rd u (Reg.TIM_PULSE_DEST g)
    let traced := (s.fn u fidTrace).st == .running
    let acts := [dest.testBit 0, dest.testBit 1 && traced, dest.testBit 2, dest.testBit 3 && gen.snap]
    let skips := [dest.testBit 1 && !traced, dest.testBit 3 && !gen.snap]
    if !s.timev u then .skipFirings u g (s.genInstant u g gen + 1) else .seq [
      .acted u t,
      .cond (dest.testBit 0) (.pulseRec u g dest t gen),
      .cond (dest.testBit 1 && traced) (.trigger u 2),
      .cond (dest.testBit 2) (.send u (.pps g)),
      .cond (dest.testBit 3 && gen.snap && !(s.dev u).taken.contains t) (.capture u t),
      .cond (acts.any id) (.count u (Reg.TIM_PULSE_FIRED g)),
      .cond (u == .htu && acts.any id) <| .get fun s =>
        .traceData .htu 0x100 0 (BitVec.ofNat 64 (g + 2 ^ 32 * (s.rd .htu (Reg.TIM_PULSE_FIRED g) % 2 ^ 32))),
      .cond (skips.any id) (.count u (Reg.TIM_PULSE_SKIPPED g)),
      .answer u (gen.tag.map (gen.mbx, ·)) { status := if acts.any id then stOk else stDeadline },
      .advanceGen u g 1]

/-- PULSE_PROGRAM (R157). -/
def opPulseProgram : Op where
  code := 0x21
  plen := (· == 32)
  rsvd := fun _ p => anySet p 3 1 || anySet p 18 6 || arg p 2 1 / 16 != 0
  perms := permSnap
  check := fun s u _ p =>
    let dest := arg p 2 1 % 16
    firstBad [
      (arg p 0 1 ≥ genCount u, badParam 0x102),
      (arg p 1 1 > 1, badParam 0x103),
      (dest = 0 ∨ dest.testBit 2 ∧ (u = .htu ∨ arg p 0 1 > 3), badParam 0x100),
      (arg p 1 1 = 1 ∧ arg p 24 8 < 1000, badParam 0x101),
      (s.rd u (Reg.TIM_PULSE_STATE (arg p 0 1)) ≠ genIdle, { status := stBusy })]
  late := fun s u _ p => firstBad [
    (!s.timev u, { status := stTimeInvalid }),
    (arg p 8 8 * 65536 + arg p 16 2 < s.ns16 u + 100 * 65536 ∨ s.past u (arg p 8 8), { status := stDeadline })]
  run := fun u m p =>
    let g := arg p 0 1
    let one := arg p 1 1 == 0
    let gen : Gen := { start := arg p 8 8, frac := arg p 16 2, fired := 0, part := p.part, role := p.roleN, mbx := m, tag := some p.tag }
    .seq [
      .wr u (Reg.TIM_PULSE_STATE g) (if one then genOneShot else genPeriodic),
      .wr u (Reg.TIM_PULSE_MODE g) (arg p 1 1), .wr u (Reg.TIM_PULSE_DEST g) (arg p 2 1 % 16),
      .wr u (Reg.TIM_PULSE_COUNT g) (if one then 1 else arg p 4 4),
      .wr u (Reg.TIM_PULSE_NEXT g) (arg p 8 8), .wr u (Reg.TIM_PULSE_PERIOD g) (if one then 0 else arg p 24 8),
      .dev u fun d => { d with gens := Sparse.put d.gens g gen },
      .armSnap u g]

/-- PULSE_CANCEL (R159): a firing whose tick has come happens first. -/
def opPulseCancel : Op where
  code := 0x22
  plen := (· == 8)
  rsvd := fun _ p => anySet p 1 7
  perms := permSnap
  check := fun _ u _ p => firstBad [(arg p 0 1 ≥ genCount u, badParam 0x100)]
  run := fun u m p => .get fun s =>
    let g := arg p 0 1
    match Sparse.find (s.dev u).gens g with
    | none => .reply u m p.tag { status := stOk }
    | some gen =>
      let due := s.genDue u g gen
      .seq [
        .cond due (.pulseFiring u g),
        .get fun s => .opt (Sparse.find (s.dev u).gens g) fun gen => .both
          (.answer u (gen.tag.map (gen.mbx, ·)) { status := stAborted }) (.idleGen u g),
        .reply u m p.tag { status := stOk, result := due.toNat }]

end Sys2Proof.Machine
end

