-- ==== Sys2Proof/Machine/Ingress.lean ====
section
/-! DEFINITION. Records that reach the VTA (R390, R394 to R396), the depth of the queues (R391), and the reading of retained and
archived streams (R397, R398). -/

namespace Sys2Proof.Machine

-- policing

/-- The scheduler service that a record received at the VTA belongs to, by its type and producer (R446). -/
def serviceOf (r : Rec) : Nat :=
  if r.typ = 0x80 then 2
  else if r.typ = 0x81 ∨ r.typ = 0x82 then 3
  else if r.typ = 0x30 then 1
  else if r.unit = 1 ∨ r.unit = 12 then 5
  else 0

/-- The colours of RFC 2698. -/
def green : Nat := 0
def yellow : Nat := 1
def red : Nat := 2

/-- The marker of RFC 2698 with the buckets of a partition (R390): what is missing from the committed and the peak bucket in 1/1,250
byte, after the fill since the last record; then the colour of a record of `n` bytes with pre-colour `pre`. -/
def State.meter (s : State) (p n pre : Nat) : Nat × Nat × Nat :=
  let dt := s.v.ticks - Sparse.get 0 s.vx.polT p
  let missC := Sparse.get 0 s.vx.polC p - s.rd .vta (Reg.SCH_POL_CIR p) * dt
  let missP := Sparse.get 0 s.vx.polP p - s.rd .vta (Reg.SCH_POL_PIR p) * dt
  let capC := s.rd .vta (Reg.SCH_POL_CBS p) * 1024 * 1250
  let capP := s.rd .vta (Reg.SCH_POL_PBS p) * 1024 * 1250
  let need := n * 1250
  if capP < missP + need then (red, missC, missP)
  else if (s.on .vta (Reg.SCH_POL_AWARE p) ∧ pre = yellow) ∨ capC < missC + need then (yellow, missC, missP + need)
  else (green, missC + need, missP + need)

/-- SCH_INGRESS.OCC: occupancy of the record ingress buffer in percent. -/
def State.ingressOcc (s : State) : Nat := 100 * (s.v.bulkBytes + s.vx.heldBytes) / txLimit .vta

-- ordering

/-- The sequence after a record: a LOSS record advances it past its range (R386). -/
def seqAfter (r : Rec) : Nat := if r.typ = 1 ∧ r.loss then (fieldAt r.payload 4 4 + 1) % 2 ^ 32 else (r.seq + 1) % 2 ^ 32

/-- A record reaches its consumers: the gather engine, the archive, and an uplink. -/
def Prog.consume (r : Rec) : Prog := .get fun s => .seq [
  .gatherRec r, .archive r,
  .dev .vta fun d => { d with bulk := d.bulk ++ [{ part := r.part, svc := serviceOf r, vc := vcOf (serviceOf r), at' := s.ns .vta, r }] },
  .uplink]

/-- The ingress context of a stream. -/
def State.ingressOf (s : State) (die unit stream : Nat) : Option Ingress :=
  s.vx.ingress.find? fun g => g.die == die && g.unit == unit && g.stream == stream

/-- An ingress context changes. -/
def Prog.modIngress (g : Ingress) : Prog := .vta fun x => { x with
  ingress := (x.ingress.filter fun h => !(h.die == g.die && h.unit == g.unit && h.stream == g.stream)) ++ [g] }

/-- Records that follow sequence `n` without a gap, then those that still wait. -/
def inSequence : Nat → Nat → List Rec → List Rec × Nat × List Rec
  | 0, n, l => ([], n, l)
  | k + 1, n, l =>
    match l.find? (·.seq == n) with
    | none => ([], n, l)
    | some r => let t := inSequence k (seqAfter r) (l.filter (·.seq != n)); (r :: t.1, t.2)

/-- Delivery goes on from sequence `n` (R394). -/
def Prog.deliverFrom (g : Ingress) (n : Nat) : Prog :=
  let t := inSequence g.held.length n g.held
  .both (.modIngress { g with next := some t.2.1, held := t.2.2 }) (.each t.1 .consume)

/-- The lowest sequence among the records held. -/
def Ingress.lowest (g : Ingress) : Option Rec :=
  match g.held with
  | [] => none
  | r :: rs => some (rs.foldl (fun a b => if serialGt 32 a.seq b.seq then b else a) r)

/-- The context that a stream's first record opens (R394). -/
def Ingress.start (r : Rec) : Ingress :=
  { die := r.die, unit := r.side, stream := r.stream, part := r.part, ord := r.ord, next := none, held := if r.ord then [r] else [] }

/-- A record of an ORD stream (R394): in sequence it is delivered with what follows it, ahead it is held, behind it is discarded. Sequence 0
behind, where no LOSS record covered it, is the first record of a stream armed anew (R386). -/
def Prog.ordRecord (r : Rec) : Prog := .get fun s =>
  match s.ingressOf r.die r.side r.stream with
  | none => .modIngress (.start r)
  | some g =>
    if !g.ord then .modIngress (.start r) else
    match g.next with
    | none => .modIngress { g with held := g.held ++ [r] }
    | some n =>
      if serialGt 32 n r.seq then
        .cond (r.seq == 0 && !g.zeroLost) (.both (.each g.held .consume) (.modIngress (.start r)))
      else if r.seq = n % 2 ^ 32 then .deliverFrom { g with held := g.held ++ [r] } n
      else .modIngress { g with held := g.held ++ [r] }

/-- A record of a stream without ORD is consumed as it arrives (R394); the highest sequence is kept for the stream's end (R396). -/
def Prog.plainRecord (r : Rec) : Prog := .get fun s =>
  let g := (s.ingressOf r.die r.side r.stream).getD (.start r)
  let n := seqAfter r
  .both (.modIngress { g with ord := false, next := some (match g.next with
      | some m => if serialGt 32 m n then m else n
      | none => n) })
    (.consume r)

/-- The connection of a die began at PKT 0 in the VTA's view (R382, R394). -/
def State.fromZero (s : State) (die : Nat) : Bool :=
  die / 64 == Config.vtaAddr.toNat && ((Sparse.find s.v.conns (die % 64)).map (·.fromZero)).getD false

/-- GAP_WAIT_US has passed over a gap (R394): a LOSS record of cause LINK covers it, and delivery goes on. -/
def Prog.gapWait (die unit stream : Nat) : Prog := .get fun s =>
  .opt (s.ingressOf die unit stream) fun g => .opt g.lowest fun r =>
    let from' := match g.next with
      | some n => some n
      | none => if s.fromZero die then some 0 else none
    .both (match from' with
      | some n => .cond (n != r.seq) (.consume
          (s.vtaLoss die r.part stream n ((r.seq + 2 ^ 32 - 1) % 2 ^ 32) (serialDiff 32 r.seq n) lossLink true))
      | none => .skip)
      (.deliverFrom { g with zeroLost := g.zeroLost || (match from' with
        | some n => decide (serialDiff 32 0 n < serialDiff 32 r.seq n)
        | none => false) } r.seq)

/-- A die was reset: each of its streams ends with a LOSS record of cause RESET, its end unknown (R396). -/
def Prog.endStreams (die : Nat) : Prog := .get fun s =>
  .each (s.vx.ingress.filter (·.die == die)) fun g =>
    let l := g.held.mergeSort fun a b => !serialGt 32 a.seq b.seq
    let first := ((l.getLast?.map seqAfter).orElse fun _ => g.next).getD 0
    .seq [.each l .consume,
      .consume (s.vtaLoss die g.part g.stream first first 0 lossReset g.ord),
      .vta fun x => { x with ingress := x.ingress.filter fun h => !(h.die == die && h.unit == g.unit && h.stream == g.stream) }]

/-- The row RECORD_INGRESS (R390, R394): a record on VC4 or VC5 is metered, accepted or dropped under a LOSS record, and ordered. -/
def Prog.recordIngress (colour : Nat) (r : Rec) : Prog := .get fun s =>
  let p := r.part
  let open' := (s.rd .vta (Reg.SCH_POL_CIR p) == 0 && s.rd .vta (Reg.SCH_POL_PIR p) == 0) || (p == 0 && serviceOf r == 0)
  let m := s.meter p r.size colour
  let drop := !open' && (m.1 == red || m.1 == yellow && s.ingressOcc ≥ s.rd .vta Reg.SCH_INGRESS_YELLOW_DROP)
  let order (x : Rec) : Prog := if r.ord then .ordRecord x else .plainRecord x
  .seq [
    .cond (!open') (.vta fun x => { x with
      polC := Sparse.put x.polC p m.2.1, polP := Sparse.put x.polP p m.2.2, polT := Sparse.put x.polT p s.v.ticks }),
    if drop then .both
      (if m.1 = red then .bump .vta (Reg.SCH_POL_RED_DROPPED p) else .bump .vta (Reg.SCH_POL_YELLOW_DROPPED p))
      (order (s.vtaLoss r.die p r.stream r.seq r.seq 1 lossPolice r.ord))
    else order r]

/-- A flit, message or record came on a Furrow port with a reserved field that is not zero: it counts once in the port's CRC_ERR, the
error counter of the block that received it (R8; log entry 118). -/
def Prog.rsvdPort (u : UnitId) (k : Nat) (bad : Bool) : Prog := .cond bad (.bump u (Reg.FUR_PORT_CRC_ERR k))

/-- A VC2 message came with a reserved field that is not zero (R8; log entry 118): on the HTU by its connection's path; on the VTA by the
Furrow port of that number, or by Ethernet (`none`), where mailbox 9's RSVD counts it. -/
def Prog.rsvdFrom (u : UnitId) (port : Option Nat) (bad : Bool) : Prog :=
  match u, port with
  | .htu, _ => .get fun s => .rsvdPort .htu ((Sparse.get {} s.h.conns 0).path.getD 0) bad
  | .vta, some k => .rsvdPort .vta k bad
  | .vta, none => .cond bad (.mbxErr .vta 9 (Reg.MBX_ERR2_RSVD 9))

/-- The Furrow port that an input of a merge point is: the tray's inputs are ports. -/
def inputPort (l : Level) (input : Nat) : Option Nat := match l with | .tray => some input | _ => none

-- queue depths

/-- A queue's depth in bytes and the age of its head in ns (R391). -/
def State.queueDepth (s : State) (u : UnitId) (p svc : Nat) : Nat × Nat :=
  let l := (s.dev u).bulk.filter fun q => q.part == p && q.svc == svc
  let sent := (s.dev u).conns.flatMap fun c => c.2.tx.filter fun k => k.queue == some (8 * p + svc)
  ((l.map fun q => q.r.size).sum + (sent.map fun k => k.bytes.length).sum, (l.head?.map fun q => s.ns u - q.at').getD 0)

/-- The row QUEUE_SAMPLE (R219, R391). -/
def Prog.sampleQueues (u : UnitId) : Prog := .both (.queueSample u) <|
  .each (List.range 256) fun p => .each (List.range 6) fun q => .get fun s =>
    let d := s.queueDepth u p q
    .cond (d.1 != 0 || s.rd u (Reg.SCH_Q_DEPTH p q) != 0) <| .seq [
      .wr u (Reg.SCH_Q_DEPTH p q) (min d.1 (2 ^ 24 - 1)),
      .wr u (Reg.SCH_Q_DEPTH_MAX p q) (max (s.rd u (Reg.SCH_Q_DEPTH_MAX p q)) (min d.1 (2 ^ 24 - 1))),
      .wr u (Reg.SCH_Q_DELAY_MAX_NS p q) (max (s.rd u (Reg.SCH_Q_DELAY_MAX_NS p q)) (min d.2 (2 ^ 32 - 1)))]

-- stream readout

/-- The records of a stream that a unit keeps for a partition: its retention ring, or the partition's archive ring (R397). -/
def State.kept (s : State) (u : UnitId) (part sid : Nat) : List Rec :=
  match u with
  | .htu => s.h.retain.filter fun r => r.stream == sid && r.part == part
  | .vta =>
    let l := (s.vx.arch.filter fun a => a.part == part && a.stream == sid).flatMap (·.recs)
    let who := (l.map fun r => (r.die, r.side)).eraseDups
    who.flatMap fun w => l.filter fun r => (r.die, r.side) == w

/-- The stream has retention (R397). -/
def State.retains (s : State) (u : UnitId) (part sid : Nat) : Bool :=
  match u with
  | .htu => ((Sparse.find s.h.streams sid).map (·.retain)).getD false || (s.kept .htu part sid) != []
  | .vta => s.on .vta (Reg.TRC_ARCH_PART_VALID part)

/-- Records in sequence from `from'` (none: the oldest), a LOSS record standing in every gap (R396, R397). -/
def withGaps (lost : Rec → Nat → Rec) : Option Nat → List Rec → List Rec
  | _, [] => []
  | none, r :: rs => r :: withGaps lost (some (seqAfter r)) rs
  | some n, r :: rs =>
    (if serialGt 32 r.seq n then [lost r n] else []) ++ r :: withGaps lost (some (seqAfter r)) rs

/-- The whole records that fit in `room` bytes; a record longer than an empty reply is cut. The reply's bytes, the records begun, and
the remainder of the last one. -/
def fillReply : Nat → List (List Byte) → List Byte × Nat × List Byte
  | _, [] => ([], 0, [])
  | room, b :: bs =>
    if b.length ≤ room then let t := fillReply (room - b.length) bs; (b ++ t.1, t.2.1 + 1, t.2.2)
    else ([], 0, [])

/-- READ_STREAM's bytes and RESULT (R397), and the remainder that its next reading returns first. -/
def State.readStream (s : State) (u : UnitId) (p : Packet) : List Byte × Nat × List Byte :=
  let sid := arg p 0 2
  let max' := arg p 8 4
  let key := 65536 * p.part + sid
  let left := Sparse.get [] (s.dev u).remains key
  let oldest := (arg p 2 1).testBit 0
  let acked := Sparse.find (s.dev u).acks key
  let after (r : Rec) : Bool := match acked with
    | some a => serialGt 32 r.seq a
    | none => true
  let l := (s.kept u p.part sid).filter fun r => after r && (oldest || serialGe 32 r.seq (arg p 4 4))
  let cause := match u with
    | .htu => lossOverwrite
    | .vta => if s.on .vta (Reg.TRC_ARCH_PART_MODE p.part) then lossArchive else lossOverwrite
  let lost (r : Rec) (n : Nat) : Rec :=
    { r with typ := 1, loss := true, sig := false, unit := if u = .vta then 0xF else r.unit, seq := n
             payload := lossPayload n ((r.seq + 2 ^ 32 - 1) % 2 ^ 32) (serialDiff 32 r.seq n) cause }
  let start := if oldest then none else some (match acked with
    | some a => if serialGe 32 a (arg p 4 4) then (a + 1) % 2 ^ 32 else arg p 4 4
    | none => arg p 4 4)
  let recs := (withGaps lost start l).map Rec.bytes
  if left ≠ [] then
    if left.length > max' then (left.take max', 2 ^ 31, left.drop max')
    else let t := fillReply (max' - left.length) recs; (left ++ t.1, t.2.1, [])
  else match recs with
    | b :: _ => if b.length > max' then (b.take max', 1 + 2 ^ 31, b.drop max')
        else let t := fillReply max' recs; (t.1, t.2.1, [])
    | [] => ([], 0, [])

/-- A stream of another partition is refused. -/
def State.foreignStream (s : State) (u : UnitId) (part sid : Nat) : Bool :=
  match Sparse.find (s.dev u).streams sid with
  | some st => u == .htu && st.part != part
  | none => false

/-- READ_STREAM (R397). -/
def opReadStream : Op where
  code := 0x14
  v1 := true
  classes := [1]
  plen := (· == 16)
  rsvd := fun _ p => anySet p 3 1 || anySet p 12 4 || arg p 2 1 / 2 != 0
  perms := permConfig
  check := fun s u _ p => firstBad [
    (s.foreignStream u p.part (arg p 0 2), { status := stDenied }),
    (!s.retains u p.part (arg p 0 2), badParam 0x100),
    (arg p 8 4 % 8 ≠ 0 ∨ arg p 8 4 > 4096, badParam 0x100)]
  data := fun p => arg p 8 4
  run := fun u m p => .get fun s =>
    let t := s.readStream u p
    .both (.dev u fun d => { d with remains := Sparse.set [] d.remains (65536 * p.part + arg p 0 2) t.2.2 })
      (.reply u m p.tag { status := stOk, data := t.1, result := t.2.1 })

/-- ACK_STREAM (R398): the records up to SEQ are released. What RESULT holds when it releases is not stated. -/
def opAckStream : Op where
  code := 0x15
  v1 := true
  classes := [1]
  plen := (· == 8)
  rsvd := fun _ p => anySet p 2 2
  perms := permConfig
  check := fun s u _ p => firstBad [
    (s.foreignStream u p.part (arg p 0 2), { status := stDenied }),
    (!s.retains u p.part (arg p 0 2), badParam 0x100)]
  run := fun u m p => .get fun s =>
    let sid := arg p 0 2
    let key := 65536 * p.part + sid
    let seq := arg p 4 4
    let gone (r : Rec) : Bool := r.stream == sid && r.part == p.part && serialGe 32 seq r.seq
    let old := match Sparse.find (s.dev u).acks key with
      | some a => !serialGt 32 seq a
      | none => false
    if old then .reply u m p.tag { status := stOk } else .seq [
      .dev u fun d => { d with acks := Sparse.put d.acks key seq },
      match u with
      | .htu => .dev .htu fun d => { d with retain := d.retain.filter fun r => !gone r }
      | .vta => .vta fun x => { x with arch :=
          (x.arch.map fun a => { a with recs := a.recs.filter fun r => !gone r }).filter fun a => a.recs != [] },
      .free fun v => .reply u m p.tag { status := stOk, result := v % 2 ^ 32 }]

end Sys2Proof.Machine
end

