-- ==== Sys2Proof/Machine/Spdm.lean ====
section
/-! DEFINITION. The SPDM requester towards a peer (R111, R114): an HTU towards its VTA, a VTA towards each of its HTUs and each unit
below. The contents of the messages are free values of the SPDM standard. -/

namespace Sys2Proof.Machine

/-- Length of the requester's sequence (R111, R114): GET_VERSION, GET_CAPABILITIES, NEGOTIATE_ALGORITHMS, GET_DIGESTS, GET_CERTIFICATE and
CHALLENGE towards a Furrow peer; towards a unit below the first five, KEY_EXCHANGE with mutual authentication, GET_ENCAPSULATED_REQUEST,
DELIVER_ENCAPSULATED_RESPONSE with the digests and with the chain, and FINISH. -/
def spdmLast (c : Nat) : Nat := if c < 64 then 6 else 10

/-- A response leaves the requester at the same step (R111, R112): a CERTIFICATE portion with a remainder asks for the next one, and an
acknowledgement that carries another request asks for more of the requester's own chain. -/
def spdmMore (c step : Nat) (bytes : List Byte) : Bool :=
  (step == 4 && fieldAt bytes 6 2 != 0) || (64 ≤ c && step == 8 && fieldAt bytes 3 1 != 0)

/-- The requester's progress with a peer: message, resends, number. -/
def State.spdmAt (s : State) (u : UnitId) (c : Nat) : Option (Nat × Nat × Nat) := Sparse.find (s.dev u).spdm c

/-- The requester sends its message of this step again. -/
def Prog.spdmAgain (u : UnitId) (c step n : Nat) : Prog :=
  if c < 64 then .forward u c 0x80 (peerCmd 0 (Config.spdmRequest u n step)) none
  else .send u (.spdm c (Config.spdmRequest u n step))

/-- The requester goes to a step of its sequence and sends that message. -/
def Prog.spdmGo (u : UnitId) (c step : Nat) : Prog := .get fun s =>
  let n := (s.dev u).spdmNo
  .both (.dev u fun d => { d with spdmNo := n + 1, spdm := Sparse.put d.spdm c (step, 0, n) }) (.spdmAgain u c step n)

/-- A response reaches the requester: the sequence advances, or is abandoned where the response is not accepted; when it is complete, the
HTU's mailbox 2 opens. -/
def Prog.spdmRx (u : UnitId) (c : Nat) (ok : Bool) (bytes : List Byte) : Prog := .get fun s =>
  .opt (s.spdmAt u c) fun (step, _, n) => .cond (step < spdmLast c) <|
    if ok && Config.spdmAccepts u n bytes then
      if spdmMore c step bytes then .spdmGo u c step
      else if step + 1 = spdmLast c then .both
        (.dev u fun d => { d with spdm := Sparse.put d.spdm c (step + 1, 0, n) })
        (.cond (u == .htu) (.both (.wr .htu (Reg.MBX_STATUS_OPEN 2) 1) (.wr .htu (Reg.MBX_NEXT_SEQ_SEQ 2) 0)))
      else .spdmGo u c (step + 1)
    else .dev u fun d => { d with spdm := Sparse.put d.spdm c (0, 4, n) }

/-- The row SPDM_RETRY_TIMEOUT (R114): no response for 10 ms resends the request, at most three times; then the exchange is abandoned,
and 100 ms later it starts again from GET_VERSION. A requester with no exchange under way towards a unit below starts one. -/
def Prog.spdmTimeout (u : UnitId) (c : Nat) : Prog := .get fun s =>
  match s.spdmAt u c with
  | none => .cond (u == .vta && 64 ≤ c) (.spdmGo u c 0)
  | some (step, tries, n) => .cond (step < spdmLast c) <|
    if tries < 3 then .both (.dev u fun d => { d with spdm := Sparse.put d.spdm c (step, tries + 1, n) }) (.spdmAgain u c step n)
    else if tries = 3 then .dev u fun d => { d with spdm := Sparse.put d.spdm c (0, 4, n) }
    else .spdmGo u c 0

end Sys2Proof.Machine
end

