-- ==== Sys2Proof/Machine/Furrow.lean ====
section
/-! DEFINITION. The Furrow link: flits, sequences and retry (R375 to R380), credits (R377), paths and connections (R25, R26, R374, R381,
R382, R396), training and sensing (R372, R373, R437), the bulk scheduler and its time gate (R388, R389), and PORT_HOTPLUG (R399). -/

namespace Sys2Proof.Machine

-- FUR_PORT.STATE of R400
def portDisabled : Nat := 0
def portDown : Nat := 1
def portTraining : Nat := 2
def portUp : Nat := 3
def portRetrain : Nat := 4

-- flit KIND of R376
def kindIdle : Nat := 0
def kindData : Nat := 1
def kindControl : Nat := 2

/-- Payload bytes of a flit (R376). -/
def flitPayload : Nat := 236

/-- A flit (R376). -/
structure Flit where
  kind : Nat
  vc : Nat := 0
  first' : Bool := false
  last' : Bool := false
  fwd : Bool := false
  colour : Nat := 0
  fseq : Nat := 0
  ack : Nat := 0
  nak : Bool := false
  ackValid : Bool := false
  cvc : Nat := 0
  cvalid : Bool := false
  ccount : Nat := 0
  pkt : Nat := 0
  die : Nat := 0
  payload : List Byte := []
  rsvd : Bool := false
deriving DecidableEq, Repr

/-- A flit as its 256 bytes (R376). -/
def Flit.bytes (f : Flit) : List Byte :=
  let b := le 1 (f.kind + 4 * f.vc + 32 * f.first'.toNat + 64 * f.last'.toNat + 128 * f.fwd.toNat) ++ le 1 f.colour ++ le 2 f.fseq
    ++ le 2 (f.ack + 16384 * f.nak.toNat + 32768 * f.ackValid.toNat) ++ le 2 (f.cvc + 8 * f.cvalid.toNat + 16 * f.ccount)
    ++ le 4 f.pkt ++ le 4 (f.die % 2 ^ 17) ++ fit flitPayload f.payload
  b ++ le 4 (crc32 b)

/-- A flit read from its bytes; `none` where the CRC-32 is bad. A reserved bit that is not zero is remembered (R8). -/
def Flit.ofBytes (b : List Byte) : Option Flit :=
  if b.length ≠ 256 ∨ crc32 (b.take 252) ≠ fieldAt b 252 4 then none else
  let h := fieldAt b 0 1
  let a := fieldAt b 4 2
  let c := fieldAt b 6 2
  some { kind := h % 4, vc := h / 4 % 8, first' := h.testBit 5, last' := h.testBit 6, fwd := h.testBit 7, colour := fieldAt b 1 1 % 4
         fseq := fieldAt b 2 2 % 4096, ack := a % 4096, nak := a.testBit 14, ackValid := a.testBit 15, cvc := c % 8, cvalid := c.testBit 3
         ccount := c / 16, pkt := fieldAt b 8 4, die := fieldAt b 12 4 % 2 ^ 17, payload := cut b 16 flitPayload
         rsvd := fieldAt b 1 1 / 4 != 0 || fieldAt b 2 2 / 4096 != 0 || a / 4096 % 4 != 0 || fieldAt b 12 4 / 2 ^ 17 != 0 }

-- connections

/-- A connection: 0 on the HTU, the die's own port number on the VTA (R24, R381). -/
def State.conn (s : State) (u : UnitId) (c : Nat) : Conn := Sparse.get {} (s.dev u).conns c

/-- A connection changes. -/
def Prog.modConn (u : UnitId) (c : Nat) (f : Conn → Conn) : Prog :=
  .dev u fun d => { d with conns := Sparse.mod {} d.conns c f }

/-- The die ID that names a connection (R381): the HTU's own; on the VTA row, rack, tray and port (R21, R24). -/
def State.connDie (s : State) (u : UnitId) (c : Nat) : Nat :=
  match u with
  | .htu => s.dieId .htu % 2 ^ 17
  | .vta => s.dieId .vta + c

/-- The partner's port of a die's own port on the VTA (R25). -/
def partnerPort (k : Nat) : Nat := if k % 2 = 0 then k + 1 else k - 1

/-- The connections whose path is a port. -/
def State.connsOn (s : State) (u : UnitId) (k : Nat) : List (Nat × Conn) :=
  (s.dev u).conns.filter fun e => e.2.path == some k

/-- A port carries traffic: UP, and not being removed by its peer (R399). -/
def State.usable (s : State) (u : UnitId) (k : Nat) : Bool := s.rd u (Reg.FUR_PORT_STATE k) == portUp && !(s.port u k).byed

/-- The direct and the other port of a connection (R381). -/
def connPorts : UnitId → Nat → Nat × Nat
  | .htu, _ => (0, 1)
  | .vta, c => (c, partnerPort c)

/-- The partner's port A is UP, as far as the HTU's port B needs it (R381). The manual names no carrier that tells the HTU so: a free value
(log entry 119). -/
def State.partnerUp (s : State) : Bool := Config.freeNat s.free % 2 == 1

/-- A port serves as a path (R26, R381): it is usable, and the HTU's port B only while the partner's port A is UP too. -/
def State.pathUsable (s : State) (u : UnitId) (k : Nat) : Bool := s.usable u k && (u == .vta || k == 0 || s.partnerUp)

/-- The path that a connection takes now (R25, R26, R381): its direct port if usable, else the other. -/
def State.bestPath (s : State) (u : UnitId) (c : Nat) : Option Nat :=
  let p := connPorts u c
  if s.pathUsable u p.1 then some p.1 else if s.pathUsable u p.2 then some p.2 else none

/-- The CONN message of a connection (R380). -/
def State.connBody (s : State) (u : UnitId) : List Byte := le 1 4 ++ zeros 3 ++ le 4 (s.dev u).connNo.toNat

/-- A connection moves to its best path (R374, R380 to R382): packets not fully acknowledged are resent whole in their order, packets
held in part are rewound, the credit counts restart, and CONN goes first. A START_AT that the VTA holds and the link has acknowledged is sent
again (R314). With no path on the VTA the die is lost (R26, R211). -/
def Prog.repath (u : UnitId) (c : Nat) : Prog := .get fun s =>
  let k := s.conn u c
  let new := s.bestPath u c
  let fwd := new == some (connPorts u c).2
  .both (.cond (u == .htu && !s.usable .htu 0 && s.usable .htu 1) .draw) <| .cond (new != k.path) <| .seq [
    .opt k.path fun q => .bumpBy u (Reg.FUR_PORT_REWOUND q) k.rx.length,
    .modConn u c fun k => { k with
      path := new, fwd := fwd, tx := k.tx.map (fun t => { t with sent := 0, last := none }), rx := [], rxPkt := [], credit := [], owed := [] },
    .cond (u == .vta) (.wr .vta (Reg.FUR_PORT_FWD (partnerPort c)) fwd.toNat),
    .opt new fun q => .control u q (s.connBody u) (s.connDie u c) (u == .vta && fwd),
    .cond (u == .vta && new.isSome && !((k.path.map (s.usable u)).getD false)) <| .each (k.fwds.filter fun f =>
        f.opcode == 0x53 && !k.tx.any fun t => t.bytes == packetBytes f.opcode f.packet) fun f => .both
      (.modConn u c fun k => { k with fwds := k.fwds.filter (·.tag != f.tag) }) (.forward u c 0x53 f.packet none),
    .cond (u == .vta && new.isNone) (.inputGone .tray c 2)]

-- replies to forwarded commands

/-- A command that this unit forwarded to a peer ends with a final reply (R205, R314, R340, R304, R378). -/
def Prog.fwdDone (u : UnitId) (f : Fwd) (a : Ans) : Prog :=
  let ok := a.status == stOk
  .seq [
    .cond (f.opcode == 0x12 && !ok) (.vta fun x => { x with badEpochs := x.badEpochs ++ [epochOf (arg f.packet 0 8)] }),
    .cond (f.opcode == 0x51) (.moveReply f.peer ok a.result),
    .cond (f.opcode == 0x53) (.startReplied (64 + f.peer) ok),
    .cond (f.opcode == 0x91 && ok) (.probReplied f.peer a.result),
    .cond (f.opcode == 0x80 && f.cmd.isNone) (.spdmRx u f.peer ok a.data),
    .answer u f.cmd a]

/-- Every command outstanding towards a peer completes with ABORTED (R374, R396). -/
def Prog.abortFwds (u : UnitId) (c : Nat) : Prog := .get fun s =>
  .both (.modConn u c fun k => { k with fwds := [] })
    (.each (s.conn u c).fwds fun f => .fwdDone u f { status := stAborted })

/-- A reply on VC1 (R378): the final reply of a forwarded command completes it. -/
def Prog.vc1Reply (u : UnitId) (c : Nat) (r : ReplyMsg) : Prog := .get fun s =>
  .opt ((s.conn u c).fwds.find? fun f => f.tag == r.tag && r.status.toNat != stAccepted) fun f => .both
    (.modConn u c fun k => { k with fwds := k.fwds.filter (·.tag != r.tag) })
    (.fwdDone u f { status := r.status.toNat, detail := r.detail.toNat, result := r.result.toNat, data := r.data })

/-- A mailbox fed by authenticated peers closes, and the authentication is repeated (R114). -/
def Prog.mbxReauth (u : UnitId) (m : Nat) : Prog := .seq [
  .modMb u m fun b => { b with keyEx := false, bound := false }, .wr u (Reg.MBX_STATUS_OPEN m) 0,
  .cond (u == .htu) (.dev .htu fun d => { d with spdm := [] })]

/-- The peer's connection number is learnt (R374): a change means that the peer was reset; an HTU's mailbox 2 is
authenticated anew (R78, R114). -/
def Prog.learnConn (u : UnitId) (c : Nat) (number : BitVec 32) : Prog := .get fun s =>
  let k := s.conn u c
  .both (.cond (k.peerNo.isSome && k.peerNo != some number) <| .seq [
      .opt k.path fun q => .bumpBy u (Reg.FUR_PORT_REWOUND q) k.rx.length,
      .modConn u c fun k => { k with
        tx := [], rx := [], rxPkt := [], pktTx := 0, pktHi := none, pktMap := 0, credit := [], owed := [], fromZero := false, seqOut := 0 },
      .abortFwds u c,
      .cond (u == .htu) (.both (.mbxReauth .htu 2) (.wr .htu (Reg.MBX_NEXT_SEQ_SEQ 2) 0)),
      .cond (u == .vta) (.both (.inputGone .tray c 3) (.endStreams (s.connDie .vta c)))])
    (.modConn u c fun k => { k with peerNo := some number, die := s.connDie u c })

/-- The row NO_PATH_TIMEOUT (R26, R396): the paths are looked at again, and with none the commands under way are aborted. -/
def Prog.noPath (u : UnitId) (c : Nat) : Prog := .both (.cond (u == .htu) (.repath u c)) <| .get fun s =>
  .cond ((s.conn u c).path.isNone) (.abortFwds u c)

/-- The connections of a unit that a port can carry. -/
def portConns (u : UnitId) (k : Nat) : List Nat :=
  match u with
  | .htu => [0]
  | .vta => [k, partnerPort k]

/-- The connections that a port can carry take their best paths; the VTA knows one once its peer has been heard. -/
def Prog.repathAll (u : UnitId) (k : Nat) : Prog := .get fun s =>
  .each ((portConns u k).filter fun c => u == .htu || (s.conn u c).peerNo.isSome) (.repath u)

-- ports

/-- A port leaves UP: its link state is lost, and its connections move (R375, R381, R384). -/
def Prog.portLeaves (u : UnitId) (k st : Nat) : Prog := .seq [
  .wr u (Reg.FUR_PORT_STATE k) st,
  .modPort u k fun p => { refused := p.refused, add := p.add },
  .repathAll u k]

/-- The row FORWARDED_CLOCK_LOSS (R153, R375): the port goes DOWN; on the HTU the loss of the active time port is a source loss. -/
def Prog.clockLoss (u : UnitId) (k : Nat) : Prog := .get fun s => .both
  (.cond ([portTraining, portUp, portRetrain].contains (s.rd u (Reg.FUR_PORT_STATE k))) (.portLeaves u k portDown))
  (.cond (u == .htu) (if s.timePort .htu = some k then .timeSourceLost .htu else .wr .htu (pllRdy .htu k) 0))

/-- One flit is retried 16 times in a row: the port goes to RETRAIN, with a planned switch of the time source where it is the active time
port (R114, R150, R375). -/
def Prog.retrain (u : UnitId) (k : Nat) : Prog := .get fun s => .seq [
  .bump u (Reg.FUR_PORT_RETRAINS k),
  .cond (s.timePort u == some k) (.planSwitch u (s.otherPort u)),
  .portLeaves u k portRetrain, .cond (u == .htu) (.mbxReauth .htu 2)]

/-- The flits not acknowledged are to be sent again (R379). -/
def Prog.resend (u : UnitId) (k : Nat) : Prog := .get fun s =>
  let p := s.port u k
  .cond (p.retry != []) <| .seq [
    .bump u (Reg.FUR_PORT_RETRIES k),
    .cond (u == .htu) (.count .htu (Reg.TAP_DIE_CNT_COUNT 10)),
    .modPort u k fun p => { p with resend := p.retry, retries := p.retries + 1 },
    .cond (p.retries + 1 ≥ 16) (.retrain u k)]

/-- The row RETRY_TIMEOUT (R379). -/
def Prog.retryTimeout (u : UnitId) (k : Nat) : Prog := .get fun s =>
  .cond (s.rd u (Reg.FUR_PORT_STATE k) == portUp) (.resend u k)

/-- The PART expected of the peer of a port (R373). -/
def peerPart : UnitId → Nat → Nat
  | .htu, 0 => 0x764
  | _, _ => 0x4A2

/-- The asymmetry that training measures (R139, R373). -/
def measField : UnitId → Nat → Fld
  | .htu, 0 => Reg.TIM_ASYM_A_MEAS
  | .htu, _ => Reg.TIM_ASYM_B_MEAS
  | .vta, k => Reg.TIM_ASYM_MEAS k

/-- A port comes UP (R373, R374, R380). -/
def Prog.portIsUp (u : UnitId) (k : Nat) (t : TrainRun) : Prog := .get fun s => .seq [
  .wr u (Reg.FUR_PORT_LANE_FAIL k) 0, .wr u (Reg.FUR_PORT_STATE k) portUp, .wr u (Reg.FUR_PORT_UP_NS k) (s.ns u),
  .wr u (measField u k) t.meas.toNat,
  .modPort u k fun _ => {},
  .cond (u == .vta || k == 0) (.learnConn u (match u with | .htu => 0 | .vta => k) (BitVec.ofNat 32 t.conn)),
  .repathAll u k,
  .cond (u == .vta) (.spdmGo .vta k 0),
  .opt (s.port u k).add fun c => .answer u (some c) { status := stOk }]

/-- The row TRAINING (R3, R372, R373): a port whose function runs trains with its peer and comes UP, refuses it, or stays DOWN. -/
def Prog.training (u : UnitId) (k : Nat) (t : TrainRun) : Prog := .get fun s =>
  let st := s.rd u (Reg.FUR_PORT_STATE k)
  let known := [portDown, portTraining, portRetrain].contains st && !(s.port u k).refused && (s.fn u (fidPort k)).st == .running
  .cond known <|
    if !t.peer then .wr u (Reg.FUR_PORT_STATE k) portDown
    else .both (.both (.wr u (Reg.FUR_PORT_PEER_PART k) t.part) (.wr u (Reg.FUR_PORT_PEER_GEN k) t.gen)) <|
      if t.part % 4096 ≠ peerPart u k ∨ (t.part % 4096 = 0x4A2 ∧ t.gen % 16 = 1) then .seq [
        .wr u (Reg.FUR_PORT_STATE k) portDown,
        .modPort u k fun p => { p with refused := true },
        .event u 0x0901 (le 1 k ++ zeros 1 ++ le 2 t.part ++ le 1 t.gen ++ le 1 t.step ++ zeros 2)]
      else if t.laneFail ≠ 0 then .seq [
        .wr u (Reg.FUR_PORT_STATE k) portDown, .wr u (Reg.FUR_PORT_LANE_FAIL k) t.laneFail.toNat,
        .event u 0x0902 (le 1 k ++ zeros 3 ++ le 4 t.laneFail.toNat)]
      else .portIsUp u k t

/-- The row TRAINING_RETRY (R373). -/
def Prog.trainingRetry (u : UnitId) (k : Nat) (t : TrainRun) : Prog := .get fun s =>
  .cond (s.rd u (Reg.FUR_PORT_STATE k) == portDown) (.training u k t)

/-- The row PEER_SENSE (R373, R437). -/
def Prog.peerSense (u : UnitId) (k : Nat) (found : Bool) : Prog := .get fun s =>
  .cond (s.rd u (Reg.FUR_PORT_STATE k) == portDown) <|
    if !found then .modPort u k fun p => { p with refused := false }
    else .cond (!(s.port u k).refused && (s.fn u (fidPort k)).st == .running) (.wr u (Reg.FUR_PORT_STATE k) portTraining)

/-- A CONN message (R374, R380): from the peer, directly or through the partner, of the die's connection. -/
def Prog.connRx (u : UnitId) (k die : Nat) (number : BitVec 32) : Prog :=
  let c := match u with | .htu => 0 | .vta => die % 64
  .cond (match u with | .htu => true | .vta => (portConns .vta k).contains c) (.both (.learnConn u c number) (.repath u c))

/-- A BYE: the peer is removing the port; connections move away from it (R380, R399). -/
def Prog.byeRx (u : UnitId) (k : Nat) : Prog := .both (.modPort u k fun p => { p with byed := true }) (.repathAll u k)

-- sending flits

/-- Receive space of a VC in flits (R209, R377): VC2 holds 4 STEP entries, 2 notice buffers, 4 MEMBERSHIP entries, 1 REPLAY_LOST entry,
and upward two epoch buffers of the announced partials. -/
def State.vcSpace (s : State) (u : UnitId) (vc : Nat) : Nat :=
  match vc with
  | 0 => 16
  | 1 => 8
  | 2 => 11 + (match u with
      | .htu => 2 * ((s.h.colls.filter fun e => (s.fn .htu (fidCollector e.1)).st != .stopped).map fun e =>
          (24 + laneCost .htu e.2.op e.2.sels) / flitPayload + 1).sum
      | .vta => 0)
  | 3 => 4
  | 4 => 64
  | _ => 32

/-- The sender holds a credit of a VC (R377). -/
def State.hasCredit (s : State) (u : UnitId) (k : Conn) (vc : Nat) : Bool :=
  serialDiff 12 (Sparse.get 0 k.credit vc) (Sparse.get 0 k.credit (8 + vc)) < s.vcSpace u vc

/-- One of a connection's counts advances. -/
def Conn.countUp (k : Conn) (i : Nat) : Conn := { k with credit := Sparse.put k.credit i ((Sparse.get 0 k.credit i + 1) % 4096) }

/-- The acknowledgement and the credit count that a flit on a port carries (R376): the count of one VC at a time, in turn. -/
def State.fillHeader (s : State) (u : UnitId) (k : Nat) (c : Option Nat) (f : Flit) : Flit :=
  let p := s.port u k
  let turn := s.rd u (Reg.FUR_PORT_TX_FLITS k)
  let on := s.connsOn u k
  let c := c.orElse fun _ => on[turn / 6 % max 1 on.length]?.map (·.1)
  let g := { f with ack := (p.fseqRx + 4095) % 4096, nak := p.nakOut, ackValid := true }
  match c with
  | some c => { g with cvc := turn % 6, cvalid := true, ccount := Sparse.get 0 (s.conn u c).credit (16 + turn % 6)
                       die := s.connDie u c }
  | none => g

/-- The energy of one flit of 256 bytes on an HTU port, charged to a scheduler queue as partition × 8 + service (R179). -/
def Prog.linkEnergy (u : UnitId) (q : Option Nat) : Prog := .get fun s => .cond (u == .htu) (.opt q fun q =>
  .addEnergy (Reg.TAP_EN_QUEUE_UJ (q / 8) (q % 8)) q (256 * 1000 * s.rd .htu Reg.TAP_EN_LINK_PJ_PER_BYTE))

/-- A flit of queue `q` departs from a port; DATA and CONTROL flits take the next FSEQ and stand in the retry buffer (R376, R379). -/
def Prog.depart (u : UnitId) (k : Nat) (f : Flit) (q : Option Nat := none) : Prog := .get fun s =>
  let p := s.port u k
  let g := if f.kind = kindIdle then f else { f with fseq := p.fseqTx }
  .seq [
    .send u (.flit k g.bytes),
    .count u (Reg.FUR_PORT_TX_FLITS k),
    .cond (u == .htu) (.count .htu (Reg.TAP_DIE_CNT_COUNT (8 + k))),
    .linkEnergy u q,
    .modPort u k fun p => { p with nakOut := false },
    .cond (f.kind != kindIdle) <| .modPort u k fun p => { p with
      fseqTx := (p.fseqTx + 1) % 4096, retry := p.retry ++ [(p.fseqTx, g.bytes)]
      retryQ := match q with
        | some v => p.retryQ ++ [(p.fseqTx, v)]
        | none => p.retryQ }]

/-- A time message is stamped as it departs (R138): t1 in a SYNC, t3 of a DLY_REQ kept by the slave. The tenth of a ns within the tick is a
free value (log entry 136). -/
def Prog.stampTime (u : UnitId) (k : Nat) (msg : List Byte) (go : List Byte → Prog) : Prog := .free fun sub => .get fun s =>
  let now := s.stampAt u sub
  let kind := fieldAt msg 0 1
  if kind = 1 then go (msg.take 8 ++ le 8 (now / 65536) ++ le 2 (now % 65536) ++ msg.drop 18)
  else if kind = 2 then .both (.modServo u k fun v => { v with t3 := some (fieldAt msg 2 2, now) }) (go msg)
  else go msg

/-- The connection that a port serves directly. -/
def State.directConn (s : State) (u : UnitId) (k : Nat) : Option Nat :=
  match u with
  | .htu => if k = 0 then some 0 else none
  | .vta => if (s.conn .vta k).peerNo.isSome then some k else none

/-- The next packet of a VC that a connection has to send: the first with flits left. -/
def Conn.nextPkt (k : Conn) (vc : Nat) : Option (Nat × TxPkt) :=
  (k.tx.zipIdx.map fun e => (e.2, e.1)).find? fun e => e.2.vc == vc && e.2.last.isNone && e.2.sent * flitPayload < max 1 e.2.bytes.length

/-- The next flit of a packet departs (R376, R377, R382): it takes a credit, and the first one the packet's number. -/
def Prog.sendFlit (u : UnitId) (k c i : Nat) (t : TxPkt) : Prog := .get fun s =>
  let n := s.conn u c
  let no := t.pkt.getD n.pktTx
  let last' := decide ((t.sent + 1) * flitPayload ≥ t.bytes.length)
  let f : Flit := { kind := kindData, vc := t.vc, first' := t.sent == 0, last', fwd := u == .vta && n.fwd, colour := t.colour
                    pkt := if t.sent = 0 then no else 0, payload := cut t.bytes (t.sent * flitPayload) flitPayload }
  let t' := { t with pkt := some no, sent := t.sent + 1, last := if last' then some (s.port u k).fseqTx else none }
  .seq [
    .modConn u c fun n => { n.countUp t.vc with
      tx := n.tx.set i t', pktTx := if t.pkt.isNone then (n.pktTx + 1) % 2 ^ 32 else n.pktTx },
    .depart u k (s.fillHeader u k (some c) f) t.queue]

-- the bulk scheduler

/-- The time gate is closed for a bulk flit that would start now (R389): it must end by T + GATE_START, or start at T + GATE_END. -/
def State.gated (s : State) (u : UnitId) : Bool :=
  let now := s.ns16 u
  let a := s.rd u Reg.SCH_GATE_GATE_START * 65536
  let b := s.rd u Reg.SCH_GATE_GATE_END * 65536
  ((s.dev u).captures ++ (s.dev u).taken).any (fun t => t * 65536 + a < now + 349525 && now < t * 65536 + b)
    || (match (s.dev u).gate with
      | some t => now < t * 65536 + b
      | none => false)

/-- The row TIME_GATE (R389): the gate of a capture instant T opens at T + GATE_START and closes at T + GATE_END. -/
def Prog.timeGate (u : UnitId) : Prog := .get fun s =>
  let t := ((s.dev u).captures ++ (s.dev u).taken).find? fun t =>
    t + s.rd u Reg.SCH_GATE_GATE_START ≤ s.ns u && s.ns u < t + s.rd u Reg.SCH_GATE_GATE_END
  .dev u fun d => { d with gate := t }

/-- A queue or partition as the scheduler sees it (R388): head packet's bytes, tokens in 1/100 byte, deficit and DRR quantum in bytes. -/
structure PickQ where
  key : Nat
  size : Nat
  tokens : Nat
  deficit : Nat
  quantum : Nat

/-- One choice of R388 among queues in rising order, after the one served last: the queue, whether its bucket pays (green), and the DRR
rounds that pass. -/
def pickQueue (after : Nat) (l : List PickQ) : Option (PickQ × Bool × Nat) :=
  let l := l.filter (fun q => after < q.key) ++ l.filter (fun q => q.key ≤ after)
  match l.find? fun q => q.size * 100 ≤ q.tokens with
  | some q => some (q, true, 0)
  | none =>
    let need (q : PickQ) : Option Nat :=
      if q.size ≤ q.deficit then some 0 else if q.quantum = 0 then none else some ((q.size - q.deficit + q.quantum - 1) / q.quantum)
    match (l.filterMap need).min? with
    | none => none
    | some r => (l.find? fun q => q.size ≤ q.deficit + r * q.quantum).map fun q => (q, false, r)

/-- Tokens in a bucket of `cap` bytes: `buckets` holds what is missing, so that buckets start full (R400). -/
def State.tokens (s : State) (u : UnitId) (key cap : Nat) : Nat := cap * 100 - Sparse.get 0 (s.dev u).buckets key

/-- Burst of a service, and of a partition: the sum of its services', in bytes. -/
def State.svcBurst (s : State) (u : UnitId) (q : Nat) : Nat := s.rd u (Reg.SCH_SVC_BURST_KIB q) * 1024
def State.partBurst (s : State) (u : UnitId) : Nat := ((List.range 6).map (s.svcBurst u)).sum

/-- The heads of a partition's queues on the VCs allowed. -/
def State.svcHeads (s : State) (u : UnitId) (ok : Nat → Bool) (p : Nat) : List (PickQ × QItem) :=
  (List.range 6).filterMap fun q =>
    ((s.dev u).bulk.find? fun i => i.part == p && i.svc == q && ok i.vc).map fun i =>
      ({ key := q, size := i.r.size, tokens := s.tokens u (8 * p + q) (s.svcBurst u q)
         deficit := Sparse.get 0 (s.dev u).deficit (8 * p + q), quantum := s.rd u (Reg.SCH_SVC_WEIGHT q) * 1024 }, i)

/-- The bulk pick (R388): a partition, then a service within it. The item, and for both levels the choice and its rivals. -/
def State.bulkPick (s : State) (u : UnitId) (ok : Nat → Bool) :
    Option (QItem × (PickQ × Bool × Nat) × List Nat × (PickQ × Bool × Nat) × List Nat) :=
  let parts := (((s.dev u).bulk.filter fun i => ok i.vc).map (·.part)).eraseDups.mergeSort
  let inner := parts.filterMap fun p =>
    let heads := s.svcHeads u ok p
    (pickQueue (if (s.dev u).rrPtr.1 = p then (s.dev u).rrPtr.2 else 5) (heads.map (·.1))).bind fun c =>
      (heads.find? fun h => h.1.key == c.1.key).map fun h =>
        (({ key := p, size := h.2.r.size, tokens := s.tokens u (8 * p + 7) (s.partBurst u)
            deficit := Sparse.get 0 (s.dev u).deficit (8 * p + 7), quantum := s.rd u (Reg.SCH_PART_WEIGHT p) * 1024 } : PickQ),
          h.2, c, heads.map (·.1.key))
  (pickQueue (s.dev u).rrPtr.1 (inner.map (·.1))).bind fun o =>
    (inner.find? fun e => e.1.key == o.1.key).map fun e => (e.2.1, o, parts, e.2.2.1, e.2.2.2)

/-- A choice is paid (R388): from the bucket, or from deficits that have grown by their rounds. An emptied queue keeps no deficit. -/
def Prog.payChoice (u : UnitId) (key : Nat → Nat) (c : PickQ × Bool × Nat) (rivals : List Nat) (weight : Nat → Nat) : Prog :=
  if c.2.1 then .dev u fun d => { d with buckets := Sparse.mod 0 d.buckets (key c.1.key) (· + c.1.size * 100) }
  else .dev u fun d =>
    let grown := rivals.foldl (fun l q => Sparse.mod 0 l (key q) (· + c.2.2 * weight q * 1024)) d.deficit
    { d with deficit := Sparse.mod 0 grown (key c.1.key) (· - c.1.size) }

/-- A record picked leaves its queue for the connection's transmit queue (R388), green when both levels were paid from their buckets;
the services' buckets of its partition fill with what the partition receives. -/
def Prog.takeBulk (u : UnitId) (c : Nat) (i : QItem) (o : PickQ × Bool × Nat) (parts : List Nat) (q : PickQ × Bool × Nat)
    (svcs : List Nat) : Prog := .get fun s =>
  let n := i.r.size
  let rest := (s.dev u).bulk.erase i
  let fill (l : List (Nat × Nat)) (v : Nat) : List (Nat × Nat) :=
    Sparse.set 0 l (8 * i.part + v) (Sparse.get 0 l (8 * i.part + v) - n * s.rd u (Reg.SCH_SVC_MIN_PCT v))
  .seq [
    .payChoice u (fun p => 8 * p + 7) o parts (fun p => s.rd u (Reg.SCH_PART_WEIGHT p)),
    .payChoice u (fun v => 8 * i.part + v) q svcs (fun v => s.rd u (Reg.SCH_SVC_WEIGHT v)),
    .dev u fun d => { d with
      bulk := rest, rrPtr := (i.part, i.svc), buckets := (List.range 6).foldl fill d.buckets
      deficit := d.deficit.filter fun e =>
        rest.any fun x => x.part == e.1 / 8 && (e.1 % 8 == 7 || x.svc == e.1 % 8) },
    .modConn u c fun k => { k with tx := k.tx ++ [
      { vc := i.vc, bytes := i.r.bytes, colour := if o.2.1 && q.2.1 then 0 else 1, queue := some (8 * i.part + i.svc) }] }]

/-- A flit slot passes: the partitions' buckets fill at their share of the port's capacity, 236 bytes a slot (R388). -/
def Prog.fillParts (u : UnitId) : Prog := .get fun s => .dev u fun d =>
  let drop (e : Nat × Nat) : Option (Nat × Nat) :=
    if e.1 % 8 = 7 then
      let m := e.2 - flitPayload * s.rd u (Reg.SCH_PART_MIN_PCT (e.1 / 8))
      if m = 0 then none else some (e.1, m)
    else some e
  { d with buckets := d.buckets.filterMap drop }

/-- The queue that a relayed flit's bytes belong to (R179): the partition and service of the record that its packet carries, as its FIRST flit
shows it. -/
def Port.relayQueue (p : Port) (f : Flit) : Option Nat :=
  if f.kind ≠ kindData ∨ f.vc < 4 then none
  else if f.first' then
    let w := fieldAt f.payload 4 4
    some (8 * (w / 2 ^ 21 % 256) + serviceOf { typ := fieldAt f.payload 0 1, unit := w / 2 ^ 17 % 16 })
  else Sparse.find p.relayQ f.vc

/-- A relayed flit departs with this hop's acknowledgement; its PKT and credit count are the partner's (R383). -/
def Prog.relayOne (u : UnitId) (k : Nat) (b : List Byte) : Prog := .get fun s =>
  let p := s.port u k
  .both (.modPort u k fun p => { p with relay := p.relay.erase b }) <| .opt (Flit.ofBytes b) fun f => .both
    (.opt (p.relayQueue f) fun q => .modPort u k fun p => { p with relayQ := Sparse.put p.relayQ f.vc q })
    (.depart u k { f with ack := (p.fseqRx + 4095) % 4096, nak := p.nakOut, ackValid := true } (p.relayQueue f))

/-- Whether a bulk flit is ready on a port, and what sends it: a packet under way, else the pick (R377, R388). -/
def State.bulkReady (s : State) (u : UnitId) (k : Nat) : Option Prog :=
  if s.gated u then none else
  match (s.port u k).relay.find? fun b => fieldAt b 0 1 / 4 % 8 ≥ 4 && fieldAt b 0 1 % 4 == kindData with
  | some b => some (.relayOne u k b)
  | none => (s.connsOn u k).findSome? fun e =>
    match [4, 5].findSome? fun vc => (e.2.nextPkt vc).bind fun t => if s.hasCredit u e.2 vc then some t else none with
    | some t => some (.sendFlit u k e.1 t.1 t.2)
    | none =>
      let ok (vc : Nat) : Bool := (e.2.nextPkt vc).isNone && s.hasCredit u e.2 vc
      if u = .vta then none else
      (s.bulkPick u ok).map fun b => .both (.takeBulk u e.1 b.1 b.2.1 b.2.2.1 b.2.2.2.1 b.2.2.2.2) <| .get fun s =>
        .opt ((s.conn u e.1).nextPkt b.1.vc) fun t => .sendFlit u k e.1 t.1 t.2

/-- A flit of VC2, VC1 or VC0 (R389): a relayed one first, then the connections' own. -/
def State.packetReady (s : State) (u : UnitId) (k vc : Nat) : Option Prog :=
  match (s.port u k).relay.find? fun b => fieldAt b 0 1 / 4 % 8 == vc && fieldAt b 0 1 % 4 == kindData with
  | some b => some (.relayOne u k b)
  | none => (s.connsOn u k).findSome? fun e =>
      (e.2.nextPkt vc).bind fun t => if s.hasCredit u e.2 vc then some (.sendFlit u k e.1 t.1 t.2) else none

/-- A VC3 flit (R377, R389). -/
def State.timeReady (s : State) (u : UnitId) (k : Nat) : Option Prog :=
  match (s.port u k).time with
  | [] => none
  | m :: rest =>
    let go (c : Option Nat) : Prog := .stampTime u k m fun b => .seq [
      .modPort u k fun p => { p with time := rest },
      .opt c fun c => .modConn u c (·.countUp 3),
      .get fun s => .depart u k (s.fillHeader u k c { kind := kindData, vc := 3, first' := true, last' := true, payload := b })]
    match s.directConn u k with
    | some c => if s.hasCredit u (s.conn u c) 3 then some (go (some c)) else none
    | none => some (go none)

/-- A CONTROL flit, relayed or the port's own (R380, R383, R389). -/
def State.controlReady (s : State) (u : UnitId) (k : Nat) : Option Prog :=
  match (s.port u k).relay.find? fun b => fieldAt b 0 1 % 4 == kindControl, (s.port u k).ctl with
  | some b, _ => some (.relayOne u k b)
  | none, [] => none
  | none, m :: rest =>
    let f : Flit := { kind := kindControl, fwd := fieldAt m 12 1 == 1, payload := m.take 8 }
    some (.both (.modPort u k fun p => { p with ctl := rest })
      (.depart u k { s.fillHeader u k none f with die := fieldAt m 8 4 % 2 ^ 17 }))

/-- A flit of the retry buffer departs again, with a fresh acknowledgement; a time flit is stamped again (R138, R379). -/
def Prog.departAgain (u : UnitId) (k : Nat) (n : Nat) (b : List Byte) : Prog := .get fun s =>
  let p := s.port u k
  .opt (Flit.ofBytes b) fun f =>
    let g := { f with ack := (p.fseqRx + 4095) % 4096, nak := p.nakOut, ackValid := true }
    let out (x : Flit) : Prog := .seq [
      .send u (.flit k x.bytes), .count u (Reg.FUR_PORT_TX_FLITS k),
      .cond (u == .htu) (.count .htu (Reg.TAP_DIE_CNT_COUNT (8 + k))),
      .linkEnergy u (Sparse.find p.retryQ n),
      .modPort u k fun p => { p with
        nakOut := false, resend := p.resend.drop 1, retry := p.retry.map fun e => if e.1 = n then (n, x.bytes) else e }]
    if f.kind = kindData ∧ f.vc = 3 then .stampTime u k g.payload fun m => out { g with payload := m } else out g

/-- An IDLE flit, or one of the partner's connection that carries its credits (R376, R383). -/
def State.idleFlit (s : State) (u : UnitId) (k : Nat) : Prog :=
  match (s.port u k).relay.find? fun b => fieldAt b 0 1 % 4 == kindIdle with
  | some b => .relayOne u k b
  | none =>
    let f := s.fillHeader u k none { kind := kindIdle }
    .depart u k { f with fwd := u == .vta && f.die != s.connDie u k }

/-- The row FLIT_SLOT (R376, R377, R379, R389): resends first; then VC3, CONTROL, VC2, VC1, VC0 and bulk, which takes at least one slot
in eight; IDLE when nothing waits or the retry buffer holds 64 flits. -/
def Prog.flitSlot (u : UnitId) (k : Nat) : Prog := .get fun s => .cond (s.rd u (Reg.FUR_PORT_STATE k) == portUp) <|
  .both (.fillParts u) <| .get fun s =>
    let p := s.port u k
    match p.resend with
    | (n, b) :: _ => .departAgain u k n b
    | [] =>
      if p.retry.length ≥ 64 then s.idleFlit u k else
      let bulk := s.bulkReady u k
      let turn (n : Nat) (q : Prog) : Prog := .both (.modPort u k fun p => { p with slots := n }) q
      match if p.slots ≥ 7 then bulk else none with
      | some q => turn 0 q
      | none =>
        match [s.timeReady u k, s.controlReady u k, s.packetReady u k 2, s.packetReady u k 1, s.packetReady u k 0].findSome? id with
        | some q => turn (if bulk.isSome then p.slots + 1 else 0) q
        | none => turn 0 (bulk.getD (s.idleFlit u k))

-- PORT_HOTPLUG

/-- A port is some connection's only path (R399). -/
def State.lastPath (s : State) (u : UnitId) (k : Nat) : Bool :=
  (portConns u k).any fun c => (s.conn u c).path == some k &&
    !(let p := connPorts u c; s.pathUsable u (if p.1 = k then p.2 else p.1))

/-- The inputs behind a port leave their sheaves as planned (R211). -/
def Prog.plannedLeave (u : UnitId) (k : Nat) : Prog := .get fun s =>
  match u with
  | .htu => .each (s.h.colls.filter fun e => (s.fn .htu (fidCollector e.1)).st == .running) fun e => .leaves .htu e.1
  | .vta =>
    let ep := s.epoch .vta
    let mine (m : Member) : Bool := m.level == .tray && m.input == k && m.last.isNone
    .seq [.vta fun x => { x with members := x.members.map fun m => if mine m then { m with last := some (BitVec.ofNat 32 ep) } else m },
      .each (s.vx.members.filter mine) fun m => .memberRec .tray m.key true 1 k ((ep + 1) % 2 ^ 32),
      .showMembers]

/-- PORT_HOTPLUG REMOVE (R399): a planned leave and time switch, the connection moves, BYE goes out, and the port is DISABLED. -/
def Prog.removePort (u : UnitId) (k : Nat) : Prog := .get fun s => .seq [
  .plannedLeave u k,
  .cond (s.timePort u == some k) (.planSwitch u (s.otherPort u)),
  .cond (s.rd u (Reg.FUR_PORT_STATE k) == portUp) <|
    .depart u k (s.fillHeader u k none { kind := kindControl, payload := le 1 3 }),
  .portLeaves u k portDisabled,
  .setFn u (fidPort k) fun f => { f with st := .stopped }]

/-- PORT_HOTPLUG (R399). On a port whose function is DRAINING it is BUSY as the other starts and stops are (R91). -/
def opPortHotplug : Op where
  code := 0x93
  classes := [6]
  plen := (· == 8)
  rsvd := fun _ p => anySet p 1 7
  perms := permSnap
  check := fun s u _ p =>
    let k := targetInst p.target
    firstBad [
      (arg p 0 1 ≠ 1 ∧ arg p 0 1 ≠ 2, badParam 0x100),
      ((s.fn u (fidPort k)).st = .draining, { status := stBusy }),
      (arg p 0 1 = 1 ∧ s.lastPath u k, { status := stBusy }),
      (arg p 0 1 = 2 ∧ (s.port u k).add.isSome, { status := stBusy })]
  run := fun u m p => .get fun s =>
    let k := targetInst p.target
    if arg p 0 1 = 1 then .both (.removePort u k) (.reply u m p.tag { status := stOk })
    else if s.rd u (Reg.FUR_PORT_STATE k) = portUp then .reply u m p.tag { status := stOk }
    else .seq [
      .setFn u (fidPort k) fun f => { f with st := .running },
      .wr u (Reg.FUR_PORT_STATE k) portTraining,
      .modPort u k fun q => { q with refused := false, byed := false, add := some (m, p.tag) }]

/-- The row HOTPLUG_ADD_TIMEOUT (R399). -/
def Prog.addTimeout (u : UnitId) (k : Nat) : Prog := .get fun s =>
  .opt (s.port u k).add fun c => .seq [
    .modPort u k fun q => { q with add := none },
    .cond (s.rd u (Reg.FUR_PORT_STATE k) == portTraining) (.wr u (Reg.FUR_PORT_STATE k) portDown),
    .answer u (some c) { status := stAborted, detail := 0x101 }]

end Sys2Proof.Machine
end

