-- ==== Sys2Proof/Machine/Gorse.lean ====
section
/-! DEFINITION. The trusted and untrusted firmware (chapter 4) without policy: Bracken's faults (R105), lockstep mismatches (R106), the
SPDM responder and its sessions (R111 to R114), and the record-signing key (R125, R128). -/

namespace Sys2Proof.Machine

/-- The Bracken mailbox of a unit (R68). -/
def brackenMbx : UnitId → Nat
  | .htu => 1
  | .vta => 8

/-- Number of Bracken images of a unit: one on the HTU, one for each sward group on the VTA (R429). -/
def brackenCount : UnitId → Nat
  | .htu => 1
  | .vta => 30

/-- A Bracken image. -/
def State.brk (s : State) (u : UnitId) (g : Nat) : Bracken := Sparse.get {} (s.dev u).brks g

/-- A mailbox opens (R69, R78): MBX_NEXT_SEQ counts from 0, and words written before are no part of a packet. -/
def Prog.openMbx (u : UnitId) (m : Nat) : Prog := .seq [
  .wr u (Reg.MBX_STATUS_OPEN m) 1, .wr u (Reg.MBX_NEXT_SEQ_SEQ m) 0, .modMb u m fun b => { b with words := [], spilled := false }]

/-- A Bracken image changes; the Bracken mailbox is open while an image runs (R78, R104), and the unit's registers show it. -/
def Prog.modBrk (u : UnitId) (g : Nat) (f : Bracken → Bracken) : Prog := .seq [
  .dev u fun d => { d with brks := Sparse.mod {} d.brks g f },
  .get fun s =>
    if (s.dev u).brks.any (·.2.running) then .cond (!s.on u (Reg.MBX_STATUS_OPEN (brackenMbx u))) (.openMbx u (brackenMbx u))
    else .wr u (Reg.MBX_STATUS_OPEN (brackenMbx u)) 0,
  .cond (u == .vta) <| .get fun s =>
    .cond (s.rd .vta (Reg.VTA_SWG_STATE g) != 3) (.wr .vta (Reg.VTA_SWG_STATE g) (if (s.brk u g).running then 1 else 2))]

/-- Every command outstanding on a mailbox replies ABORTED. -/
def Prog.abortMbx (u : UnitId) (m : Nat) : Prog := .get fun s => .both
  (.each (s.mb u m).outst fun o => .reply u m o.tag { status := stAborted })
  (.modMb u m fun b => { b with held := [] })

/-- Bracken faults or misses its watchdog (R105): its commands reply ABORTED, its collectors go FAULTED, and its image restarts once in a
power cycle. -/
def Prog.brackenFault (u : UnitId) (g : Nat) : Prog := .get fun s => .cond (s.brk u g).running <|
  let m := brackenMbx u
  .seq [
    .abortMbx u m,
    .each ((s.dev u).colls.filter fun e => e.2.mbx == m && !e.2.gorse) fun e => .faultColl u e.1,
    .modBrk u g fun b => { b with running := b.faults == 0, faults := b.faults + 1 }]

/-- Bracken traps on an uncorrectable instruction fetch; a second trap within 1 s is a fault (R405). -/
def Prog.brackenTrap (u : UnitId) (g : Nat) : Prog := .get fun s => .cond (s.brk u g).running <|
  let now := (s.dev u).ticks
  match (s.brk u g).trapT with
  | some t => if now ≤ t + ticksPerS then .both (.modBrk u g fun b => { b with trapT := none }) (.brackenFault u g)
    else .modBrk u g fun b => { b with trapT := some now }
  | none => .modBrk u g fun b => { b with trapT := some now }

/-- A mailbox loses its outstanding commands without replies (R65, R106). -/
def Prog.dropMbx (u : UnitId) (m : Nat) : Prog := .both (.wr u (Reg.MBX_STATUS_OPEN m) 0)
  (.modMb u m fun b => { b with outst := [], held := [], words := [], spilled := false, keyEx := false, bound := false, effects := [] })

/-- The row LOCKSTEP_MISMATCH (R106): the Gorse pair stops, mailboxes close, the HTU's outputs go to their safe states (R43), and a retained
flag is set; the unit's start row then restarts the pair, but for the third mismatch of a power cycle, which stops it with BOOT_FAIL 0x01. A
policy assembly under way is discarded (DESIGN CHOICE, log entry 24: R106 and R123 do not name it). -/
def Prog.lockstep (u : UnitId) : Prog := .get fun s => .cond (s.gorseUp u) <|
  let n := s.rd u Reg.SEC_STATE_MISMATCHES + 1
  .seq [
    .wr u Reg.SEC_STATE_MISMATCHES n, .wr u Reg.SEC_STATE_RSK_READY 0, .wr u Reg.SEC_STATE_POLICY_IN_FORCE 0,
    .each (List.range (mbxCount u)) (.dropMbx u),
    .evr u fun v => { v with retLock := true },
    .dev u fun d => { d with spdm := [], pol := { d.pol with asm := none } },
    match u with
    | .htu => .seq [
        .wr .htu Reg.HTU_STATUS_GORSE_UP 0, .wr .htu Reg.HTU_STATUS_RECORDER_OPEN 0, .wr .htu Reg.HTU_STATUS_BOUNDARY_LIVE 0,
        .wr .htu Reg.HTU_STATUS_MBX0_OPEN 0, .wr .htu Reg.HTU_STATUS_POLICY 0,
        .htu fun x => { x with
          fGauge := [], vGauge := [], hs := none, seqQ := [], settling := none, drainReq := false, drainAcked := false, stepClean := true, stepCleanValid := false },
        .irqEdge .htu 0 s,
        .cond (n == 3) (.wr .htu Reg.HTU_STATUS_BOOT_FAIL 1)]
    | .vta => .seq [
        .vtaStatus Reg.VTA_STATUS_GORSE_UP 0, .vtaStatus Reg.VTA_STATUS_RECORDER_OPEN 0, .vtaStatus Reg.VTA_STATUS_PCIE_OPEN 0,
        .vtaStatus Reg.VTA_STATUS_POLICY 0,
        .cond (n == 3) (.both (.vtaStatus Reg.VTA_STATUS_BOOT_FAIL 1) (.vta fun x => { x with alert := true }))]]

/-- The unique device secret as it reads: zero once it is locked (R107, R108). -/
def State.uds (s : State) (u : UnitId) : BitVec 384 := if s.on u Reg.SEC_STATE_UDS_LOCK then 0 else Config.uds u

/-- The patches of a start-up pass (R109): each is signed, and its security version is at least PATCH_SVN. -/
def State.patchesOk (s : State) (u : UnitId) (b : BootRun) : Bool :=
  b.patches.all fun p => p.signed && decide (s.rd u Reg.SEC_SVN_PATCH_SVN ≤ p.svn)

/-- The ROM derives the DeviceID from the unique device secret and locks it before any patch runs (R107, R108); a restart that no reset came
before keeps the DeviceID. -/
def Prog.deriveDevice (u : UnitId) : Prog := .get fun s => .both
  (.cond (!s.on u Reg.SEC_STATE_UDS_LOCK) (.dev u fun d => { d with cdi := Config.hmac384 (s.uds u) (digestBytes (Config.romDigest u)) }))
  (.wr u Reg.SEC_STATE_UDS_LOCK 1)

/-- The ROM derives the Alias from the DeviceID, the patch set and PATCH_SVN, and measures itself, the patch set and the fuses (R107 to
R110). -/
def Prog.deriveAlias (u : UnitId) (b : BootRun) : Prog := .get fun s =>
  let set := Config.sha384 (b.patches.flatMap fun p => digestBytes p.digest)
  .seq [
    .dev u fun d => { d with
      patch := set, aliasCdi := Config.hmac384 d.cdi (digestBytes set ++ le 2 (s.rd u Reg.SEC_SVN_PATCH_SVN)) },
    .measure u 1 (Config.romDigest u), .measureFuses u]

/-- A new record-signing key after a restart (R106, R107): the open segment of each signed stream is never signed, and its chain restarts
from a new descriptor. -/
def Prog.newKey (u : UnitId) : Prog := .get fun s =>
  let key := (s.dev u).rsk + 1
  let fresh (sid : Nat) (st : Stream) : Stream :=
    let c := chainStart u (s.dieId u) (unitCode u st.bracken st.rank) sid st.armT key
    if st.sig then { st with chain := c, segStart := c, segCount := 0 } else st
  .both (.dev u fun d => { d with rsk := key, streams := d.streams.map fun e => (e.1, fresh e.1 e.2) })
    (.both (.wr u Reg.SEC_STATE_ALIAS_READY 1) (.wr u Reg.SEC_STATE_RSK_READY 1))

-- sessions

/-- The mailboxes that a session binds (R113, R114): VTA mailboxes 0 to 7, and 9, which opens with it. -/
def binds : UnitId → Nat → Bool
  | .htu, _ => false
  | .vta, m => m < 8 || m == 9

/-- A session ends (R113): a mailbox that it bound is unbound, commands outstanding on it complete with their replies discarded, and
mailbox 9 closes (R114). -/
def Prog.unbind (u : UnitId) (m : Nat) : Prog := .both
  (.modMb u m fun b => { b with
    keyEx := false, bound := false, chain := 0
    outst := if binds u m then b.outst.map fun o => { o with discard := true } else b.outst })
  (.cond (u == .vta && m == 9) (.wr .vta (Reg.MBX_STATUS_OPEN 9) 0))

-- SPDM request codes of DSP0274
def spdmCertificate : Nat := 0x82
def spdmChallenge : Nat := 0x83
def spdmKeyExchange : Nat := 0xE4
def spdmFinish : Nat := 0xE5
def spdmHeartbeat : Nat := 0xE8
def spdmKeyUpdate : Nat := 0xE9
def spdmGetEncapsulated : Nat := 0xEA
def spdmDeliver : Nat := 0xEB
def spdmEndSession : Nat := 0xEC

/-- The requests that a unit answers (R111), by their codes of DSP0274: GET_DIGESTS, GET_CERTIFICATE, CHALLENGE, GET_VERSION,
GET_MEASUREMENTS, GET_CAPABILITIES, NEGOTIATE_ALGORITHMS, KEY_EXCHANGE, FINISH, HEARTBEAT, KEY_UPDATE, the encapsulated request flow and
END_SESSION. -/
def spdmSupported : List Nat := [0x81, 0x82, 0x83, 0x84, 0xE0, 0xE1, 0xE3, 0xE4, 0xE5, 0xE8, 0xE9, 0xEA, 0xEB, 0xEC]

/-- The ERROR response that a request meets before its contents are looked at (PRESUMED from DSP0274, log entry 121): UnsupportedRequest for
a request that R111 does not list, InvalidRequest for a certificate slot other than 0; none otherwise. -/
def spdmError (req : List Byte) : Option (List Byte) :=
  let code := fieldAt req 1 1
  let slot := if code = spdmKeyExchange then fieldAt req 3 1 else fieldAt req 2 1
  if !spdmSupported.contains code then some (le 1 0x12 ++ le 1 0x7F ++ le 1 0x07 ++ le 1 code)
  else if [spdmCertificate, spdmChallenge, spdmKeyExchange].contains code && slot != 0 then some (le 1 0x12 ++ le 1 0x7F ++ le 1 0x01 ++ zeros 1)
  else none

/-- The responder's answer to a request of number `n`, at most 4,096 bytes (R110 to R112). -/
def State.spdmAnswer (s : State) (u : UnitId) (n : Nat) (req : List Byte) : List Byte :=
  ((spdmError req).getD (Config.spdmResponse u n (s.dev u).meas req)).take 4096

/-- How far the requester's chain has been taken after a message of the encapsulated request flow (R111): GET_DIGESTS is asked, then
GET_CERTIFICATE until a CERTIFICATE response leaves no remainder. -/
def chainStep (code chain : Nat) (req : List Byte) : Nat :=
  if code = spdmGetEncapsulated then max chain 1
  else if code = spdmDeliver then
    if chain = 1 then 2 else if chain = 2 ∧ fieldAt req 10 2 = 0 then 3 else chain
  else chain

/-- The responder answers one request message of a mailbox (R111 to R114). A KEY_EXCHANGE and FINISH pair, with the requester's chain taken
between them, opens a session, which binds VTA mailboxes 0 to 7 and opens mailbox 9; END_SESSION or a message that fails ends it; HEARTBEAT
and KEY_UPDATE act on an open session; the CHALLENGE of the VTA on HTU mailbox 2 starts the HTU's own sequence. -/
def Prog.respond (u : UnitId) (m : Nat) (req : List Byte) (answer : List Byte → Prog) : Prog := .get fun s =>
  let n := (s.dev u).spdmNo
  let code := fieldAt req 1 1
  let b := s.mb u m
  let ok := (spdmError req).isNone && Config.spdmAccepts u n req
  .seq [
    .dev u fun d => { d with spdmNo := n + 1 },
    answer (s.spdmAnswer u n req),
    if !ok then .cond b.bound (.unbind u m)
    else if code = spdmKeyExchange then .modMb u m fun b => { b with keyEx := true, sessNo := n, chain := 0, keyGen := 0 }
    else if code = spdmFinish then .cond (b.keyEx && b.chain == 3) <| .seq [
      .modMb u m fun b => { b with keyEx := false, bound := true, beat := (s.dev u).ticks },
      .cond (binds u m) (.wr u (Reg.MBX_NEXT_SEQ_SEQ m) 0),
      .cond (u == .vta && m == 9) (.wr .vta (Reg.MBX_STATUS_OPEN 9) 1)]
    else if code = spdmEndSession then .unbind u m
    else if code = spdmHeartbeat then .cond b.bound (.modMb u m fun b => { b with beat := (s.dev u).ticks })
    else if code = spdmKeyUpdate then .cond b.bound (.modMb u m fun b => { b with keyGen := b.keyGen + 1 })
    else if code = spdmGetEncapsulated ∨ code = spdmDeliver then
      .cond b.keyEx (.modMb u m fun b => { b with chain := chainStep code b.chain req })
    else .cond (code == spdmChallenge && u == .htu && m == 2) (.spdmGo .htu 0 0)]

/-- ATTEST (R112): on the HTU from step 5 of its start-up on. -/
def opAttest : Op where
  code := 0x80
  ready := fun s u _ => u == .vta || s.on u Reg.SEC_STATE_UDS_LOCK
  plen := fun n => 8 ≤ n && n ≤ 4096
  perms := permAll
  data := fun _ => 4096
  run := fun u m p => .respond u m p.params fun bytes => .reply u m p.tag { status := stOk, result := bytes.length, data := bytes }

/-- Three heartbeat periods have passed since the session's latest HEARTBEAT (R113). -/
def State.beatLost (s : State) (m : Nat) : Bool := decide ((s.mb .vta m).beat + 3 * Config.heartbeatTicks ≤ s.v.ticks)

/-- The row SPDM_HEARTBEAT_TIMEOUT (R113). -/
def Prog.heartbeatLost (m : Nat) : Prog := .get fun s => .cond ((s.mb .vta m).bound && s.beatLost m) (.unbind .vta m)

/-- The row PEER_ATTEST (R114): a command that an HTU sends on VC0 is answered on VC1. Only ATTEST and the relayed LEASE_RENEW, with role
PEER, are accepted; once the VTA has answered the HTU's CHALLENGE, mailbox 2 of that HTU counts from SEQ 0 again. -/
def Prog.peerAttest (port : Nat) (opcode : BitVec 8) (p : Packet) : Prog := .get fun s =>
  let post (a : Ans) : Prog := .sendPkt .vta port 1 (replyBytes opcode.toNat p.tag a)
  if p.roleN ≠ rolePeer then post { status := stDenied }
  else if opcode = 0x80 then
    let n := s.v.spdmNo
    let bytes := s.spdmAnswer .vta n p.params
    .seq [.dev .vta fun d => { d with spdmNo := n + 1 }, post { status := stOk, result := bytes.length, data := bytes },
      .cond (fieldAt p.params 1 1 == spdmChallenge) (.modConn .vta port fun k => { k with seqOut := 0 })]
  else if opcode = 0x92 then
    match opLeaseRenew.check s .vta 9 p with
    | some a => post a
    | none => .leaseVta p post
  else post { status := stDenied }

-- the record-signing key

/-- The row SEGMENT_CLOSE (R125): 10 ms have passed since the open segment's first record, in ticks where TIMEV is or was 0. -/
def Prog.segmentClose (u : UnitId) (sid : Nat) : Prog := .get fun s => .opt (Sparse.find (s.dev u).streams sid) fun st =>
  .cond (if s.timev u && st.segLive then st.segTime + 10000000 ≤ s.ns u else st.segTick + 10 * ticksPerMs ≤ (s.dev u).ticks)
    (.closeChain u sid)

/-- The 2 ms of a KEY_ROTATE still run (R128). -/
def State.rotating (s : State) (u : UnitId) : Bool := match (s.dev u).rotT with
  | some t => decide ((s.dev u).ticks < t + 2 * ticksPerMs)
  | none => false

/-- KEY_ROTATE (R128): its effect is made at once, and a second one within 2 ms of it is BUSY. -/
def opKeyRotate : Op where
  code := 0x82
  plen := (· == 8)
  rsvd := fun _ p => anySet p 0 8
  perms := [.yes, .no, .no, .no, .yes, .no]
  check := fun s u _ _ => firstBad [(s.rotating u, { status := stBusy })]
  data := fun _ => 2048
  run := fun u m p => .get fun s =>
    let key := (s.dev u).rsk + 1
    let cert := (Config.rskCert u key (s.dev u).aliasCdi).take 2048
    .seq [
      .each ((s.dev u).streams.filter (·.2.sig)) fun e => .closeChain u e.1,
      .dev u fun d => { d with rsk := key, rotT := some d.ticks },
      .event u 0x0804 (le 8 (Config.rskKeyId u key).toNat),
      .reply u m p.tag { status := stOk, result := cert.length, data := cert }]

end Sys2Proof.Machine
end

