-- ==== Sys2Proof/Machine/Stored.lean ====
section
/-! DEFINITION. Stored data (R401 to R410, R422): memory errors by reader, the patrol, scrubbing and retirement; and the event log's timers
and readout (R415 to R420). -/

namespace Sys2Proof.Machine

-- regions

/-- Size and granule of a region of R408; none where the unit lacks it. The VTA's trace buffer lies in region 0x0B. -/
def regionOf : UnitId → Nat → Option (Nat × Nat)
  | .htu, 1 => some (2 ^ 19, 16)
  | .htu, 2 => some (2 ^ 21, 16)
  | .htu, 3 => some (2 ^ 24, 16)
  | .htu, 4 => some (2 ^ 22, 16)
  | .htu, 5 => some (2 ^ 26, 4096)
  | .vta, 1 => some (2 ^ 20, 16)
  | .vta, 4 => some (48 * 2 ^ 20, 16)
  | .vta, 5 => some (2 ^ 28, 4096)
  | .vta, 6 => some (1248 * 2 ^ 17, 16)
  | .vta, 7 => some (30 * 2 ^ 22, 16)
  | .vta, 8 => some (2 ^ 22, 16)
  | .vta, 9 => some (2 ^ 23, 16)
  | .vta, 10 => some (2 ^ 23, 16)
  | .vta, 11 => some (2 ^ 39, 4096)
  | _, _ => none

/-- The region holds the offset. -/
def inRegion (u : UnitId) (r off : Nat) : Bool := match regionOf u r with
  | some (size, _) => decide (off < size)
  | none => false

/-- The granule of a region that holds an offset. -/
def granuleOf (u : UnitId) (r off : Nat) : Nat := match regionOf u r with
  | some (_, g) => off / g * g
  | none => off

/-- The t in force of a region's BCH code (R403); 0 for SRAM. -/
def State.bchT (s : State) (u : UnitId) (r : Nat) : Nat :=
  if r = 5 then s.rd u Reg.MEM_BCH_CFG_FLASH_T else if r = 11 then s.vx.ddrT else 0

/-- Payload of MEM_CE and MEM_UE (R444). -/
def memPayload (r flags bits off : Nat) : List Byte := le 1 r ++ le 1 flags ++ le 2 bits ++ zeros 4 ++ le 8 off

/-- A correctable error is counted and logged; a page that needs more than t/2 corrections is weak (R404). -/
def Prog.memCe (u : UnitId) (r off bits : Nat) : Prog := .get fun s => .seq [
  .bump u (Reg.MEM_REGION_CE r), .wr u (Reg.MEM_REGION_LAST_CE r) off,
  .event u 0x0601 (memPayload r (if (r = 5 ∨ r = 11) ∧ 2 * bits > s.bchT u r then 1 else 0) bits off),
  .dev u fun d => { d with weak := d.weak.filter (· != (r, granuleOf u r off)) ++ [(r, granuleOf u r off)] }]

/-- An uncorrectable error is counted, logged and marked (R405). -/
def Prog.memUeLog (u : UnitId) (r off bits : Nat) : Prog := .seq [
  .bump u (Reg.MEM_REGION_UE r), .wr u (Reg.MEM_REGION_LAST_UE r) off,
  .event u 0x0602 (memPayload r 0 bits off),
  .dev u fun d => { d with bad := d.bad.filter (· != (r, granuleOf u r off)) ++ [(r, granuleOf u r off)] }]

/-- A Heath array is retired (R298, R410). -/
def Prog.retireArray (a : Nat) (params : List Byte) : Prog := .seq [
  .wr .vta (Reg.HTH_ARRAY_STATE a) 2, .evr .vta fun v => { v with remaps := v.remaps ++ [(5, 0, a)] },
  .event .vta 0x0603 params,
  .get fun s =>
    let out := ((List.range 8).filter fun i => s.rd .vta (Reg.HTH_ARRAY_STATE i) == 2).length
    .both (.wr .vta Reg.HTH_STATUS_RETIRED out) (.wr .vta Reg.HTH_STATUS_ACTIVE (8 - out))]

/-- A trace chunk holds an uncorrectable word: its raw data ends before it (R359). -/
def markChunk (no len : Nat) (c : Chunk) : Chunk :=
  if c.no = no then { c with media := some (min len (c.media.getD len)) } else c

/-- What the reader of an uncorrectable word suffers (R405). -/
def Prog.memReader (u : UnitId) (off : Nat) (reader : MemReader) : Prog := .get fun s =>
  match reader with
  | .gorse => .lockstep u
  | .brackenFetch g => .brackenTrap u g
  | .brackenLoad _ => .skip
  | .dma c => .cond (u == .htu && c < 8) <| match s.dumpOn c with
    | some d => .dumpEnd c d stMedia haltMedia
    | none => .seq [.wr .htu (Reg.TRC_DUMP_STATE c) chanHalted, .wr .htu (Reg.TRC_DUMP_HALT c) 1,
        .wr .htu (Reg.TRC_DUMP_CAUSE c) haltMedia]
  | .stepContext => .cond (u == .htu && ((s.fn .htu fidSentinel).st == .running || (s.fn .htu fidSentinel).st == .draining)) <|
      .both .sntFaulted (.faultFn .htu fidSentinel)
  | .mergeBuffer l k ep => match u with
    | .htu => .partialMedia k ep
    | .vta => .modMerge l k ep fun m => { m with media := true }
  | .traceChunk no =>
    let len := off % 4096 / 16 * 16
    .dev u fun d => { d with trace := { d.trace with
      chunks := d.trace.chunks.map (markChunk no len), post := d.trace.post.map (markChunk no len)
      cur := d.trace.cur.map (markChunk no len) } }
  | .digest e => .cond (u == .htu && e < 64) (.digInvalid e)
  | .leaf b i => .cond (u == .vta) <| .seq [
      .bump .vta Reg.HTR_ERR_MEDIA,
      .opt ((s.vx.tcam.filter (·.bank == b))[i]?) fun e => .vta fun x => { x with leafBad := x.leafBad ++ [e] },
      .tcamScrub b []]
  | .heathArray a => .cond (u == .vta && a < 8 && s.rd .vta (Reg.HTH_ARRAY_STATE a) != 2) <|
      .both (.bump .vta Reg.HTH_ERR_MEDIA) (.retireArray a (le 1 5 ++ zeros 7 ++ le 8 a))
  | .table => .cond (u == .vta) (.bump .vta Reg.HTR_ERR_MEDIA)
  | .register => .dev u fun d => { d with bus := BitVec.allOnes 64 }
  | .command m tag => .reply u m (BitVec.ofNat 16 tag) { status := stMedia, detail := off }
  | .patrol => .skip

/-- The row MEM_UE (R405). -/
def Prog.memUe (u : UnitId) (r off bits : Nat) (reader : MemReader) : Prog := .both (.memUeLog u r off bits) (.memReader u off reader)

/-- The row PATROL (R406): it counts and logs, and never rewrites. -/
def Prog.patrol (u : UnitId) (r : Nat) (ce ue : List (Nat × Nat)) : Prog := .both
  (.each (ce.filter fun e => inRegion u r e.1) fun e => .memCe u r e.1 e.2)
  (.each (ue.filter fun e => inRegion u r e.1) fun e => .memUeLog u r e.1 e.2)

-- scrubbing and retirement

/-- Marks of a range of a region. -/
def inRange (r start len : Nat) (e : Nat × Nat) : Bool := e.1 == r && start ≤ e.2 && e.2 < start + len

/-- Remaps of a kind. -/
def Evr.used (v : Evr) (kind : Nat) : Nat := (v.remaps.filter (·.1 == kind)).length

/-- Spares of R409 that are left for a RETIRE kind. -/
def State.sparesLeft (s : State) (u : UnitId) (kind : Nat) : Nat := match kind with
  | 1 => s.rd u Reg.MEM_BCH_CFG_REPAIR_LEFT
  | 2 => 131072 - (s.dev u).evr.used 2
  | 3 => 384 - (s.dev u).evr.used 3
  | _ => 1

/-- MEM_REGION.SPARES: the spares left for the region, 0 where none exist. -/
def State.regionSpares (s : State) (u : UnitId) (r : Nat) : Nat :=
  if (regionOf u r).isNone then 0 else s.sparesLeft u (if r = 5 then 3 else if r = 11 then 2 else 1)

/-- SCRUB_RANGE (R407). A weak flash page is copied to a spare sector and remapped (R408). -/
def opScrubRange : Op where
  code := 0x72
  plen := (· == 24)
  rsvd := fun _ p => anySet p 1 7
  perms := permSnap
  check := fun _ u _ p => match regionOf u (arg p 0 1) with
    | none => some (badParam 0x100)
    | some (size, g) =>
      if arg p 8 8 % g ≠ 0 ∨ arg p 16 8 % g ≠ 0 ∨ arg p 8 8 + arg p 16 8 > size then some (badParam 0x101) else none
  run := fun u m p => .get fun s =>
    let r := arg p 0 1
    let hit := inRange r (arg p 8 8) (arg p 16 8)
    let found := (s.dev u).weak.filter hit
    let fixed := if r = 5 then found.take (s.sparesLeft u 3) else found
    let lost := ((s.dev u).bad.filter hit).length
    .seq [
      .dev u fun d => { d with weak := d.weak.filter fun e => !fixed.contains e },
      .cond (r == 5) (.evr u fun v => { v with remaps := v.remaps ++ fixed.map fun e => (3, 5, e.2 / 4096) }),
      .reply u m p.tag { status := stOk, detail := lost, result := fixed.length }]

/-- Number of instances of a RETIRE kind that INDEX may name; none for an undefined kind on this unit (R409). -/
def retireRange : UnitId → Nat → Nat → Option Nat
  | u, 1, r => some (match regionOf u r with
    | some (size, 16) => size / 65536
    | _ => 0)
  | .vta, 2, _ => some (2 ^ 27)
  | .htu, 3, _ => some (2 ^ 14)
  | .vta, 3, _ => some (2 ^ 16)
  | .vta, 4, _ => some 64
  | .vta, 5, _ => some 8
  | .vta, 6, _ => some 1248
  | .htu, 7, _ => some 272
  | _, _, _ => none

/-- Start, length and region of the granule range that a RETIRE of kind 1 to 3 copies. -/
def retireSpan (kind region index : Nat) : Nat × Nat × Nat := match kind with
  | 1 => (region, 65536 * index, 65536)
  | 2 => (11, 4096 * index, 4096)
  | _ => (5, 4096 * index, 4096)

/-- A physical sward core is retired (R422): a spare takes its place, or its group goes on with one logical core fewer. -/
def Prog.retireCore (p : Nat) : Prog := .get fun s =>
  let g := s.rd .vta (Reg.VTA_SWC_GROUP p)
  let spare := (List.range 1248).find? fun q =>
    q != p && s.rd .vta (Reg.VTA_SWC_GROUP q) == g && s.rd .vta (Reg.VTA_SWC_STATE q) == 1
  let active := s.rd .vta (Reg.VTA_SWC_STATE p) == 0
  .both (.wr .vta (Reg.VTA_SWC_STATE p) 2) <|
    if !active then .wr .vta (Reg.VTA_SWG_SPARES g) (s.rd .vta (Reg.VTA_SWG_SPARES g) - 1)
    else match spare with
    | some q => .seq [
        .wr .vta (Reg.VTA_SWC_STATE q) 0, .wr .vta (Reg.VTA_SWC_LOGICAL q) (s.rd .vta (Reg.VTA_SWC_LOGICAL p)),
        .wr .vta (Reg.VTA_SWG_SPARES g) (s.rd .vta (Reg.VTA_SWG_SPARES g) - 1)]
    | none => .wr .vta (Reg.VTA_SWG_LOGICAL g) (s.rd .vta (Reg.VTA_SWG_LOGICAL g) - 1)

/-- What RETIRE names is retired already: nothing is done again (R410 says so of a tap station). -/
def State.isRetired (s : State) (kind i : Nat) : Bool := match kind with
  | 4 => s.rd .vta (Reg.HTR_BANK_STATE i) == 1 || s.vx.bankOut.contains i
  | 5 => s.rd .vta (Reg.HTH_ARRAY_STATE i) == 2
  | 6 => s.rd .vta (Reg.VTA_SWC_STATE i) == 2
  | 7 => s.rd .htu (Reg.TAP_PHYS_STATE i) == phRetired
  | _ => false

/-- RETIRE (R409, R410, R422). A TCAM bank goes RETIRED, with its record, at the start of the next run set (R298). -/
def opRetire : Op where
  code := 0x73
  plen := (· == 16)
  rsvd := fun _ p => anySet p 2 6
  perms := permSnap
  check := fun s u _ p =>
    let k := arg p 0 1
    let i := arg p 8 8
    match retireRange u k (arg p 1 1) with
    | none => some (badParam 0x100)
    | some n => firstBad [(i ≥ n, badParam 0x101),
        (k = 7 ∧ (s.rd .htu (Reg.TAP_PHYS_STATE i) = phActive ∨ s.rd .htu (Reg.TAP_PHYS_STATE i) = phSilent), { status := stBusy })]
  late := fun s u _ p =>
    let k := arg p 0 1
    let i := arg p 8 8
    firstBad [(s.sparesLeft u k = 0, { status := stNoResource }),
      (k = 6 ∧ !s.isRetired 6 i ∧ s.rd .vta (Reg.VTA_SWG_LOGICAL (s.rd .vta (Reg.VTA_SWC_GROUP i))) ≤ 1, { status := stNoResource })]
  run := fun u m p => .get fun s =>
    let k := arg p 0 1
    let i := arg p 8 8
    let (r, start, len) := retireSpan k (arg p 1 1) i
    let carried := ((s.dev u).bad.filter (inRange r start len)).length
    if s.isRetired k i then .reply u m p.tag { status := stOk } else
    .both (match k with
      | 4 => .vta fun x => { x with bankOut := x.bankOut ++ [i] }
      | 5 => .retireArray i p.params
      | 6 => .seq [.retireCore i, .evr .vta fun v => { v with remaps := v.remaps ++ [(6, 0, i)] }, .event .vta 0x0603 p.params]
      | 7 => .seq [.wr .htu (Reg.TAP_PHYS_STATE i) phRetired, .evr .htu fun v => { v with retired := v.retired ++ [i] },
          .event .htu 0x0603 p.params]
      | _ => .seq [
          .dev u fun d => { d with weak := d.weak.filter fun e => !inRange r start len e },
          .evr u fun v => { v with remaps := v.remaps ++ [(k, r, i)] },
          .cond (k == 1) (.wr u Reg.MEM_BCH_CFG_REPAIR_LEFT (s.rd u Reg.MEM_BCH_CFG_REPAIR_LEFT - 1)),
          .event u 0x0603 p.params])
      (.reply u m p.tag { status := stOk, result := if k ≤ 3 then carried else 0 })

-- the event log

/-- The row FOLD_CLOSE (R415): 1 s has passed without a repeat, so the slot commits its FOLDED copy and closes. -/
def Prog.foldClose (u : UnitId) (i : Nat) : Prog := .get fun s => .opt ((s.dev u).evr.slots[i]?) fun f =>
  .cond (f.tick + ticksPerS ≤ (s.dev u).ticks) <| .both (.commitEv u f.copy)
    (.evr u fun v => { v with slots := v.slots.eraseIdx i })

/-- The row FOLD_COMMIT (R415): repeats have continued for 60 s. -/
def Prog.foldCommit (u : UnitId) (i : Nat) : Prog := .get fun s => .opt ((s.dev u).evr.slots[i]?) fun f => .commitEv u f.copy

/-- The row JOURNAL_ENTRY (R418): HOURS and CYCLES are written to the counter journal. -/
def Prog.journal (u : UnitId) : Prog := .get fun s => .evr u fun v => { v with jHours := s.hours u }

/-- One item of a readout: its cursor, and its record or the sector of an uncorrectable page. -/
structure LogItem where
  cur : Nat × Nat
  e   : EvRec ⊕ Nat
deriving DecidableEq, Repr

/-- The records of one page with their cursors. -/
def pageItems (seq : Nat) : Nat → List EvRec → List LogItem
  | _, [] => []
  | off, e :: es => ⟨(seq, off), .inl e⟩ :: pageItems seq (off + e.size) es

/-- Cursor of the record that is committed next. -/
def Evr.headCursor (v : Evr) : Nat × Nat := stagedCursor (v.staged ++ [{ typ := 0, hours := 0, cycles := 0, repeat' := 0, folded := false, deferred := false, retained := false, ext := none, payload := [] }]) v.staged.length v.nextSeq 16

/-- Cursor of the oldest record (EVR_TAIL). -/
def Evr.tailCursor (v : Evr) : Nat × Nat := match v.pages.head? with
  | some p => (p.seq, 16)
  | none => (v.nextSeq, 16)

/-- The last area, and with PENDING the staging buffer, as items (R419). -/
def State.logItems (s : State) (u : UnitId) (pending : Bool) : List LogItem :=
  let v := (s.dev u).evr
  (v.pages.flatMap fun p =>
    if (s.dev u).bad.contains (5, 4096 * pageSector u p.seq) then [⟨(p.seq, 16), .inr (pageSector u p.seq)⟩]
    else pageItems p.seq 16 p.recs)
  ++ (if pending then v.staged.mapIdx fun i e => ⟨stagedCursor v.staged i v.nextSeq 16, .inl e⟩ else [])

/-- Whole records up to `room` bytes: the bytes, the count, and the items left. -/
def takeLog : Nat → List LogItem → List Byte × Nat × List LogItem
  | _, [] => ([], 0, [])
  | room, ⟨c, .inl e⟩ :: t =>
    if e.size ≤ room then
      let r := takeLog (room - e.size) t
      (e.bytes ++ r.1, r.2.1 + 1, r.2.2)
    else ([], 0, ⟨c, .inl e⟩ :: t)
  | _, ⟨c, .inr n⟩ :: t => ([], 0, ⟨c, .inr n⟩ :: t)

/-- The answer of a readout of the last area. -/
def State.readLast (s : State) (u : UnitId) (p : Packet) : Ans :=
  let v := (s.dev u).evr
  let pending := (arg p 1 1).testBit 1
  let oldest := (arg p 1 1).testBit 0
  let cur := (arg p 4 4, arg p 8 2)
  let lapped := !oldest && serialGt 32 v.tailCursor.1 cur.1
  let items := (s.logItems u pending).dropWhile fun i =>
    !(oldest || lapped) && (serialGt 32 cur.1 i.cur.1 || (i.cur.1 == cur.1 && decide (i.cur.2 < cur.2)))
  let (bytes, n, rest) := takeLog (arg p 12 4) items
  match rest with
  | ⟨c, .inr sector⟩ :: _ =>
    { status := stMedia, detail := sector, result := n, data := cursorBytes ((c.1 + 1) % 2 ^ 32, 16) ++ bytes }
  | i :: _ => { status := stOk, detail := if lapped then 0x100 else 0, result := n, data := cursorBytes i.cur ++ bytes }
  | [] => { status := stOk, detail := if lapped then 0x100 else 0, result := n
            data := cursorBytes (if pending then v.headCursor else (v.nextSeq, 16)) ++ bytes }

/-- The answer of a readout of the first area, whose cursor is a record index. -/
def State.readFirst (s : State) (u : UnitId) (p : Packet) : Ans :=
  let v := (s.dev u).evr
  let i := if (arg p 1 1).testBit 0 then 0 else arg p 4 8
  let (bytes, n, _) := takeLog (arg p 12 4) ((v.firstArea.drop i).map fun e => ⟨(0, 0), .inl e⟩)
  { status := stOk, result := n, data := le 8 (i + n) ++ bytes }

/-- LOG_READ (R419). -/
def opLogRead : Op where
  code := 0x70
  v1 := true
  plen := (· == 16)
  rsvd := fun _ p => anySet p 2 2 || arg p 1 1 / 4 != 0
  perms := permSnap
  ready := fun s u _ => s.recorderOpen u
  check := fun _ _ _ p => firstBad [(arg p 0 1 > 1, badParam 0x101),
    (arg p 12 4 = 0 ∨ arg p 12 4 % 8 ≠ 0 ∨ arg p 12 4 > 4088, badParam 0x102)]
  data := fun p => 8 + arg p 12 4
  run := fun u m p => .get fun s => .reply u m p.tag (if arg p 0 1 = 0 then s.readFirst u p else s.readLast u p)

/-- The open page, and the full pages before it, are programmed at once; each takes a page of credit if there is any (R420). -/
def Prog.flushLog (u : UnitId) : Nat → Prog
  | 0 => .skip
  | n + 1 => .get fun s => .cond ((s.dev u).evr.staged != []) <|
    if s.on u Reg.PWR_STATUS_HOLD then .cond (u == .htu) (.htu fun x => { x with deferred := x.deferred + 1 })
    else .cond (s.recorderOpen u) <| .seq [
      .wr u Reg.EVR_STATUS_BUCKET (s.rd u Reg.EVR_STATUS_BUCKET - 1),
      .dev u (Dev.programOpen u), Prog.flushLog u n]

/-- LOG_MARK (R420). A MARK that finds no room is dropped and counted (R416); the cursor returned is then a free value. -/
def opLogMark : Op where
  code := 0x71
  plen := (· == 16)
  rsvd := fun _ p => anySet p 9 7 || arg p 8 1 / 2 != 0
  perms := permSnap
  ready := fun s u _ => s.recorderOpen u
  data := fun _ => 8
  run := fun u m p => .get fun s =>
    let v := (s.dev u).evr
    let e := s.newEvent u 0x0701 (p.params.take 8)
    let v' := v.commit e
    let done (cur : List Byte) : Prog := .seq [
      .commitEv u e, .cond ((arg p 8 1).testBit 0) (.both (.refill u) (.flushLog u 32)),
      .reply u m p.tag { status := stOk, data := cur }]
    if v'.staged.length > v.staged.length then
      done (cursorBytes (stagedCursor v'.staged (v'.staged.length - 1) v.nextSeq 16))
    else .free fun k => done (le 8 k)

end Sys2Proof.Machine
end

