-- ==== Sys2Proof/Machine/Bus.lean ====
section
/-! DEFINITION. Register accesses (R6, R8, R10 to R14, R58, R59): what a read returns, with the fields that follow other state; what a
write stores, refuses and sets off; the mailbox registers (R69, R70, R73, R74); and the register-named streams (R446). -/

namespace Sys2Proof.Machine

/-- Offset, strides and counts of every register that is one 64-bit register (R11); any other 8-byte word holds two 32-bit registers. -/
def wideRegs : List (Nat × List (Nat × Nat × Nat)) := [
  (0xa0000, [(8, 272, 0)]), (0x1000, [(256, 3, 10)]), (0x1010, [(256, 3, 10)]), (0x2008, []), (0x2018, []), (0x2028, []),
  (0x2060, [(8, 0, 4)]), (0x2208, [(32, 8, 16)]), (0x2210, [(32, 8, 16)]), (0x10010, []), (0x10100, [(8, 13, 0)]),
  (0x10200, [(16, 16, 0)]), (0x10800, [(8, 256, 0)]), (0x11000, [(16, 256, 0)]), (0x12000, [(64, 256, 0)]),
  (0x12008, [(64, 256, 0), (8, 6, 0)]), (0x18000, [(128, 256, 0), (8, 16, 0)])]
  ++ [
  (0x20060, []), (0x20068, []), (0x21008, [(16, 1024, 4096)]), (0x30010, []), (0x30020, []), (0x30028, []), (0x30040, [(8, 8, 0)]),
  (0x30080, []), (0x30090, []), (0x30098, []), (0x300a0, []), (0x300a8, []), (0x31000, [(8, 272, 0)]), (0x32000, [(32, 64, 0)]),
  (0x32008, [(32, 64, 0)]), (0x32010, [(32, 64, 0)]), (0x32018, [(32, 64, 0)]), (0x1000010, []), (0x1000100, [(8, 0, 64)]),
  (0x1001010, [(64, 0, 16)]), (0x1002010, [(32, 0, 8)]), (0x1002018, [(32, 0, 8)]), (0x1800108, [(16, 0, 8)])]
  ++ [
  (0xc0020, []), (0xc0048, []), (0xc1000, [(32, 0, 64)]), (0xc1008, [(32, 0, 64)]), (0xc1010, [(32, 0, 64)]), (0xc1018, [(32, 0, 64)]),
  (0x808, []), (0x40008, []), (0x40010, []), (0x40040, []), (0x40048, []), (0x40210, [(32, 16, 0)]), (0x50000, []), (0x50008, []),
  (0x50018, []), (0x50020, []), (0x50100, [(8, 32, 32)]), (0x50810, [(32, 8, 0)]), (0x51008, []), (0x51010, []), (0x52000, [(8, 0, 256)])]
  ++ [
  (0x90010, [(64, 2, 64)]), (0x90018, [(64, 2, 64)]), (0x90020, [(64, 2, 64)]), (0x91020, []), (0x92000, [(128, 256, 256), (16, 6, 6)]),
  (0x92008, [(128, 256, 256), (16, 6, 6)]), (0x60108, [(32, 12, 12)]), (0x60110, [(32, 12, 12)]), (0x70000, []), (0x70008, []),
  (0x70010, []), (0x70018, []), (0x2000008, [(64, 0, 30)])]

/-- The 8-byte word at `off` is one 64-bit register of the unit. -/
def isWide (u : UnitId) (off : Nat) : Bool := wideRegs.any fun r => decide (r.1 ≤ off) && (Row.index u r.2 (off - r.1)).isSome

/-- The access that an agent acts with (R6, R94). -/
def agentActs (u : UnitId) : Agent → Agent
  | .entry m => if m = brackenMbx u then .bracken else match u with
    | .htu => .hreg
    | .vta => .pcie
  | a => a

/-- The agent code of R445. -/
def agentCode : Agent → Nat
  | .hreg => 0
  | .pcie => 0x10
  | .gorse => 0x20
  | .bracken => 0x30
  | .entry m => 0x40 + m % 16

/-- The payload of MISALIGNED and DENIED (R445). -/
def accessPayload (off : Nat) (a : Agent) (size : Nat) (write : Bool) (cause : Nat) : List Byte :=
  le 4 off ++ le 1 (agentCode a) ++ le 1 size ++ le 1 write.toNat ++ le 1 cause ++ zeros 8

/-- An access of bad size or alignment (R10). -/
def Prog.misaligned (u : UnitId) (a : Agent) (off size : Nat) (write : Bool) : Prog := .both
  (.event u 0x0001 (accessPayload off a size write 0))
  (.cond (!write) (.dev u fun d => { d with bus := BitVec.allOnes 64 }))

/-- A register's block is ready (R59): the base block once fuses are loaded, every other once the memories are initialised. -/
def State.blockReady (s : State) (u : UnitId) (off : Nat) : Bool := !(s.dev u).inReset && (match u with
  | .htu => s.on .htu (if off < 0x1000 then Reg.HTU_STATUS_FUSES else Reg.HTU_STATUS_MEM_INIT)
  | .vta => s.on .vta (if off < 0x1000 then Reg.VTA_STATUS_FUSES else Reg.VTA_STATUS_MEM_INIT))

/-- An operation for group `g` is queued or under way (PWR_GRP.PEND). -/
def SeqOp.isFor (g : Nat) : SeqOp → Bool
  | .setF h _ => g == h
  | .setV h _ => g == h
  | _ => false

/-- Words of visible replies (R74). -/
def Mbx.rspWords (b : Mbx) : Nat := (b.replies.map fun r => r.1.length).sum

/-- The fields of the word at `off` that follow other state, with their values now. -/
def State.follows (s : State) (u : UnitId) (a : Agent) (off : Nat) : List (Fld × Nat) :=
  let d : Dev := s.dev u
  match off / 65536, u with
  | 0, _ =>
    if off = 0x2010 then [(Reg.TIM_NOW_FRAC_FRAC, (((d.fracs.find? fun (e : Agent × BitVec 16) => e.1 == a).map fun (e : Agent × BitVec 16) => e.2).getD 0).toNat)]
    else if 0x1000 ≤ off ∧ off < 0x1000 + 256 * mbxCount u then
      let m := (off - 0x1000) / 256
      [(Reg.MBX_STATUS_OUTSTANDING m, (s.mb u m).outst.length), (Reg.MBX_STATUS_REQ_FREE m, s.reqFree u m),
       (Reg.MBX_RSP_LEVEL_RSP_WORDS m, (s.mb u m).rspWords)]
    else []
  | 2, _ => [(Reg.SHF_STATUS_SENDING, (s.timev u && (u == .vta || s.policy .htu)).toNat)]
  | 3, .htu =>
    let head : Option ReplayEnt := s.hx.replayQ.head?
    if 0x31000 ≤ off ∧ off < 0x31000 + 8 * 272 then
      let n := (off - 0x31000) / 8
      let offNow := s.rd .htu (Reg.TAP_PHYS_STATE n) != phActive || (s.station n).fallow
      [(Reg.SNT_LANE_STATE n, if s.rd .htu (Reg.SNT_LANE_STATE n) = 1 then 1 else if offNow then 2 else 0)]
    else [
      (Reg.SNT_STATUS_CONTEXTS, s.hx.steps.length),
      (Reg.SNT_REPLAY_HEAD_KIND, match head with
        | none => 0
        | some e => if e.coll then 2 else 1),
      (Reg.SNT_REPLAY_HEAD_EXP, ((head.map ReplayEnt.exp).getD 0).toNat), (Reg.SNT_REPLAY_HEAD_RING_POS, ((head.map ReplayEnt.ring).getD 0).toNat),
      (Reg.SNT_REPLAY_HEAD_STEP, ((head.map ReplayEnt.step).getD 0).toNat), (Reg.SNT_REPLAY_POP_COLL_ID, ((head.map ReplayEnt.collId).getD 0).toNat),
      (Reg.SNT_DIGEST_STAT_OPEN_NOW, ((List.range 64).filter fun e => s.rd .htu (Reg.SNT_DIGEST_STATE e) == 1).length)]
  | 4, .htu =>
    if 0x40200 ≤ off ∧ off < 0x40400 then
      let g := (off - 0x40200) / 32
      [(Reg.PWR_GRP_PEND g, (s.hx.seqQ.any (·.isFor g) || s.hx.hs.any (·.op.isFor g)).toNat)]
    else [(Reg.PWR_STATUS_CAPPED, s.capped.toNat)]
  | 6, _ => if 0x60100 ≤ off then [(Reg.MEM_REGION_SPARES ((off - 0x60100) / 32), s.regionSpares u ((off - 0x60100) / 32))] else []
  | 7, _ => [
      (Reg.EVR_HEAD_CURSOR, ofLe (cursorBytes d.evr.headCursor)), (Reg.EVR_TAIL_CURSOR, ofLe (cursorBytes d.evr.tailCursor)),
      (Reg.EVR_STATUS_FIRST_COUNT, d.evr.firstArea.length), (Reg.EVR_STATUS_FIRST_CLOSED, (decide (d.evr.firstArea.length ≥ 4096)).toNat),
      (Reg.EVR_STATUS_SLOTS, d.evr.slots.length), (Reg.EVR_STATUS_BUCKET, s.bucketPages u), (Reg.EVR_COUNT_HOURS, min (s.hours u) (2 ^ 32 - 1)),
      (Reg.EVR_COUNT_CYCLES, min d.evr.jCycles (2 ^ 24 - 1))]
  | 9, .vta => [(Reg.SCH_INGRESS_OCC, s.ingressOcc)]
  | 0x200, .vta =>
    let g := (off - 0x2000000) / 64
    if g < 30 && (Sparse.find d.brks g).isSome then [(Reg.VTA_SWG_CYCLES g, (Config.coreCycles g d.ticks).toNat)] else []
  | 12, .vta =>
    if 0xc1000 ≤ off then
      let k := (off - 0xc1000) / 32
      [(Reg.VTA_DIE_FUR_AGE k, s.ageUs s.vx.furAt k), (Reg.VTA_DIE_MGMT_AGE k, s.ageUs s.vx.mgmtAt k)]
    else []
  | _, _ => []

/-- The word at `off` as an agent sees it, before access types. -/
def State.view (s : State) (u : UnitId) (a : Agent) (off : Nat) : Word :=
  (s.follows u a off).foldl (fun w e => if e.1.off = off then e.1.setW w (min e.2 (2 ^ e.1.width - 1)) else w) (s.word u off)

/-- The fields of the 8-byte word at `off`, with their rows and indexes. -/
def wordFields (u : UnitId) (off : Nat) : List (Row × List Nat × Fld) :=
  (Row.fields u off).map (fun r => (r.1, r.2, r.1.fld off)) ++ (Row.fields u (off + 4)).map fun r => (r.1, r.2, r.1.fld (off + 4))

/-- The bits of a field in its word. -/
def Fld.mask (f : Fld) : Word := BitVec.ofNat 64 (2 ^ f.width - 1) <<< f.lsb

/-- What a read of the bits `mask` of a word returns to an agent (R8, R12, R13): the value, the bits that the read clears, and whether a
GRO field was refused. -/
def State.readWord (s : State) (u : UnitId) (a : Agent) (off : Nat) (mask : Word) : Word × Word × Bool :=
  let w := s.view u a off
  (wordFields u off).foldl (fun acc (r, _, f) =>
    let m := f.mask &&& mask
    if m = 0 then acc else
    match r.acc with
    | .wo => acc
    | .gro => if a = .gorse then (acc.1 ||| (w &&& m), acc.2) else (acc.1, acc.2.1, true)
    | .rc => (acc.1 ||| (w &&& m), acc.2.1 ||| m, acc.2.2)
    | _ => (acc.1 ||| (w &&& m), acc.2)) (0, 0, false)

-- mailbox registers

/-- The agent that feeds and drains a mailbox through its registers (R68, R74); HTU mailbox 2 and VTA mailbox 9 have paths of their own. -/
def mbxAgent : UnitId → Nat → Option Agent
  | .htu, 0 => some .hreg
  | .htu, 1 => some .bracken
  | .htu, _ => none
  | .vta, m => if m < 8 then some .pcie else if m = 8 then some .bracken else none

/-- A write of one packet word (R69, R70, R74). -/
def Prog.reqWrite (u : UnitId) (m : Nat) (a : Agent) (w : Word) : Prog := .get fun s =>
  .cond (mbxAgent u m == some (agentActs u a) && s.on u (Reg.MBX_STATUS_OPEN m)) <|
    if s.reqFree u m = 0 then .modMb u m fun b => { b with spilled := true }
    else .modMb u m fun b => { b with words := b.words ++ [w] }

/-- What a mailbox makes of the words written since the last commit: a packet, or nothing where they are framed badly (R69, R97). -/
def State.framed (s : State) (u : UnitId) (m : Nat) (words : List Word) : Option (Nat × Packet) :=
  if s.on u (Reg.MBX_STATUS_GEN m) then parseV1 words (s.rd u (Reg.MBX_V1_IDENT_PARTITION m)) (s.rd u (Reg.MBX_V1_IDENT_ROLE m))
  else parseV2 words

/-- A commit (R69, R70, R74): the packet joins the queue of its mailbox, or vanishes and is counted. On a mailbox that a session binds the
words are a secured message that wraps the packet; one that fails unbinds the mailbox (R113). -/
def Prog.doorbell (u : UnitId) (m : Nat) (a : Agent) : Prog := .get fun s =>
  let b := s.mb u m
  let take (words : List Word) : Prog := match s.framed u m words with
    | some p => .modMb u m fun b => { b with waiting := b.waiting ++ [p] }
    | none => .mbxErr u m (Reg.MBX_ERR_FRAMING m)
  .cond (mbxAgent u m == some (agentActs u a)) <| .both (.modMb u m fun b => { b with words := [], spilled := false }) <|
    if !s.on u (Reg.MBX_STATUS_OPEN m) then .mbxErr u m (Reg.MBX_ERR2_CLOSED m)
    else if b.spilled then .mbxErr u m (Reg.MBX_ERR_OVERFLOW m)
    else if b.bound && binds u m then match Config.unwrap b.sessNo b.keyGen (ofWords b.words) with
      | some plain => take (toWords plain)
      | none => .unbind u m
    else take b.words

/-- A read of MBX_RSP (R73): the next word of the oldest visible reply, or all ones. -/
def Prog.rspRead (u : UnitId) (m : Nat) (a : Agent) : Prog := .get fun s =>
  let ones : Prog := .dev u fun d => { d with bus := BitVec.allOnes 64 }
  if mbxAgent u m != some (agentActs u a) then ones else
  match (s.mb u m).replies with
  | (w :: ws, n) :: t => .both (.dev u fun d => { d with bus := w })
      (.modMb u m fun b => { b with replies := if ws = [] then t else (ws, n) :: t })
  | ([], _) :: t => .both ones (.modMb u m fun b => { b with replies := t })
  | [] => .both ones (.mbxErr u m (Reg.MBX_ERR_EMPTY_READ m))

/-- A read of SNT_REPLAY_POP removes the head entry of SNT_REPLAY (R254). -/
def Prog.replayPop : Prog := .htu fun x => { x with replayQ := x.replayQ.drop 1 }

-- reads

/-- The word at `off` answers with a mailbox reply, or with the fleet-time counter, when it is read. -/
def rspOf (u : UnitId) (off : Nat) : Option Nat :=
  if 0x1000 ≤ off ∧ off < 0x1000 + 256 * mbxCount u ∧ off % 256 = 0x10 then some ((off - 0x1000) / 256) else none

/-- What a read leaves besides its data: the RC fields read are cleared, keeping what came since a latched value, a GRO refusal is
recorded, and a pop removes its entry. -/
def Prog.afterRead (u : UnitId) (a : Agent) (off size : Nat) (base : Nat) (clear : Word) (taken : Word) (denied : Bool) : Prog := .seq [
  .each ((wordFields u base).filter fun e => e.2.2.mask &&& clear != 0 && e.1.acc == .rc) fun e => .get fun s =>
    .wr u e.2.2 (s.rd u e.2.2 - e.2.2.getW taken),
  .cond denied (.event u 0x0002 (accessPayload off a size false 2)),
  .cond (u == .htu && base == 0x30088 && clear != 0) .replayPop]

/-- A register is a die-wide or global counter source: the die's counters and energy accumulators, and the Sentinel's (R118, R175, R179,
R263). -/
def dieWideOff (u : UnitId) (o : Nat) : Bool := u == .htu && (o / 8 == 0x10010 / 8 || (0x10100 ≤ o && o < 0x10168) || (0x30040 ≤ o && o < 0x30080))

/-- An access reaches a die-wide or global counter source. -/
def dieWideReg (u : UnitId) (off : Nat) (wide : Bool) : Bool := dieWideOff u off || (wide && dieWideOff u (off + 4))

/-- A read of a register (R10 to R14, R59, R73, R162). Bracken reads no die-wide or global counter source (R103): it gets 0, and a DENIED
record under the cause of a refused read (log entry 120). -/
def Prog.readReg (u : UnitId) (a : Agent) (off : Nat) (wide : Bool) : Prog := .get fun s =>
  let base := off / 8 * 8
  let high := off % 8 = 4
  let size := if wide then 8 else 4
  let d := s.dev u
  if off % size ≠ 0 then .misaligned u a off size false
  else if !s.blockReady u off then .dev u fun d => { d with bus := 0 }
  else if a = .bracken ∧ dieWideReg u off wide then .both (.event u 0x0002 (accessPayload off a size false 2)) (.dev u fun d => { d with bus := 0 })
  else if base = 0x2008 ∧ !high then .readNow u a wide
  else
    let latched := d.hiLatch.find? fun (e : Agent × Nat × Half) => e.1 == a && e.2.1 == base
    match rspOf u base with
    | some m =>
      if high ∧ latched.isSome then .dev u fun d => { d with
        bus := ((latched.map fun (e : Agent × Nat × Half) => e.2.2).getD 0).setWidth 64, hiLatch := d.hiLatch.filter fun e => !(e.1 == a && e.2.1 == base) }
      else .both (.rspRead u m a) <| .cond (!wide) <| .get fun s =>
        let w := (s.dev u).bus
        .dev u fun d => { d with
          bus := if high then w >>> 32 else w &&& 0xFFFFFFFF
          hiLatch := if high then d.hiLatch
            else (d.hiLatch.filter fun e => !(e.1 == a && e.2.1 == base)) ++ [(a, base, (w >>> 32).setWidth 32)] }
    | none =>
      let mask : Word := if wide then BitVec.allOnes 64 else if high then 0xFFFFFFFF00000000 else 0xFFFFFFFF
      let (v, clear, denied) := s.readWord u a base mask
      let (full, _, _) := s.readWord u a base (BitVec.allOnes 64)
      let one := isWide u base && !wide
      let v' : Word := match latched with
        | some e => if one ∧ high then (e.2.2.setWidth 64) <<< 32 else v
        | none => v
      .both (.dev u fun d => { d with
          bus := if high then v' >>> 32 else v'
          hiLatch := if one then
              (d.hiLatch.filter fun e => !(e.1 == a && e.2.1 == base)) ++ (if high then [] else [(a, base, (full >>> 32).setWidth 32)])
            else d.hiLatch })
        (.afterRead u a off size base clear v' denied)

-- register-named streams

/-- A register that names a stream (R446): VALID, STREAM, owner, partition. -/
structure RegStream where
  valid  : Fld
  stream : Fld
  owner  : StreamOwner
  part   : Nat

/-- The registers of R446 whose VALID bit stands in the word at `off`. -/
def regStreams (u : UnitId) (off : Nat) : List RegStream :=
  let all : List RegStream := [
    ⟨Reg.PWR_CTL_VALID, Reg.PWR_CTL_STREAM, .power, 0⟩, ⟨Reg.TIM_PULSE_STREAM_VALID, Reg.TIM_PULSE_STREAM_STREAM, .pulse, 0⟩]
    ++ (match u with
      | .htu => [⟨Reg.SNT_STREAM_VALID, Reg.SNT_STREAM_STREAM, .sentinel, 0⟩]
      | .vta => [⟨Reg.VTA_FLT_STREAM_V_VALID, Reg.VTA_FLT_STREAM_VERDICT, .verdict, 0⟩,
          ⟨Reg.VTA_FLT_STREAM_S_VALID, Reg.VTA_FLT_STREAM_STRAG, .straggler, 0⟩]
          ++ (List.range 8).map fun v => ⟨Reg.HTR_SVC_VALID v, Reg.HTR_SVC_STREAM v, .score v, 0⟩)
    ++ (if 0x50400 ≤ off ∧ off < 0x50800 then
        [2 * ((off - 0x50400) / 8), 2 * ((off - 0x50400) / 8) + 1].map fun p => ⟨Reg.TRC_STREAM_VALID p, Reg.TRC_STREAM_STREAM p, .trace p, p⟩
      else [])
  all.filter (·.valid.off == off)

/-- The stream context that a register opens (R446). -/
def State.regStream (s : State) (u : UnitId) (r : RegStream) (sid : Nat) : Stream :=
  let named := ((s.dev u).pol.body.bind fun b => b.streams.find? (·.sid == sid))
  let set (f : PolStream → Bool) : Bool := (named.map f).getD false
  let trace := match r.owner with
    | .trace p => some p
    | _ => none
  { owner := r.owner, part := r.part, armT := s.ns u, svc := if trace.isSome then 2 else 0, bracken := false
    ord := match trace with
      | some p => s.on u (Reg.TRC_STREAM_ORD p)
      | none => set (·.ord)
    sig := match trace with
      | some p => s.on u (Reg.TRC_STREAM_SIG p)
      | none => set (·.sig)
    host := u == .htu && set (·.host), retain := u == .htu && set (·.retain) }

/-- The streams of a word follow a change of its VALID and STREAM fields (R446); `was` is the state before the write. A stream ID that is
in use is refused, and so is a signed stream beyond the unit's limit (R127): VALID stays 0. The verdict register takes VALID only with a SIG stream of the policy in force (R303). -/
def Prog.streamWrites (u : UnitId) (off : Nat) (was : State) : Prog := .each (regStreams u off) fun r => .get fun s =>
  let old := was.rd u r.stream
  let sid := s.rd u r.stream
  let changed := was.on u r.valid != s.on u r.valid || (s.on u r.valid && old != sid)
  if changed ∧ s.on u r.valid ∧ r.owner = .verdict ∧ !(s.regStream u r sid).sig then
    .both (.wr u r.valid (was.rd u r.valid)) (.wr u r.stream old)
  else .cond changed <| .both (.cond (was.on u r.valid) (.closeStream u old)) <| .get fun s =>
    .cond (s.on u r.valid) <|
      let st := s.regStream u r sid
      if (Sparse.find (s.dev u).streams sid).isSome || (st.sig && sigLimit u ≤ ((s.dev u).streams.filter (·.2.sig)).length) then .wr u r.valid 0
      else .openStream u sid st

-- writes

/-- The registers that take writes from HREG and Gorse only (R53, R94, R323, R328). -/
def hostOnly (u : UnitId) (off : Nat) : Bool := u == .htu &&
  ((0xa1000 ≤ off && off < 0xa1400) || off == 0xa2000 || off == 0xa2004 || (0xa0000 ≤ off && off < 0xa0880 && off % 8 == 4)
    || (0x40200 ≤ off && off < 0x40400 && off % 32 == 0) || (0xa3000 ≤ off && off < 0xa3440)
    || (0x50800 ≤ off && off < 0x50900 && off % 32 == 0))

/-- The function that a function-scoped field belongs to (R92). -/
def fieldFn (r : Row) (i : List Nat) : Option Nat := match r.cls with
  | 1 => some (fidCollector (i.headD 0))
  | 2 => some fidSentinel
  | 4 => some fidTrace
  | 5 => some fidPower
  | _ => none

/-- TAP_CMD_CFG is locked while a collector with CMD is RUNNING or DRAINING. -/
def State.cmdLocked (s : State) : Bool := s.h.colls.any fun e => e.2.sels.any (·.cmd) &&
  ((s.fn .htu (fidCollector e.1)).st == .running || (s.fn .htu (fidCollector e.1)).st == .draining)

/-- The cause of R445 for which a field refuses a write, or 0. `off` is the byte offset of the field's 32-bit register. -/
def State.refusal (s : State) (u : UnitId) (a : Agent) (off : Nat) (r : Row) (i : List Nat) : Nat :=
  if r.acc = .grw ∧ a ≠ .gorse then 1
  else if u = .htu ∧ off = 0x10000 ∧ s.cmdLocked then 5
  else if hostOnly u off ∧ agentActs u a = .bracken ∧ (r.acc = .rw ∨ r.acc = .wo ∨ r.acc = .w1c) then 4
  else match fieldFn r i with
    | some f => if r.acc = .rw ∧ (s.fn u f).st ≠ .stopped then 3 else 0
    | none => 0

/-- What a write of the bits `mask` of a word stores, and the causes for which fields of it refuse (R12, R13, R92). -/
def State.writeWord (s : State) (u : UnitId) (a : Agent) (off : Nat) (mask data : Word) : Word × List Nat :=
  (wordFields u off).foldl (fun acc (r, i, f) =>
    let m := f.mask &&& mask
    if m = 0 then acc else
    let why := s.refusal u a (off + (if f.lsb ≥ 32 then 4 else 0)) r i
    if why ≠ 0 then (acc.1, if acc.2.contains why then acc.2 else acc.2 ++ [why]) else
    match r.acc with
    | .rw => ((acc.1 &&& ~~~ m) ||| (data &&& m), acc.2)
    | .grw => ((acc.1 &&& ~~~ m) ||| (data &&& m), acc.2)
    | .w1c => (acc.1 &&& ~~~ (data &&& m), acc.2)
    | _ => acc) (s.word u off, [])

/-- The field is written with this value by a write that it does not refuse. -/
def State.wrote (s : State) (u : UnitId) (a : Agent) (off : Nat) (mask data : Word) (f : Fld) : Option Nat :=
  if f.off ≠ off ∨ f.mask &&& mask = 0 then none
  else match (wordFields u off).find? (fun e => e.2.2 == f) with
    | some (r, i, _) =>
      if s.refusal u a (off + (if f.lsb ≥ 32 then 4 else 0)) r i = 0 then some (f.getW data) else none
    | none => none

/-- MBX_CTL.GEN_SEL acts on HTU mailbox 0 alone, and only with nothing outstanding and an empty request queue (R74, R97). -/
def Prog.genSelect (u : UnitId) (m : Nat) (was : State) : Prog := .get fun s =>
  let b := s.mb u m
  if u = .htu ∧ m = 0 then
    if b.outst = [] ∧ b.words = [] ∧ b.waiting = [] then .wr .htu (Reg.MBX_STATUS_GEN 0) (s.rd .htu (Reg.MBX_CTL_GEN_SEL 0))
    else .wr .htu (Reg.MBX_CTL_GEN_SEL 0) (was.rd .htu (Reg.MBX_CTL_GEN_SEL 0))
  else .wr u (Reg.MBX_CTL_GEN_SEL m) 0

/-- What a stored write sets off, by the word written; `was` is the state before it. -/
def Prog.afterWrite (u : UnitId) (a : Agent) (off : Nat) (mask data : Word) (was : State) : Prog :=
  let on (f : Fld) : Bool := was.wrote u a off mask data f == some 1
  .both (.streamWrites u off was) <|
  match off / 65536, u with
  | 0, u =>
    if 0x1000 ≤ off ∧ off < 0x1000 + 256 * mbxCount u then
      let m := (off - 0x1000) / 256
      match off % 256 with
      | 0 => .reqWrite u m a (data &&& mask)
      | 8 => .cond (data.getLsbD 0 && mask.getLsbD 0) (.doorbell u m a)
      | 0x20 => .both (.genSelect u m was) (.irqEdge u m was)
      | 0x28 => .irqEdge u m was
      | _ => .skip
    else if off = 0x800 ∧ u = .htu then .irqEdge .htu 0 was
    else if off = 0x2000 then .get fun s =>
      let v := s.rd u Reg.TIM_CTL_SRC_PREF
      .seq [.wr u Reg.TIM_CTL_SWITCH 0, .cond (v != was.rd u Reg.TIM_CTL_SRC_PREF) (.setSrcPref u v),
        .cond (on Reg.TIM_CTL_SWITCH) (.planSwitch u (was.otherPort u))]
    else .skip
  | 3, .htu => .cond (off == 0x300a0 || off == 0x300a8) <| .get fun s => .cond (s.digestKey != was.digestKey) .keyLoaded
  | 4, .htu => .cond (0x40200 ≤ off && off < 0x40400) (.both .markCap .sequence)
  | 5, .htu => .cond (0x50800 ≤ off && off < 0x50900 && on (Reg.TRC_DUMP_HALT ((off - 0x50800) / 32))) (.dumpHalt ((off - 0x50800) / 32))
  | 8, u => .cond (off == 0x80000 && was.on u Reg.SEC_STATE_UDS_LOCK) (.wr u Reg.SEC_STATE_UDS_LOCK 1)
  | 10, .htu =>
    if 0xa0000 ≤ off ∧ off < 0xa0880 then .memDistWritten ((off - 0xa0000) / 8) was
    else if off = 0xa2000 then .cond (on Reg.TAP_MAP_CTL_COMMIT) (.get fun s => .mapCommit (s.on .htu Reg.TAP_MAP_CTL_IMMEDIATE))
    else .cond (0xa3000 ≤ off && off < 0xa3440) <| .seq [
      .each [(off - 0xa3000) / 4, (off - 0xa3000) / 4 + 1] .fuseLimit, .ceilings, .sequence]
  | 0x100, .vta => .cond (off == 0x1000008) (.periodWritten was)
  | 0x3f0, .vta => .cond (off % 16 == 8 && off < 0x3f00200) <|
      let i := (off - 0x3f00000) / 16
      .get fun s => .cond (was.on .vta (Reg.MSIX_MASK i) && !s.on .vta (Reg.MSIX_MASK i)
          && (s.rd .vta Reg.MSIX_PBA_PENDING).testBit i) <| .both
        (.wr .vta Reg.MSIX_PBA_PENDING (s.rd .vta Reg.MSIX_PBA_PENDING - 2 ^ i)) (.send .vta (.msix i))
  | _, _ => .skip

/-- A write stores the bits `mask` of one word at one instant, records what it refuses, and acts (R12, R13). -/
def Prog.storeWord (u : UnitId) (a : Agent) (off size : Nat) (mask data : Word) : Prog := .get fun s =>
  let base := off / 8 * 8
  let (w, causes) := s.writeWord u a base mask data
  .seq [
    .wr u ⟨base, 0, 64⟩ w.toNat,
    .each causes fun c => .event u 0x0002 (accessPayload off a size true c),
    .afterWrite u a base mask data s]

/-- A low half that an agent holds is discarded: by its write of any other register, and by the write that stores it (R11). -/
def Prog.dropLow (u : UnitId) (a : Agent) : Prog := .dev u fun d => { d with loHeld := d.loHeld.filter fun e => !(e.1 == a) }

/-- The low half that an agent holds of a 64-bit register. -/
def State.lowHeld (s : State) (u : UnitId) (a : Agent) (base : Nat) : Option Half :=
  ((s.dev u).loHeld.find? fun e => e.1 == a && e.2.1 == base).map (·.2.2)

/-- A write of a register (R10 to R13, R59). -/
def Prog.writeReg (u : UnitId) (a : Agent) (off : Nat) (wide : Bool) (v : Word) : Prog := .get fun s =>
  let base := off / 8 * 8
  let size := if wide then 8 else 4
  let held := s.lowHeld u a base
  if off % size ≠ 0 then .misaligned u a off size true
  else if !s.blockReady u off then .skip
  else .both (.dropLow u a) <|
    if wide then .storeWord u a off 8 (BitVec.allOnes 64) v
    else if off % 8 = 4 then match isWide u base, held with
      | true, some lo => .storeWord u a off 4 (BitVec.allOnes 64) ((v <<< 32) ||| lo.setWidth 64)
      | _, _ => .storeWord u a off 4 0xFFFFFFFF00000000 (v <<< 32)
    else if isWide u base then .dev u fun d => { d with loHeld := d.loHeld ++ [(a, base, v.setWidth 32)] }
    else .storeWord u a off 4 0xFFFFFFFF (v &&& 0xFFFFFFFF)

end Sys2Proof.Machine
end

