-- ==== Sys2Proof/Machine/General.lean ====
section
/-! DEFINITION. The general commands (R85, R90 to R94): NOP, IDENT, FENCE, starting and stopping functions with their drains, and register
access by CONFIG_WRITE and CONFIG_READ. -/

namespace Sys2Proof.Machine

/-- NOP (R93). -/
def opNop : Op where
  code := 0x01
  v1 := true
  plen := (· == 0)
  perms := permAll
  async := false
  run := fun u m p => .reply u m p.tag { status := stOk }

/-- A 32-bit register's bits 31:0. -/
def State.low32 (s : State) (u : UnitId) (off : Nat) : Nat := (s.word u off).toNat % 2 ^ 32

/-- IDENT (R93). -/
def opIdent : Op where
  code := 0x02
  v1 := true
  plen := (· == 0)
  perms := permAll
  async := false
  data := fun _ => 32
  run := fun u m p => .get fun s => .reply u m p.tag {
    status := stOk
    data := le 4 (s.low32 u 0) ++ le 4 (s.low32 u 0x10) ++ le 4 (s.dieId u) ++ le 1 m ++ le 1 p.roleN ++ zeros 2
      ++ le 4 (s.rd u (Reg.MBX_NEXT_SEQ_SEQ m)) ++ le 4 (s.reqFree u m) ++ zeros 8 }

/-- The answer of a fence (R85): OK, or FENCED_ERROR with the tag of the oldest lost command and the number lost. -/
def fenceAnswer (lost : List (BitVec 16)) : Ans := match lost with
  | [] => { status := stOk }
  | t :: _ => { status := stFenced, detail := t.toNat, result := lost.length }

/-- FENCE (R85): its mailbox holds it until FENCE_COMPLETE. -/
def opFence : Op where
  code := 0x03
  classes := [0, 1, 2, 3, 4, 5, 6]
  plen := (· == 0)
  perms := permAll
  async := false
  run := fun u m p => .reply u m p.tag { status := stOk }

-- starting functions

/-- START_FUNCTION's own checks of a STOPPED function. -/
def State.startCheck (s : State) (u : UnitId) (fid : Nat) : Option Ans :=
  match fid / 4096 with
  | 1 => s.startCollCheck u (fid % 4096)
  | 3 => s.startSlotCheck (fid % 4096)
  | _ => none

/-- A STOPPED function runs with its stored settings (R91). -/
def Prog.startFn (u : UnitId) (fid role : Nat) : Prog :=
  let go : Prog := .setFn u fid fun f => { f with st := .running }
  match fid / 4096 with
  | 1 => .startColl u (fid % 4096)
  | 2 => .startSentinel
  | 3 => .both go (.showSlot (fid % 4096))
  | 4 => .get fun s => .traceStart u (s.rd u Reg.TRC_STATUS_OWNER) role
  | 6 => .seq [go, .modPort u (fid % 4096) fun q => { q with refused := false, byed := false },
      .get fun s => .cond (s.rd u (Reg.FUR_PORT_STATE (fid % 4096)) == portDisabled) (.wr u (Reg.FUR_PORT_STATE (fid % 4096)) portDown)]
  | _ => go

/-- START_FUNCTION (R91). -/
def opStart : Op where
  code := 0x05
  v1 := true
  classes := [1, 2, 3, 4, 5, 6]
  plen := (· == 0)
  perms := permConfig
  check := fun s u _ p => match (s.fn u p.target.toNat).st with
    | .draining => some { status := stBusy }
    | .faulted => some { status := stNotStopped }
    | .running => none
    | .stopped => s.startCheck u p.target.toNat
  run := fun u m p => .get fun s => .both
    (.cond ((s.fn u p.target.toNat).st == .stopped) (.startFn u p.target.toNat p.roleN))
    (.reply u m p.tag { status := stOk })

-- stopping functions

/-- A RUNNING function goes DRAINING: it takes no new work (R91, R211, R234, R354). -/
def Prog.beginDrain (u : UnitId) (fid : Nat) : Prog :=
  match fid / 4096 with
  | 1 => .leaves u (fid % 4096)
  | 2 => .htu fun x => { x with stopNo := x.stepNo }
  | 3 => .showSlot (fid % 4096)
  | 4 => .traceStop u
  | 6 => .plannedLeave u (fid % 4096)
  | _ => .skip

/-- A command may stop or reconfigure its target (R117, R350): a collector by its owner; a trace by the partition and role that armed it,
or by PROVIDER, FAULT_MANAGER or OPERATOR. -/
def State.ownsFn (s : State) (u : UnitId) (p : Packet) : Bool :=
  match targetClass p.target with
  | 1 => s.ownsColl u p
  | 4 => s.rd u Reg.TRC_STATUS_PHASE == phaseStopped || [1, 4, 5].contains p.roleN
      || (s.rd u Reg.TRC_STATUS_OWNER == p.part && (s.dev u).trace.role == p.roleN)
  | _ => true

/-- STOP_FUNCTION (R91, R117, R266). -/
def opStop : Op where
  code := 0x04
  v1 := true
  classes := [1, 2, 3, 4, 5, 6]
  plen := (· == 8)
  rsvd := fun _ p => anySet p 4 4
  perms := permConfig
  owner := State.ownsFn
  check := fun s u _ p => firstBad [
    ((s.fn u p.target.toNat).st = .draining, { status := stBusy }),
    (targetClass p.target = 3 ∧ s.svcOf (targetInst p.target) < 8, { status := stBusy })]
  run := fun u m p => .get fun s =>
    let fid := p.target.toNat
    match (s.fn u fid).st with
    | .running => .both (.setFn u fid fun f => { f with st := .draining, stopper := some (m, p.tag), limit := arg p 0 4 })
        (.beginDrain u fid)
    | _ => .seq [.setFn u fid fun f => { f with st := .stopped }, .cond (fid / 4096 == 3) (.showSlot (fid % 4096)),
        .reply u m p.tag { status := stOk }]

/-- The stream of a function, if it has one now. -/
def State.fnStream (s : State) (u : UnitId) (fid : Nat) : Option Nat :=
  let named (v f : Fld) : Option Nat := if s.on u v then some (s.rd u f) else none
  match fid / 4096 with
  | 1 => (s.coll u (fid % 4096)).map (·.stream)
  | 2 => named Reg.SNT_STREAM_VALID Reg.SNT_STREAM_STREAM
  | 4 => named (Reg.TRC_STREAM_VALID (s.rd u Reg.TRC_STATUS_OWNER)) (Reg.TRC_STREAM_STREAM (s.rd u Reg.TRC_STATUS_OWNER))
  | 5 => named Reg.PWR_CTL_VALID Reg.PWR_CTL_STREAM
  | _ => none

/-- A drained function is STOPPED, its stream's open segment closes (R125), and the stop command that waits for it replies OK (R91);
DISARM_COLLECTOR unarms it first (R184). A stopped collector holds no share of the sheaf budget (R201). -/
def Prog.drained (u : UnitId) (fid result : Nat) : Prog := .get fun s =>
  let f := s.fn u fid
  .seq [
    .setFn u fid fun f => { f with st := .stopped, stopper := none, disarm := false },
    .opt (s.fnStream u fid) fun sid => .both (.flushLoss u sid) (.closeChain u sid),
    .cond (fid / 4096 == 1) (.showBudget u),
    .cond (fid / 4096 == 1 && f.disarm) (.unarm u (fid % 4096)),
    .cond (fid / 4096 == 3) (.showSlot (fid % 4096)),
    .cond (u == .htu && fid == fidPower) (.both (.each groups fun g => .wr .htu (Reg.PWR_GRP_CAP_IDX g) 15) .sequence),
    .answer u f.stopper { status := stOk, result }]

/-- The records of a collector that still wait in the transmit queue. -/
def State.collWaiting (s : State) (u : UnitId) (cn : Nat) : Bool := match s.coll u cn with
  | some c => (s.dev u).bulk.any fun q => q.r.stream == c.stream && q.r.die == s.dieId u % 2 ^ 17 && q.r.side == (match u with | .htu => 0 | .vta => 8)
  | none => false

/-- The connections whose only path is this port. -/
def State.stranded (s : State) (u : UnitId) (k : Nat) : List Nat :=
  (portConns u k).filter fun c => (s.conn u c).path == some k &&
    !(let p := connPorts u c; s.pathUsable u (if p.1 = k then p.2 else p.1))

/-- The work in flight of a DRAINING function is done (R91, R234). -/
def State.workDone (s : State) (u : UnitId) (fid : Nat) : Bool :=
  match fid / 4096 with
  | 1 => !s.collWaiting u (fid % 4096)
  | 2 => s.sntOpen.isEmpty
  | 4 => !(s.dev u).trace.queued
  | 5 => match u with
    | .htu => s.hx.budPend == [] && s.hx.budWait == []
    | .vta => s.vx.move.isNone
  | 6 => (s.port u (fid % 4096)).retry == [] && (s.stranded u (fid % 4096)).all fun c => (s.conn u c).tx == []
  | _ => true

/-- The row FUNCTION_DRAINED (R91). -/
def Prog.functionDrained (u : UnitId) (fid : Nat) : Prog := .get fun s =>
  .cond ((s.fn u fid).st == .draining && s.workDone u fid) <|
    match fid / 4096 with
    | 4 => .both (.wr u Reg.TRC_STATUS_PHASE phaseStopped) (.drained u fid 0)
    | 6 => .both (.removePort u (fid % 4096)) (.drained u fid 0)
    | _ => .drained u fid 0

/-- DRAIN_LIMIT ends a port's drain: packets that have no other path are discarded. -/
def Prog.discardPort (u : UnitId) (k : Nat) : Prog := .get fun s =>
  let cs := s.stranded u k
  let tx := cs.flatMap fun c => (s.conn u c).tx
  let recs := (tx.filter fun t => t.vc == 4 || t.vc == 5).filterMap fun t => Rec.ofBytes t.bytes
  let mine := recs.filter fun r => r.die == s.dieId u % 2 ^ 17 && r.unit != 0xF
  .seq [
    .each cs fun c => .modConn u c fun q => { q with tx := [] },
    .each (mine.map Rec.stream).dedup fun sid => .lossOf u sid (mine.filter fun r => r.stream == sid) lossDrain,
    .removePort u k,
    .drained u (fidPort k) tx.length]

/-- The budget shifts that wait are discarded. -/
def Prog.discardBudget (u : UnitId) : Prog := .get fun s =>
  match u with
  | .htu =>
    let cmds := (s.hx.budPend.map fun b => b.2) ++ s.hx.budWait.map fun b => (b.1, b.2.1)
    .seq [.htu fun x => { x with budPend := [], budWait := [] },
      .each cmds fun c => .answer .htu (some c) { status := stAborted }, .drained .htu fidPower cmds.length]
  | .vta => .opt s.vx.move fun w => .both (.endMove w.cmd { status := stAborted }) (.drained .vta fidPower 1)

/-- The row DRAIN_LIMIT_EXPIRY (R91): the remaining work is discarded and counted in RESULT. -/
def Prog.drainLimit (u : UnitId) (fid : Nat) : Prog := .get fun s =>
  .cond ((s.fn u fid).st == .draining && (s.fn u fid).limit != 0) <|
    if s.workDone u fid then .functionDrained u fid
    else match fid / 4096 with
    | 1 => .discardColl u (fid % 4096) (.drained u fid)
    | 2 => .both (.each (s.sntOpen.map StepCtx.no) (.endStep true)) (.drained u fid s.sntOpen.length)
    | 4 => .traceDiscard u
    | 5 => .discardBudget u
    | 6 => .discardPort u (fid % 4096)
    | _ => .drained u fid 0

-- register access by command

/-- The fields that an access of `size` bytes at `off` reaches, with their rows and indexes. -/
def entryFields (u : UnitId) (off size : Nat) : List (Row × List Nat × Fld) :=
  let l := (Row.fields u off).map fun r => (r.1, r.2, r.1.fld off)
  if size = 8 then l ++ (Row.fields u (off + 4)).map fun r => (r.1, r.2, r.1.fld (off + 4)) else l

/-- A size other than 4 or 8, or an offset that is no multiple of it (R94). -/
def badEntry (off size : Nat) : Bool := (size != 4 && size != 8) || off % size != 0

/-- The entry requests a clock switch, by SWITCH or by a change of SRC_PREF, whose target port is not ready (R149, R150). -/
def State.badSwitch (s : State) (u : UnitId) (off : Nat) (v : Nat) : Bool :=
  let w := BitVec.ofNat 64 v
  let pref := Reg.TIM_CTL_SRC_PREF.getW w
  off == 0x2000 && u == .htu && (
    (Reg.TIM_CTL_SWITCH.getW w == 1 && !s.switchReady .htu (s.otherPort .htu))
    || (pref != s.rd .htu Reg.TIM_CTL_SRC_PREF && (pref == 1 || pref == 2) && s.timePort .htu != some (pref - 1)
      && !s.switchReady .htu (pref - 1)))

/-- A register of a collector, slot, trace, stream or archive ring of another partition than the command's, which "own" keeps a TENANT or
ANALYTICS command from (R116). -/
def State.foreignReg (s : State) (u : UnitId) (p : Packet) (off : Nat) : Bool :=
  (p.roleN == roleTenant || p.roleN == roleAnalytics) &&
    (if 0x21000 ≤ off ∧ off < 0x21000 + 16 * (match u with | .htu => 1024 | .vta => 4096) then
        ((s.coll u ((off - 0x21000) / 16)).map fun c => c.part != p.part).getD false
     else if 0x50400 ≤ off ∧ off < 0x50800 then (off - 0x50400) / 4 != p.part
     else if 0x50000 ≤ off ∧ off < 0x50100 then s.rd u Reg.TRC_STATUS_PHASE != 0 && s.rd u Reg.TRC_STATUS_OWNER != p.part
     else if u = .vta ∧ 0x52000 ≤ off ∧ off < 0x52800 then (off - 0x52000) / 8 != p.part
     else if u = .vta ∧ 0x1001000 ≤ off ∧ off < 0x1001400 then
        ((Sparse.find s.vx.slots ((off - 0x1001000) / 64)).map fun c => c.part != p.part).getD false
     else false)

/-- A register of a cluster that the command's partition does not own, written under "own" (R116). -/
def State.foreignCluster (s : State) (u : UnitId) (p : Packet) (off : Nat) : Bool :=
  u == .htu && (p.roleN == roleTenant || p.roleN == roleAnalytics) &&
    (if 0xa1000 ≤ off ∧ off < 0xa1400 then s.owner ((off - 0xa1000) / 4) != p.part
     else if 0xa0000 ≤ off ∧ off < 0xa0880 then s.owner (s.logicalOf ((off - 0xa0000) / 8)) != p.part
     else 0xa3000 ≤ off && off < 0xa3440 && s.owner (s.logicalOf ((off - 0xa3000) / 4)) != p.part)

/-- The status of a CONFIG_WRITE entry that fails, and the cause of the DENIED records that it raises (R92, R94, R149). -/
def State.entryFail (s : State) (u : UnitId) (m : Nat) (p : Packet) (off size v : Nat) : Option (Nat × Nat) :=
  if badEntry off size then some (stBadParam, 0)
  else
    let fs := entryFields u off size
    let why (c : Nat) : Bool := fs.any fun (r, i, f) => s.refusal u (.entry m) (f.off + (if f.lsb ≥ 32 then 4 else 0)) r i == c
    let foreign := fs.any fun (r, i, _) => r.acc == .rw && (match fieldFn r i with
      | some f => f != p.target.toNat
      | none => false)
    if s.badSwitch u off v then some (stNotReady, 0)
    else if why 1 then some (stDenied, 1)
    else if why 4 then some (stDenied, 4)
    else if s.foreignCluster u p off ∨ s.foreignReg u p off then some (stDenied, 0)
    else if foreign then some (stBadParam, 0)
    else if why 3 then some (stNotStopped, 0)
    else if why 5 then some (stDenied, 5)
    else none

/-- The entries of CONFIG_WRITE from index `i` on: the first that fails ends the command (R94). -/
def Prog.writeEntries (u : UnitId) (m : Nat) (p : Packet) : Nat → Nat → Prog
  | _, 0 => .reply u m p.tag { status := stOk }
  | i, n + 1 => .get fun s =>
    let off := arg p (16 * i) 4
    let size := arg p (16 * i + 4) 1
    let v := arg p (16 * i + 8) 8
    match s.entryFail u m p off size v with
    | some (st, cause) => .both (.cond (cause != 0) (.event u 0x0002 (accessPayload off (.entry m) size true cause)))
        (.reply u m p.tag { status := st, detail := i })
    | none => .both (.writeReg u (.entry m) off (size == 8) (BitVec.ofNat 64 v)) (.writeEntries u m p (i + 1) n)

/-- CONFIG_WRITE (R93, R94). -/
def opConfigWrite : Op where
  code := 0x06
  v1 := true
  classes := [0, 1, 2, 3, 4, 5, 6]
  plen := fun n => 16 ≤ n && n ≤ 4080 && n % 16 == 0
  rsvd := fun _ p => (List.range (p.params.length / 16)).any fun i => anySet p (16 * i + 5) 3
  perms := permConfig
  owner := State.ownsFn
  run := fun u m p => .writeEntries u m p 0 (p.params.length / 16)

/-- A CONFIG_READ entry reads a counter source outside the command's filter (R118, R187), or a register of another partition's function
(R116). -/
def State.readDenied (s : State) (u : UnitId) (p : Packet) (off size : Nat) : Bool :=
  let wide := dieWide p.part p.roleN
  (s.foreignReg u p off || size == 8 && s.foreignReg u p (off + 4)) || u == .htu && (List.range (size / 4)).any fun h =>
    let o := off + 4 * h
    let cluster (n : Nat) : Bool := s.owner n != p.part
    if dieWideOff u o then !wide
    else if 0x10800 ≤ o ∧ o < 0x11000 then cluster ((o - 0x10800) / 8)
    else if 0x11000 ≤ o ∧ o < 0x12000 then cluster ((o - 0x11000) / 16)
    else if 0x12000 ≤ o ∧ o < 0x16000 then (o - 0x12000) / 64 != p.part
    else if 0x16000 ≤ o ∧ o < 0x17000 then
      if (o - 0x16000) % 16 < 8 then !wide else cluster ((o - 0x16000) / 16)
    else if 0x18000 ≤ o ∧ o < 0x20000 then
      if (o - 0x18000) / 8 % 16 < 8 then !wide else cluster ((o - 0x18000) / 128)
    else false

/-- Offset and size of a CONFIG_READ entry. -/
def readEntry (p : Packet) (i : Nat) : Nat × Nat := (arg p (8 * i) 4, arg p (8 * i + 4) 1)

/-- The entries of CONFIG_READ from index `i` on, with the bytes read so far. -/
def Prog.readEntries (u : UnitId) (m : Nat) (p : Packet) : Nat → Nat → List Byte → Prog
  | _, 0, out => .reply u m p.tag { status := stOk, data := out }
  | i, n + 1, out =>
    let e := readEntry p i
    .both (.readReg u (.entry m) e.1 (e.2 == 8)) <| .get fun s =>
      .readEntries u m p (i + 1) n (out ++ le 8 ((s.dev u).bus.toNat % 2 ^ (8 * e.2)))

/-- CONFIG_READ (R93, R94, R118, R187). -/
def opConfigRead : Op where
  code := 0x07
  v1 := true
  classes := [0, 1, 2, 3, 4, 5, 6]
  plen := fun n => 8 ≤ n && n ≤ 2040 && n % 8 == 0
  rsvd := fun _ p => (List.range (p.params.length / 8)).any fun i => anySet p (8 * i + 5) 3
  perms := permConfig
  async := false
  data := fun p => p.params.length
  check := fun s u _ p =>
    let l := List.range (p.params.length / 8)
    match l.find? fun i => badEntry (readEntry p i).1 (readEntry p i).2 with
    | some i => some (badParam i)
    | none => (l.find? fun i => s.readDenied u p (readEntry p i).1 (readEntry p i).2).map fun i => { status := stDenied, detail := i }
  run := fun u m p => .get fun s => .both
    (.readEntries u m p 0 (p.params.length / 8) [])
    (.dev u fun d => { d with bus := (s.dev u).bus })

end Sys2Proof.Machine
end

