-- ==== Sys2Proof/Machine/Policy.lean ====
section
/-! DEFINITION. Signed policy (R119 to R123): the image that POLICY_LOAD assembles, its checks, and what its application does. -/

namespace Sys2Proof.Machine

-- the image

/-- MAGIC of a policy image (R121). -/
def policyMagic : Nat := 0x50434C50

/-- Section types that a unit uses (R121). -/
def sectionTypes : UnitId → List Nat
  | .htu => [1, 2, 3, 4, 6, 9, 10, 11]
  | .vta => [2, 4, 5, 6, 7, 8, 10, 11, 12]

/-- The sections of an image from byte `a` to `z`: types and bodies; `none` where a header is malformed. -/
def policySections (b : List Byte) (z : Nat) : Nat → Nat → Option (List (Nat × List Byte))
  | 0, a => if a = z then some [] else none
  | n + 1, a =>
    let len := fieldAt b (a + 4) 4
    if a + 8 + len > z ∨ len % 8 ≠ 0 then none
    else (policySections b z n (a + 8 + len)).map fun l => (fieldAt b a 2, cut b (a + 8) len) :: l

/-- The entries of a REGISTERS section: offset, size, value (R121). -/
def policyRegs (b : List Byte) : List (Nat × Nat × Word) :=
  (List.range (b.length / 16)).map fun i =>
    (fieldAt b (16 * i) 4, fieldAt b (16 * i + 4) 1, BitVec.ofNat 64 (fieldAt b (16 * i + 8) 8))

/-- Types that rise strictly, so that each stands once and in order. -/
def rising : List Nat → Bool
  | a :: b :: t => decide (a < b) && rising (b :: t)
  | _ => true

/-- The state with the REGISTERS entries of a policy in its registers: what the policy would put in force. -/
def State.withEntries (s : State) (u : UnitId) (regs : List (Nat × Nat × Word)) : State :=
  regs.foldl (fun (s : State) (e : Nat × Nat × Word) =>
    let off := e.1 / 8 * 8
    let mask : Word := if e.2.1 = 8 then BitVec.allOnes 64 else if e.1 % 8 = 4 then 0xFFFFFFFF00000000 else 0xFFFFFFFF
    let data : Word := if e.2.1 = 8 then e.2.2 else if e.1 % 8 = 4 then e.2.2 <<< 32 else e.2.2 &&& 0xFFFFFFFF
    s.wr u ⟨off, 0, 64⟩ (s.writeWord u .gorse off mask data).1.toNat) s

/-- The archive rings are apart from each other and within the 8,160 granules (TRC_ARCH_PART). -/
def State.ringsOk (s : State) : Bool :=
  let ring (p : Nat) : Nat × Nat := (s.rd .vta (Reg.TRC_ARCH_PART_FIRST p), s.rd .vta (Reg.TRC_ARCH_PART_COUNT p))
  let rings := ((List.range 256).filter fun p => s.on .vta (Reg.TRC_ARCH_PART_VALID p) && (ring p).2 != 0).map ring
  (rings.all fun r => r.1 + r.2 ≤ 8160) && decide (rings.Pairwise fun a b => a.1 + a.2 ≤ b.1 ∨ b.1 + b.2 ≤ a.1)

/-- The minima of a unit's scheduler sum to at most 100 at each level (R388). -/
def State.minimaOk (s : State) (u : UnitId) : Bool :=
  ((List.range 256).map fun p => s.rd u (Reg.SCH_PART_MIN_PCT p)).sum ≤ 100 && ((List.range 6).map fun v => s.rd u (Reg.SCH_SVC_MIN_PCT v)).sum ≤ 100

/-- The stream IDs that the registers of R446 name with VALID set. -/
def State.namedStreams (s : State) (u : UnitId) : List Nat :=
  (([0x2030, 0x30018, 0x40000, 0xc0020] ++ ((List.range 8).map fun v => 0x1002000 + 32 * v) ++ ((List.range 128).map fun n => 0x50400 + 8 * n)).flatMap
    (regStreams u)).filterMap fun (r : RegStream) => if s.on u r.valid then some (s.rd u r.stream) else none

/-- No stream ID is named by two registers of R446, or by one of them and a collector: one that keeps its stream under the policy, or one
that the policy arms. -/
def State.streamsOk (s : State) (u : UnitId) (new : List PolCollector) : Bool :=
  let l := s.namedStreams u
  let kept := ((s.dev u).colls.filter fun e => !e.2.gorse).map fun e => e.2.stream
  let armed := (new.map fun c => fieldAt c.params 0 2).filter (· != 0xFFFF)
  decide l.Nodup && !(kept ++ armed).any fun i => l.contains i

/-- The register values that a policy would put in force break none of the relations that Gorse holds a policy to: archive rings, the
scheduler's minima (R388), stream IDs (R446), the search shares (R292), and NOTIFY < PROB < QUAR (VTA_FLT_THR). -/
def State.relationsOk (s : State) (u : UnitId) (body : PolicyBody) : Bool :=
  let s' := s.withEntries u body.regs
  let thr (f : Fld) : Int := toSigned 32 (s'.rd .vta f)
  s'.minimaOk u && s'.streamsOk u body.collectors && (u == .htu || (s'.ringsOk
    && s'.rd .vta Reg.HTR_SHARE_SVC_MIN + s'.rd .vta Reg.HTR_SHARE_RUN_MIN ≤ 100
    && thr Reg.VTA_FLT_THR_NOTIFY_THR < thr Reg.VTA_FLT_THR_PROB_THR && thr Reg.VTA_FLT_THR_PROB_THR < thr Reg.VTA_FLT_THR_QUAR_THR))

/-- A unit holds at most so many partition numbers at once, 0 among them (R37). -/
def partsOk (u : UnitId) (body : PolicyBody) : Bool :=
  decide (((0 :: body.partitions).dedup).length ≤ match u with | .htu => 64 | .vta => 256)

/-- A gate-control list that may come into force (R436): at most 16 entries, none of which closes TC6 or TC7, and a cycle of 1 µs to 1 s. -/
def qbvOk (l : QbvList) : Bool :=
  decide (l.entries.length ≤ 16 ∧ 1 ≤ l.cycle ∧ l.cycle ≤ 1000000) && l.entries.all fun e => e.gates.getLsbD 6 && e.gates.getLsbD 7

/-- The content of an image's sections: unknown, repeated, out of order or malformed ones give none (R121). -/
def State.policyContent (s : State) (u : UnitId) (b : List Byte) : Option PolicyBody :=
  match policySections b (b.length - Config.sigBlockLen b) (fieldAt b 16 2) 32, Config.policyBody b with
  | some l, some body =>
    let regs := policyRegs (((l.find? fun e => e.1 == 10).map (·.2)).getD [])
    let grw (e : Nat × Nat × Word) : Bool := !badEntry e.1 e.2.1 && (entryFields u e.1 e.2.1).any fun f => f.1.acc == .grw
    let svnOk := match body.svn with
      | some v => s.rd u Reg.SEC_SVN_PATCH_SVN ≤ v.1 && s.rd u Reg.SEC_SVN_BRACKEN_SVN ≤ v.2
      | none => true
    let types := l.map fun e => e.1
    if rising types && (types.all fun t => (sectionTypes u).contains t) && (l.all fun e => e.1 != 10 || e.2.length % 16 == 0)
      && regs.all grw && svnOk && partsOk u body && (u == .htu || body.qbv.all fun e => qbvOk e.2) && s.relationsOk u { body with regs } then some { body with regs } else none
  | _, _ => none

/-- The scope names this unit (R121); an HTU without a die ID takes the die ID that the image gives it. -/
def State.scopeOk (s : State) (u : UnitId) (scope : Nat) (body : Option PolicyBody) : Bool :=
  match u with
  | .vta => scope == 2 ^ 31 + Config.vtaAddr.toNat * 64
  | .htu => scope < 2 ^ 17 && (if s.policy .htu then scope == s.dieId .htu else (body.bind (·.dieId)) == some scope)

/-- The checks of R121 on a whole image, in the order of their details; the epoch is judged only while TIMEV is 1 (R122). -/
def State.policyFail (s : State) (u : UnitId) (b : List Byte) : Option Ans :=
  let n := Config.sigBlockLen b
  let body := s.policyContent u b
  let d := serialDiff 32 (fieldAt b 12 4) (s.epoch u)
  firstBad [
    (!Config.sigVerifies Config.providerRoot (b.take (b.length - n)) (b.drop (b.length - n)), badParam 0x100),
    (!s.scopeOk u (fieldAt b 8 4) (Config.policyBody b), badParam 0x101),
    (fieldAt b 4 4 ≤ s.rd u Reg.SEC_POLICY_VER_VERSION, badParam 0x102),
    (s.timev u && (d < 2 || 2 ^ 31 ≤ d), badParam 0x103),
    (b.length < 32 + n || fieldAt b 0 4 != policyMagic || body.isNone, badParam 0x104)]

-- applying

/-- A LOSS record marks the gap of a stream whose function was stopped and restarted (R122, R395). It covers one sequence number and counts
no record (DESIGN CHOICE, log entry 34: R122 gives its range no extent). -/
def Prog.markGap (u : UnitId) (sid : Nat) : Prog := .get fun s =>
  .opt (Sparse.find (s.dev u).streams sid) fun st => .cond (s.assigned u) <| .seq [
    .put u sid { s.header u sid st none with typ := 1, loss := true, seq := st.seq, payload := lossPayload st.seq st.seq 0 lossRestart },
    .modStream u sid fun t => { t with seq := (t.seq + 1) % 2 ^ 32 },
    .closeFull u sid]

/-- The RUNNING functions that a policy's register entries and Sentinel settings reach. -/
def State.touched (s : State) (u : UnitId) (b : PolicyBody) : List Nat :=
  (((if u = .htu ∧ b.sentinel.isSome then [fidSentinel] else [])
    ++ b.regs.flatMap fun e => (entryFields u e.1 e.2.1).filterMap fun f => fieldFn f.1 f.2.1).dedup).filter fun f =>
    (s.fn u f).st == .running

/-- A RUNNING function stops for a change of policy, with its work in flight done (R92, R122). -/
def Prog.halt (u : UnitId) (fid : Nat) : Prog := .seq [
  .setFn u fid fun f => { f with st := .draining }, .beginDrain u fid,
  .cond (fid / 4096 == 4) (.wr u Reg.TRC_STATUS_PHASE phaseStopped),
  .drained u fid 0]

/-- A function stopped for a change of policy runs again and marks the gap of its stream (R92, R122). -/
def Prog.resume (u : UnitId) (fid : Nat) : Prog := .get fun s => .cond ((s.fn u fid).st == .stopped && (s.startCheck u fid).isNone) <|
  .both (.startFn u fid (s.dev u).trace.role) (.opt (s.fnStream u fid) (.markGap u))

/-- A schedule of partitions that REGISTERS entries ask for stands only with time, no other change pending, and a PEND_EPOCH at least 2
beyond the current epoch (R119). -/
def State.scheduleOk (s : State) (regs : List (Nat × Nat × Word)) : Bool :=
  let ep := (s.withEntries .htu regs).rd .htu Reg.SEC_PART_EPOCH_PEND_EPOCH
  let d := serialDiff 32 ep (s.epoch .htu)
  s.timev .htu && 2 ≤ d && d < 2 ^ 31 && !(List.range 256).any fun n => s.on .htu (Reg.SEC_CLUSTER_PART_PEND_VALID n)

/-- The REGISTERS entries that take effect: a refused schedule of partitions is left out (R119). -/
def State.regsTaken (s : State) (u : UnitId) (regs : List (Nat × Nat × Word)) : List (Nat × Nat × Word) :=
  let pend (e : Nat × Nat × Word) : Bool := u == .htu && 0x81000 ≤ e.1 && e.1 < 0x81408
  if regs.any pend && !s.scheduleOk regs then regs.filter fun e => !pend e else regs

/-- Gorse arms the collector that policy names (R95, R117, R120): its sheaf settings, then the ARM_COLLECTOR parameters. A collector whose
parameters fail the checks is left unarmed. -/
def Prog.policyArm (u : UnitId) (c : PolCollector) : Prog :=
  let p : Packet := { flags := 0, tag := 0, target := BitVec.ofNat 16 (fidCollector c.cid), partition := BitVec.ofNat 8 c.part
                      role := 1, rsvd := 0, seq := 0, params := c.params }
  .cond (validTarget u 1 c.cid) <| .seq [
    .unarm u c.cid,
    .writeReg u .gorse (Reg.SHF_COLL_SHEAF_ID c.cid).off true c.shf,
    .writeReg u .gorse (Reg.SHF_COLL_P0 c.cid).off true c.p0,
    .get fun s => .cond ((s.armCheck u c.part 1 true p).isNone && (s.armLate u c.part p).isNone) (.arm u c.part 1 0 true p none)]

/-- The collectors that Gorse arms follow the policy (R117, R121, R122): one that policy no longer names is unarmed, a changed one is
re-armed and marks the gap, an unchanged one runs on. -/
def Prog.policyColls (u : UnitId) (old new : List PolCollector) : Prog := .get fun s =>
  let mine := (s.dev u).colls.filter fun e => e.2.gorse
  .both
    (.each (mine.filter fun e => !new.any fun c => c.cid == e.1) fun e => .unarm u e.1)
    (.each (new.filter fun c => !(old.contains c && mine.any fun e => e.1 == c.cid)) fun c =>
      .both (.policyArm u c) <| .cond (mine.any fun e => e.1 == c.cid) <| .get fun s =>
        .opt (s.fnStream u (fidCollector c.cid)) (.markGap u))

/-- The cluster assignment of a policy is scheduled for its apply epoch (R119), unless a change is scheduled already. -/
def Prog.assignClusters (parts : List Nat) (ep : Nat) : Prog := .get fun s =>
  .cond (!(List.range 256).any fun n => s.on .htu (Reg.SEC_CLUSTER_PART_PEND_VALID n)) <| .both
    (.wr .htu Reg.SEC_PART_EPOCH_PEND_EPOCH ep)
    (.each ((List.range 256).filter fun n => parts.getD n 0 != s.owner n) fun n => .both
      (.wr .htu (Reg.SEC_CLUSTER_PART_PEND_PART n) (parts.getD n 0)) (.wr .htu (Reg.SEC_CLUSTER_PART_PEND_VALID n) 1))

/-- A partition that policy removes loses its energy accumulators (R179). -/
def Prog.dropPartition (p : Nat) : Prog := .seq [
  .wr .htu (Reg.TAP_EN_PART_UJ p) 0, .each (List.range 6) fun q => .wr .htu (Reg.TAP_EN_QUEUE_UJ p q) 0,
  .htu fun x => { x with fracE := x.fracE.filter fun e => e.1 / 8 != p }]

/-- The parts of a policy that only the HTU uses. -/
def Prog.policyHtu (old : Option PolicyBody) (b : PolicyBody) : Prog := .get fun s => .seq [
  .each (((old.map (·.partitions)).getD []).filter fun p => !b.partitions.contains p) .dropPartition,
  .each (List.range (min 8 b.sliceCodes.length)) fun j => .each (List.range 256) fun n =>
    .setSlice n j (b.sliceCodes.getD j 0xFF).toNat,
  .opt b.sentinel fun bytes =>
    let p : Packet := { flags := 0, tag := 0, target := 0x2000, partition := 0, role := 1, rsvd := 0, seq := 0, params := bytes }
    let idle := { s with h := { s.h with fns := Sparse.mod {} s.h.fns fidSentinel fun f => { f with st := .stopped } } }
    .cond (bytes.length == 16 && (opSentinelConfig.check idle .htu 0 p).isNone) (.sentinelSet p),
  .wr .htu Reg.HTU_STATUS_POLICY 1]

/-- The parts of a policy that only the VTA uses (R28, R307, R429). -/
def Prog.policyVta (b : PolicyBody) : Prog := .get fun s => .seq [
  .opt b.budget fun l => .seq [
    .wr .vta Reg.VTA_FLT_BUDGET_AT_ONCE l.1, .wr .vta Reg.VTA_FLT_BUDGET_PER_DAY l.2, .showBudgetDay],
  .vta fun x => { x with roles := b.roles.map fun r =>
    { level := r.1, holder := r.2.1, standby := r.2.2, since := s.ns .vta
      prev := ((x.roles.find? (·.level == r.1)).map (·.holder)).getD r.2.1 } },
  .opt b.imageSet fun i => .evr .vta fun v => { v with images := some i },
  .vtaStatus Reg.VTA_STATUS_POLICY 1]

/-- An accepted image takes effect (R119 to R122). -/
def Prog.applyPolicy (u : UnitId) (version ep : Nat) (b : PolicyBody) (image : List Byte) : Prog := .get fun s =>
  let old := s.polBody u
  let changed := s.touched u b
  .seq [
    .each changed (.halt u),
    .dev u fun d => { d with pol := { d.pol with body := some b, pend := none } },
    .wr u Reg.SEC_POLICY_VER_VERSION version, .wr u Reg.SEC_STATE_POLICY_IN_FORCE 1,
    .evr u fun v => { v with policy := some image },
    .opt b.svn fun x => .seq [
      .dev u fun d => { d with svn := some x }, .wr u Reg.SEC_SVN_PATCH_SVN x.1, .wr u Reg.SEC_SVN_BRACKEN_SVN x.2, .measureFuses u],
    match u with
    | .htu => .policyHtu old b
    | .vta => .policyVta b,
    .get fun s => .each (s.regsTaken u b.regs) fun e => .writeReg u .gorse e.1 (e.2.1 == 8) e.2.2,
    .each changed (.resume u),
    .cond (u == .htu && !s.timev .htu) <| .opt b.clusters fun l => .both (.assignClusters l ep) .applyPartitions,
    .policyColls u ((old.map (·.collectors)).getD []) b.collectors,
    .get fun s => .each (b.startFns.filter fun f => (s.fn u f).st == .stopped && validTarget u (f / 4096) (f % 4096)
      && (s.startCheck u f).isNone) fun f => .startFn u f 1,
    .measure u 4 (Config.sha384 (le 4 version ++ image))]

/-- An image that passed its checks waits for its apply epoch, or takes effect at once while TIMEV is 0 (R122). -/
def Prog.acceptPolicy (u : UnitId) (version ep : Nat) (b : PolicyBody) (image : List Byte) : Prog := .get fun s =>
  if s.timev u then .both
    (.dev u fun d => { d with pol := { d.pol with pend := some (version, ep, b, image) } })
    (.cond (u == .htu) (.opt b.clusters fun l => .assignClusters l ep))
  else .applyPolicy u version ep b image

/-- The row POLICY_APPLY (R122). -/
def Prog.policyApply (u : UnitId) : Prog := .get fun s =>
  .opt (s.dev u).pol.pend fun (version, ep, b, image) =>
    .cond (s.gorseUp u && s.timev u && serialGe 32 (s.epoch u) ep) (.applyPolicy u version ep b image)

/-- The row POLICY_START_APPLY (R62 step 7, R122, R428 step 11): the stored image is reapplied, its apply epoch replaced by the next epoch
plus 2. -/
def Prog.policyStart (u : UnitId) : Prog := .get fun s =>
  let opened := match u with
    | .htu => s.on .htu Reg.HTU_STATUS_MBX0_OPEN && s.rd .htu Reg.HTU_STATUS_BOOT_FAIL == 0
    | .vta => s.on .vta Reg.VTA_STATUS_PCIE_OPEN && s.rd .vta Reg.VTA_STATUS_BOOT_FAIL != 5
  .cond (s.gorseUp u && opened && !s.policy u && (s.dev u).pol.pend.isNone) <| .opt (s.dev u).evr.policy fun b =>
    .opt (s.policyContent u b) fun body => .acceptPolicy u (fieldAt b 4 4) ((s.epoch u + 3) % 2 ^ 32) body b

-- POLICY_LOAD

/-- Largest image (R123). -/
def State.policyLimit (s : State) (u : UnitId) : Nat := match u with
  | .htu => 2 ^ 18
  | .vta => if s.on .vta Reg.VTA_STATUS_DDR_READY then 2 ^ 24 else 2 ^ 19

/-- The next expected offset of the assembly under way. -/
def Pol.expected (p : Pol) : Nat := match p.asm with
  | some a => a.2.2.length
  | none => 0

/-- A portion joins the assembly; the LAST one has the whole image checked (R121, R123). TOTAL counts in the first portion only, a portion
without LAST may run past it, and a LAST one that misses it returns its own OFFSET as the next expected offset, to be sent again (DESIGN
CHOICE, log entry 34: R123 states none of the three). -/
def Prog.policyPortion (u : UnitId) (m : Nat) (p : Packet) : Prog := .get fun s =>
  let pol := (s.dev u).pol
  let off := arg p 4 4
  let bytes := (if off = 0 then [] else (pol.asm.map fun a => a.2.2).getD []) ++ p.params.drop 16
  let total := if off = 0 then arg p 0 4 else ((pol.asm.map fun a => a.2.1).getD 0)
  let keep (l : List Byte) : Prog := .dev u fun d => { d with pol := { d.pol with asm := some (m, total, l) } }
  if !(arg p 8 1).testBit 0 then .both (keep bytes) (.reply u m p.tag { status := stOk, result := bytes.length })
  else if bytes.length ≠ total then .both (keep (bytes.take off)) (.reply u m p.tag (badParam 0x105 off))
  else .both (.dev u fun d => { d with pol := { d.pol with asm := none } }) <|
    match s.policyFail u bytes with
    | some a => .reply u m p.tag a
    | none => .both
        (.opt (s.policyContent u bytes) fun b => .acceptPolicy u (fieldAt bytes 4 4) (fieldAt bytes 12 4) b bytes)
        (.reply u m p.tag { status := stOk })

/-- POLICY_LOAD (R121 to R123). -/
def opPolicyLoad : Op where
  code := 0x81
  plen := fun n => 24 ≤ n && n ≤ 4096
  rsvd := fun _ p => arg p 8 1 / 2 != 0 || anySet p 9 7
  perms := permPolicy
  check := fun s u m p =>
    let pol := (s.dev u).pol
    let other := match pol.asm with
      | some a => a.1 != m
      | none => false
    firstBad [
      (arg p 0 4 > s.policyLimit u, badParam 0x106),
      (!other && arg p 4 4 != 0 && arg p 4 4 != pol.expected, badParam 0x105 pol.expected),
      (pol.pend.isSome || other, { status := stBusy })]
  late := fun s u _ _ => if s.timev u = false ∧ s.policy u = true then some { status := stTimeInvalid } else none
  run := .policyPortion

/-- The row POLICY_ASSEMBLY_TIMEOUT (R123). -/
def Prog.policyTimeout (u : UnitId) : Prog := .dev u fun d => { d with pol := { d.pol with asm := none } }

end Sys2Proof.Machine
end

