-- ==== Sys2Proof/Machine/Boot.lean ====
section
/-! DEFINITION. Resets and start-up of both units (R39, R62 to R65, R106, R426 to R428), and the VTA as a device: its reference, PCIe link,
temperatures and uplink gates (R424 to R443). -/

namespace Sys2Proof.Machine

-- what a reset leaves

/-- The recorder after a reset: flash and journal stay, the staging buffer is lost (R64, R416, R418); the retained flag stays but for a
power-up. -/
def Evr.afterReset (powerUp : Bool) (v : Evr) : Evr :=
  { v with staged := [], dropped := 0, recent := [], slots := [], bucketT := 0, baseHours := v.jHours, retLock := v.retLock && !powerUp }

/-- The common part of a unit after a reset (R15, R64, R373): its connection number counts the reset, and burned fuses stay (R109). -/
def Dev.afterReset (powerUp : Bool) (d : Dev) : Dev :=
  { connNo := d.connNo + 1, evr := d.evr.afterReset powerUp, rsk := d.rsk, spdmNo := d.spdmNo, svn := d.svn, out := d.out }

/-- The groups that the waves of a release have still to release (R44, R343). -/
def Release.rest (r : Release) : BitVec 16 :=
  if !r.begun then 0xFFFF else (List.range r.waves).foldl (fun m w => if r.wave ≤ w then m ||| { r with wave := w }.mask else m) 0

/-- HOST_RST asserts (R64, R65, R90, R170, R263, R348): every part of the HTU is reset but the retained flags of R345, which a power-up
clears too. No release is dropped: the groups still to be released are released without waves (R43, R44). The interrupt lines go low (R43). -/
def Prog.hostRst (powerUp : Bool) : Prog := .get fun s => .seq [
  .each s.hx.rels fun r => .send .htu (.barrierRel r.rest),
  .each ((List.range 2).filter (s.irqLine .htu)) fun m => .send .htu (.irq m false),
  .clearRegs .htu (if powerUp then [] else [Reg.PWR_BO_RET_RET_VALID.off, Reg.PWR_BO_RET_T_ENTRY.off]),
  .dev .htu (Dev.afterReset powerUp),
  .htu fun x => { idle := x.idle, droop := x.droop, selftests := x.selftests }]

/-- A fundamental reset (R426): every block of the VTA is reset; the DDR5 keeps its contents unless power was off. A written DDR_T waits
for the initialisation of the DDR5 (R403). -/
def Prog.vtaReset (powerOn : Bool) : Prog := .get fun s => .seq [
  .cond (s.irqLine .vta 8) (.send .vta (.irq 8 false)),
  .clearRegs .vta [],
  .cond (!powerOn) (.wr .vta Reg.MEM_BCH_CFG_DDR_T (s.rd .vta Reg.MEM_BCH_CFG_DDR_T)),
  .clearMem powerOn,
  .dev .vta (Dev.afterReset powerOn),
  .vta fun x => {
    arch := if powerOn then [] else x.arch, archPos := if powerOn then [] else x.archPos, refresh2 := x.refresh2, selfRef := x.selfRef && !powerOn, refHeld := x.refHeld
    thermTrip := x.thermTrip && !powerOn }]

-- steps that both units make

/-- Fused values that the flash and the repairs have changed (R104, R121, R410). -/
def Prog.showFuses (u : UnitId) : Prog := .get fun s => .seq [
  .opt (s.dev u).svn fun v => .both (.wr u Reg.SEC_SVN_PATCH_SVN v.1) (.wr u Reg.SEC_SVN_BRACKEN_SVN v.2),
  .wr u Reg.MEM_BCH_CFG_REPAIR_LEFT ((Config.bchFuse u).2.1.toNat - (s.dev u).evr.used 1)]

/-- Gorse opens the recorder (R62 step 4, R411, R413, R418): it formats a blank flash, counts the power cycle of a cold start, and writes
the records that retained flags mark (R106, R347). -/
def Prog.openRecorder (u : UnitId) (cold blank : Bool) : Prog := .seq [
  .cond blank (.evr u fun v => { staged := v.staged, recent := v.recent, slots := v.slots, retLock := v.retLock }),
  .cond cold (.evr u fun v => { v with jCycles := min (v.jCycles + 1) (2 ^ 24 - 1) }),
  .get fun s => .cond (s.dev u).evr.retLock <| .both (.eventRetained u 0x0801 (le 1 (s.rd u Reg.SEC_STATE_MISMATCHES) ++ zeros 7))
    (.evr u fun v => { v with retLock := false }),
  .get fun s => .cond (u == .htu && s.on .htu Reg.PWR_BO_RET_RET_VALID) <| .both
    (.eventRetained .htu 0x0402 (brownoutPayload (s.rd .htu Reg.PWR_BO_RET_RAIL) true (s.on .htu Reg.PWR_BO_RET_TIMEV) 0 0 0
      (s.rd .htu Reg.PWR_BO_RET_T_ENTRY)))
    (.wr .htu Reg.PWR_BO_RET_RET_VALID 0)]

/-- Bracken images are measured and checked, and start or are rejected (R104, R110); one that faulted twice stays stopped (R105). -/
def Prog.startBrackens (u : UnitId) (b : BootRun) : Prog :=
  let images := (List.range (brackenCount u)).map fun g => b.brackens.getD g {}
  .both
    (.measure u 5 (match u with
      | .htu => (images.headD {}).digest
      | .vta => Config.sha384 (images.flatMap fun i => digestBytes i.digest)))
    (.each images.zipIdx fun (i, g) => .get fun s =>
      let reject (cause : Nat) : Prog := .event u 0x0802 (le 1 g ++ le 1 cause ++ zeros 6)
      if !i.signed then reject 1
      else if i.svn < s.rd u Reg.SEC_SVN_BRACKEN_SVN then reject 2
      else .cond ((s.brk u g).faults < 2) (.modBrk u g fun x => { x with running := true }))

-- the HTU

/-- Step 5 of R62: patches, keys, and control of the outputs (R63, R107 to R109). -/
def Prog.htuStep5 (b : BootRun) : Prog := .both (.deriveDevice .htu) <| .get fun s =>
  if b.fail = 5 ∨ !s.patchesOk .htu b then .seq [.wr .htu Reg.HTU_STATUS_BOOT_FAIL 5, .wr .htu Reg.HTU_STATUS_MBX0_OPEN 1, .openMbx .htu 0]
  else .seq [
    .deriveAlias .htu b, .newKey .htu,
    .wr .htu Reg.HTU_STATUS_BOUNDARY_LIVE 1, .wr .htu Reg.HTU_STATUS_MBX0_OPEN 1, .openMbx .htu 0, .irqEdge .htu 0 s,
    .startBrackens .htu b, .powerLive, .sequence]

/-- Step 4 of R62: the recorder opens, and station retirements are reapplied (R410, R447). -/
def Prog.htuStep4 (cold : Bool) (b : BootRun) : Prog :=
  if b.fail = 4 then .wr .htu Reg.HTU_STATUS_BOOT_FAIL 4
  else .seq [
    .openRecorder .htu cold b.blank,
    .wr .htu Reg.HTU_STATUS_RECORDER_OPEN 1,
    .cond cold <| .get fun s => .both (.each s.h.evr.retired fun n => .wr .htu (Reg.TAP_PHYS_STATE n) phRetired) .startMap,
    .htuStep5 b]

/-- Step 3 of R62: the Gorse pair starts. -/
def Prog.htuStep3 (cold : Bool) (b : BootRun) : Prog :=
  if b.fail = 1 ∨ b.fail = 2 then .wr .htu Reg.HTU_STATUS_BOOT_FAIL b.fail
  else .both (.wr .htu Reg.HTU_STATUS_GORSE_UP 1) (.htuStep4 cold b)

/-- The row HTU_START (R62, R63, R90, R106): the start-up after HOST_RST deasserts, or from step 3 after a lockstep mismatch. -/
def Prog.htuStart (b : BootRun) : Prog := .get fun s =>
  if s.h.inReset then .seq [
    .dev .htu fun d => { d with inReset := false },
    .showFuses .htu,
    .wr .htu Reg.HTU_STATUS_FUSES 1,
    if b.fail = 3 then .wr .htu Reg.HTU_STATUS_BOOT_FAIL 3
    else .seq [
      .wr .htu Reg.HTU_STATUS_MEM_INIT 1,
      .each [0, 1] fun k => .setFn .htu (fidPort k) fun f => { f with st := .running },
      .htuStep3 true b]]
  else .cond (!s.gorseUp .htu && s.on .htu Reg.HTU_STATUS_MEM_INIT && [0, 4, 5].contains (s.rd .htu Reg.HTU_STATUS_BOOT_FAIL))
    (.both (.wr .htu Reg.HTU_STATUS_BOOT_FAIL 0) (.htuStep3 false b))

/-- A rail of the HTU falls below VRESET_MV (R345): HTU_VDD resets the unit. -/
def Prog.vresetRail (rail : Nat) : Prog := .get fun s =>
  .cond (s.rd .htu Reg.PWR_BO_STATE == 1) (.both .vreset (.cond (rail == 16) (.hostRst false)))

-- the VTA

/-- Mailboxes 0 to 7 open with the PCIe link (R428, R432). -/
def Prog.openPcie : Prog := .both (.each (List.range 8) (.openMbx .vta)) (.vtaStatus Reg.VTA_STATUS_PCIE_OPEN 1)

/-- Retirements of the flash's control area are reapplied (R298, R410, R422), and the engine's banks become ACTIVE (R299). -/
def Prog.initEngines : Prog := .get fun s =>
  let gone (k : Nat) : List Nat := (s.v.evr.remaps.filter fun e => e.1 == k).map fun e => e.2.2
  .seq [
    .each (List.range 64) fun b => .wr .vta (Reg.HTR_BANK_STATE b) (if (gone 4).contains b then 1 else 0),
    .each (gone 5) fun a => .wr .vta (Reg.HTH_ARRAY_STATE a) 2,
    .each (gone 6) .retireCore,
    .wr .vta Reg.HTH_STATUS_RETIRED (gone 5).length, .wr .vta Reg.HTH_STATUS_ACTIVE (8 - (gone 5).length),
    .wr .vta Reg.HTR_STATUS_INIT_DONE 1,
    .showBanks]

/-- Step 9 of R428: the sward groups start. -/
def Prog.vtaStep9 (b : BootRun) : Prog := .both (.startBrackens .vta b) <| .get fun s =>
  .cond (s.v.brks.any fun e => e.2.running) (.vtaStatus Reg.VTA_STATUS_BRACKEN_UP 1)

/-- Step 8 of R428: the DDR5 trains (R403, R425, R433); without it the VTA goes on. -/
def Prog.vtaStep8 (b : BootRun) : Prog := .both
  (if b.fail = 7 then .vtaStatus Reg.VTA_STATUS_BOOT_FAIL 7
    else .get fun s => .seq [
      .vta fun x => { x with ddrT := s.rd .vta Reg.MEM_BCH_CFG_DDR_T, selfRef := false },
      .vtaStatus Reg.VTA_STATUS_DDR_SLOW b.slow.toNat, .vtaStatus Reg.VTA_STATUS_DDR_READY 1])
  (.vtaStep9 b)

/-- Step 7 of R428: patches and keys; the PCIe link opens its mailboxes (R107 to R109). A restart after a lockstep mismatch reopens the
mailboxes that its agents still serve (R106). -/
def Prog.vtaStep7 (cold : Bool) (b : BootRun) : Prog := .both (.deriveDevice .vta) <| .get fun s =>
  if b.fail = 5 ∨ !s.patchesOk .vta b then .seq [.vtaStatus Reg.VTA_STATUS_BOOT_FAIL 5, .vta fun x => { x with pcieUp := x.pcieUp || cold },
    .get fun s => .cond s.vx.pcieUp .openPcie]
  else .seq [
    .deriveAlias .vta b, .newKey .vta, .vta fun x => { x with pcieUp := x.pcieUp || cold },
    .get fun s => .both (.cond s.vx.pcieUp .openPcie)
      (.cond (s.v.brks.any fun e => e.2.running) (.openMbx .vta 8)),
    .cond cold (.vtaStep8 b)]

/-- Steps 5 and 6 of R428: the Gorse pair and the recorder. -/
def Prog.vtaStep5 (cold : Bool) (b : BootRun) : Prog :=
  if b.fail = 1 ∨ b.fail = 2 then .vtaStatus Reg.VTA_STATUS_BOOT_FAIL b.fail
  else .both (.vtaStatus Reg.VTA_STATUS_GORSE_UP 1) <|
    if b.fail = 4 then .vtaStatus Reg.VTA_STATUS_BOOT_FAIL 4
    else .seq [
      .openRecorder .vta cold b.blank,
      .vtaStatus Reg.VTA_STATUS_RECORDER_OPEN 1,
      .cond cold .initEngines,
      .showBudgetDay,
      .vtaStep7 cold b]

/-- Steps 3 and 4 of R428: the PLLs, the Furrow ports and the memories. -/
def Prog.vtaStep3 (b : BootRun) : Prog := .seq [
  .wr .vta Reg.VTA_CLK_PLL_RDY 0x1FF,
  .pllGained .vta 64,
  .each (List.range 64) fun k => .setFn .vta (fidPort k) fun f => { f with st := .running },
  if b.fail = 3 then .vtaStatus Reg.VTA_STATUS_BOOT_FAIL 3
  else .both (.vtaStatus Reg.VTA_STATUS_MEM_INIT 1) (.vtaStep5 true b)]

/-- The row VTA_START (R428): the start-up after VTA_RST_N deasserts, or from step 5 after a lockstep mismatch (R106). -/
def Prog.vtaStart (b : BootRun) : Prog := .get fun s =>
  if s.v.inReset then .cond (!s.vx.refHeld && !s.vx.thermTrip) <| .seq [
    .dev .vta fun d => { d with inReset := false },
    .showFuses .vta,
    .vtaStatus Reg.VTA_STATUS_FUSES 1,
    if b.fail = 6 then .vtaStatus Reg.VTA_STATUS_BOOT_FAIL 6
    else .both (.vtaStatus Reg.VTA_STATUS_REF_LOCK 1) (.vtaStep3 b)]
  else .cond (!s.gorseUp .vta && s.on .vta Reg.VTA_STATUS_MEM_INIT && [0, 4, 5, 7].contains (s.rd .vta Reg.VTA_STATUS_BOOT_FAIL))
    (.both (.cond (s.rd .vta Reg.VTA_STATUS_BOOT_FAIL != 7) (.vtaStatus Reg.VTA_STATUS_BOOT_FAIL 0)) (.vtaStep5 false b))

-- the reference

/-- REF_RX loses its clock (R153, R425). -/
def Prog.referenceLoss : Prog := .up .vta <| .get fun s => .cond (!s.on .vta Reg.VTA_CLK_REF_LOST) <| .seq [
  .wr .vta Reg.VTA_CLK_REF_LOST 1, .msix 8,
  .wr .vta Reg.VTA_CLK_PLL_RDY (s.rd .vta Reg.VTA_CLK_PLL_RDY / 2 * 2),
  .wr .vta (pllRdy .vta 64) 0,
  .timeSourceLost .vta]

/-- 10 ms without the reference (R425): the record, ALERT_N, self-refresh, and a fundamental reset that is held. -/
def Prog.refLost : Prog := .up .vta <| .get fun s => .cond (s.on .vta Reg.VTA_CLK_REF_LOST) <| .seq [
  .cond (s.gorseUp .vta) (.event .vta 0x0010 (zeros 8)),
  .cond (s.recorderOpen .vta) (.dev .vta (Dev.programOpen .vta)),
  .vta fun x => { x with selfRef := s.on .vta Reg.VTA_STATUS_DDR_READY, refHeld := true },
  .vtaReset false,
  .vta fun x => { x with alert := true }]

/-- The reference returns (R425): the PLLs relock and time resynchronises, or the held reset ends. -/
def Prog.referenceReturn : Prog := .get fun s =>
  if s.vx.refHeld then .vta fun x => { x with refHeld := false, alert := false }
  else .up .vta <| .cond (s.on .vta Reg.VTA_CLK_REF_LOST) <| .seq [
    .wr .vta Reg.VTA_CLK_REF_LOST 0,
    .wr .vta Reg.VTA_CLK_PLL_RDY (s.rd .vta Reg.VTA_CLK_PLL_RDY / 2 * 2 + 1),
    .wr .vta (pllRdy .vta 64) 1,
    .sourceReturn .vta]

-- PCIe

/-- The reset value of a whole register word returns. -/
def Prog.resetAt (u : UnitId) (off : Nat) : Prog := .wr u ⟨off, 0, 64⟩ (Reg.resetWord u off).toNat

/-- PERST_N or a link-down (R427, R432): the PCIe controller and mailboxes 0 to 7 are reset; commands outstanding complete with their
replies discarded, and sessions end. -/
def Prog.pcieDown : Prog := .up .vta <| .seq [
  .each (List.range 8) fun m => .both
    (.modMb .vta m fun b => { b with
      words := [], spilled := false, waiting := [], replies := [], keyEx := false, bound := false
      outst := b.outst.map fun o => { o with discard := true } })
    (.each (List.range 8) fun i => .resetAt .vta (0x1000 + 256 * m + 8 * i)),
  .each (List.range 64) fun i => .resetAt .vta (0x3F00000 + 8 * i),
  .resetAt .vta Reg.MSIX_PBA_PENDING.off,
  .dev .vta fun d => { d with
    hiLatch := d.hiLatch.filter fun e => e.1 != .pcie, loHeld := d.loHeld.filter fun e => e.1 != .pcie },
  .vta fun x => { x with pcieUp := false },
  .vtaStatus Reg.VTA_STATUS_PCIE_OPEN 0]

/-- The PCIe link comes up (R428, R432): mailboxes 0 to 7 reopen once step 7 of the start-up has been reached. -/
def Prog.pcieLinkUp : Prog := .up .vta <| .both (.vta fun x => { x with pcieUp := true }) <| .get fun s =>
  .cond (s.gorseUp .vta && s.recorderOpen .vta && s.on .vta Reg.SEC_STATE_UDS_LOCK
    && [0, 5, 7].contains (s.rd .vta Reg.VTA_STATUS_BOOT_FAIL)) .openPcie

-- temperatures

/-- The row THERMAL_SAMPLE (R442): codes are temperature × 4 + 256. -/
def Prog.thermalSample (codes : List (BitVec 10)) : Prog := .up .vta <| .get fun s =>
  let hot := codes.foldl (fun n c => max n c.toNat) 0
  let was := s.on .vta Reg.VTA_THERM_THROTTLE
  let stopped := s.on .vta Reg.VTA_THERM_STOPPED
  .seq [
    .wr .vta Reg.VTA_THERM_TJ_MAX hot,
    .cond (!was && hot ≥ 656) (.seq [.wr .vta Reg.VTA_THERM_THROTTLE 1, .bump .vta Reg.VTA_THERM_EVENTS, .msix 8]),
    .cond (!stopped && hot ≥ 696) (.seq [.wr .vta Reg.VTA_THERM_STOPPED 1, .event .vta 0x0011 (le 2 hot ++ zeros 6),
      .vta fun x => { x with alert := true }]),
    .cond (hot < 636) (.seq [.wr .vta Reg.VTA_THERM_THROTTLE 0, .wr .vta Reg.VTA_THERM_STOPPED 0,
      .cond stopped (.vta fun x => { x with alert := false })]),
    .cond (hot ≥ 736) (.both (.vta fun x => { x with thermTrip := true }) (.dev .vta fun d => { d with inReset := true }))]

/-- The row DEVICE_TEMPERATURE (R433): the refresh rate doubles above 85 °C. -/
def Prog.deviceTemperature (celsius : Int) : Prog := .vta fun x => { x with refresh2 := decide (celsius > 85) }

-- uplink gates

/-- The row CONTROL_LIST_ENTRY (R436): from the list's base time on, the gates of uplink `k` take the states of an entry of its list, and records
that the open gates admit leave. -/
def Prog.controlListEntry (k entry : Nat) : Prog := .get fun s =>
  .opt (((s.polBody .vta).map fun b => b.qbv).getD [] |>.find? fun e => e.1 == k && qbvOk e.2 && e.2.base ≤ s.ns .vta) fun e =>
    .opt (e.2.entries[entry]?) fun q => .both (.vta fun x => { x with qbvNow := Sparse.put x.qbvNow k q.gates }) .uplink

end Sys2Proof.Machine
end

