-- ==== Sys2Proof/Machine/Commands.lean ====
section
/-! DEFINITION. The mailbox pipeline (R68 to R88): a committed packet is taken, checked in the order of R80, held back by ORD and fences,
and started. `opOf` is the opcode table (R96). -/

namespace Sys2Proof.Machine

/-- Every opcode (R96). -/
def ops : List Op := [
  opNop, opIdent, opFence, opStop, opStart, opConfigWrite, opConfigRead, opArmCollector, opDisarm, opSnapshotAt, opSweepFull,
  opReadStream, opAckStream, opTimeStatus, opPulseProgram, opPulseCancel, opSentinelConfig, opStepOpen, opStepClose, opDigestCompare,
  opSelftest] ++ [
  opTreeLoad, opFeatureLoad, opScoreRun, opModelSwap, opPowerCap, opBudgetShift, opStagger, opStartAt, opTraceArm, opTraceTrigger,
  opTensorDump, opCompressFlush, opLogRead, opLogMark, opScrubRange, opRetire, opAttest, opPolicyLoad, opKeyRotate, opQuarantine,
  opProbation, opLeaseRenew, opPortHotplug, opAbortJob]

/-- What the manual says of an opcode. -/
def opOf (code : Nat) : Option Op := ops.find? (·.code == code)

/-- An opcode is implemented on a unit. -/
def Op.onUnit (op : Op) (u : UnitId) : Bool := match u with | .htu => op.onHtu | .vta => op.onVta

/-- The mailboxes that peers feed over their own paths take every packet (R74). -/
def peerMbx (u : UnitId) (m : Nat) : Bool := match u with | .htu => m == 2 | .vta => m == 9

/-- A mailbox takes packets: it is open, or a peer feeds it (R74). -/
def State.takes (s : State) (u : UnitId) (m : Nat) : Bool := s.on u (Reg.MBX_STATUS_OPEN m) || (peerMbx u m && s.gorseUp u)

/-- Commands outstanding at most (R71, R98). -/
def State.outLimit (s : State) (u : UnitId) (m : Nat) : Nat := if s.on u (Reg.MBX_STATUS_GEN m) then 16 else 256

/-- BOOT_FAIL of a unit. -/
def State.bootFail (s : State) : UnitId → Nat
  | .htu => s.rd .htu Reg.HTU_STATUS_BOOT_FAIL
  | .vta => s.rd .vta Reg.VTA_STATUS_BOOT_FAIL

/-- Opcodes whose service on the VTA needs DDR5 (R443): archive, trace, Heather store and model staging. -/
def needsDdr (code : Nat) : Bool := [0x14, 0x40, 0x41, 0x42, 0x43, 0x60, 0x61, 0x63].contains code

/-- Check 4 (R63, R129, R428, R443): the unit is ready for the opcode. -/
def State.opReady (s : State) (u : UnitId) (op : Op) (p : Packet) : Bool :=
  (s.bootFail u != 5 || [0x02, 0x80, 0x70].contains op.code)
    && (u == .htu || !needsDdr op.code || s.on .vta Reg.VTA_STATUS_DDR_READY)
    && op.ready s u p

/-- Check 5 (R37, R115 to R117): the role code is defined, the partition held (never 0 for TENANT), the role granted and permitted for the
opcode, and the target the sender's to stop or reconfigure; before its authentication a peer's mailbox serves only ATTEST with role PEER
(R74). -/
def State.roleFail (s : State) (u : UnitId) (m : Nat) (op : Op) (p : Packet) : Option Ans :=
  let r := p.roleN
  firstBad [
    (r = 0 ∨ 6 < r, { status := stDenied, detail := 4 }),
    (!s.holds u p.part ∨ (r = roleTenant ∧ p.part = 0), { status := stDenied }),
    (peerMbx u m && !s.on u (Reg.MBX_STATUS_OPEN m) && !(op.code == 0x80 && r == rolePeer), { status := stDenied }),
    (!s.granted u m r op.code, { status := stDenied }),
    (permOf op.perms r == .no, { status := stDenied }),
    (permOf op.perms r == .own && !((op.code == 0x62 || s.ownTarget u p) && op.own s u p), { status := stDenied }),
    (!op.owner s u p, { status := stDenied })]

/-- Checks 2 to 6 of R80, made as a packet is taken. -/
def State.takeFail (s : State) (u : UnitId) (m code : Nat) (p : Packet) : Option Ans :=
  match opOf code with
  | none => some { status := stBadOpcode }
  | some op =>
    if !op.onUnit u then some { status := stBadOpcode }
    else if s.on u (Reg.MBX_STATUS_GEN m) && !op.v1 then some { status := stUnsupportedGen }
    else if p.params.length % 8 ≠ 0 ∨ 4096 < p.params.length ∨ !op.plen p.params.length then some (badParam 2)
    else if !s.opReady u op p then some { status := stNotReady }
    else match s.roleFail u m op p with
      | some a => some a
      | none =>
        if op.classes.contains (targetClass p.target) && validTarget u (targetClass p.target) (targetInst p.target) then none
        else some (badParam 3)

/-- Reserved bits of a packet that are not zero (R8). -/
def rsvdSet (u : UnitId) (code : Nat) (p : Packet) : Bool :=
  p.flags.toNat / 16 != 0 || p.rsvd != 0 || (match opOf code with | some op => op.rsvd u p | none => false)

/-- A packet as an outstanding command. -/
def outstOf (code : Nat) (p : Packet) : Outst :=
  { tag := p.tag, opcode := code, flags := p.flags, target := p.target, part := p.part, role := p.roleN, first := false, need := 0 }

/-- A packet is accepted (R71, R77, R78, R80): its tag is new, its SEQ is the one expected, and it passes checks 2 to 6; it is then held
until it may start. -/
def Prog.accept (u : UnitId) (m code : Nat) (p : Packet) : Prog := .get fun s =>
  if (s.mb u m).outst.any (·.tag == p.tag) then .mbxErr u m (Reg.MBX_ERR_DUP_TAG m) else
  let seq := s.rd u (Reg.MBX_NEXT_SEQ_SEQ m)
  .seq [
    .cond (rsvdSet u code p) (.mbxErr u m (Reg.MBX_ERR2_RSVD m)),
    .modMb u m fun b => { b with outst := b.outst ++ [outstOf code p] },
    if !s.on u (Reg.MBX_STATUS_GEN m) && p.seq.toNat != seq then .reply u m p.tag (badParam 1)
    else .both (.wr u (Reg.MBX_NEXT_SEQ_SEQ m) (seq + 1)) (match s.takeFail u m code p with
      | some a => .reply u m p.tag a
      | none => .modMb u m fun b => { b with held := b.held ++ [(code, p)] })]

/-- Checks 7 to 10 of R80, made as a command starts: parameters, function state, reply data (R72), resources and time. -/
def State.startFail (s : State) (u : UnitId) (m : Nat) (op : Op) (p : Packet) : Option Ans :=
  match op.check s u m p with
  | some a => some a
  | none =>
    if (s.mb u m).dataUsed + op.data p > replyArea u then some { status := stNoResource }
    else op.late s u m p

/-- A command starts: it is refused, or it takes its reply space, posts ACCEPTED when it is ASYNC (R82), and has its effect. -/
def Prog.startCmd (u : UnitId) (m : Nat) (op : Op) (p : Packet) : Prog := .get fun s =>
  match s.startFail u m op p with
  | some a => .reply u m p.tag a
  | none => .seq [
      .modMb u m fun b => { b with
        outst := b.outst.map fun o => if o.tag == p.tag then { o with need := op.data p } else o
        effects := if op.async then (b.effects.filter (·.1 != p.tag)) ++ [(p.tag, p.target)] else b.effects },
      .cond (p.asyncF && op.async) (.reply u m p.tag { status := stAccepted }),
      op.run u m p]

/-- A held command leaves the held list and starts. -/
def Prog.startHeld (u : UnitId) (m code : Nat) (p : Packet) : Prog := .both
  (.modMb u m fun b => { b with held := b.held.filter (·.2.tag != p.tag) })
  (.opt (opOf code) fun op => .startCmd u m op p)

/-- A packet that is a FENCE or asks for one (R85, R86). -/
def isFence (code : Nat) (p : Packet) : Bool := code == 0x03 || p.fenceF

/-- A fence with a target covers a command with another (R85). -/
def covers (fence target : BitVec 16) : Bool := targetClass fence == 0 || fence == target

/-- The commands accepted before a tag. -/
def Mbx.earlier (b : Mbx) (tag : BitVec 16) : List Outst := b.outst.takeWhile (·.tag != tag)

/-- Neither ORD nor an earlier fence keeps a held command back (R81, R85, R98). -/
def Mbx.unblocked (b : Mbx) (v1 : Bool) (p : Packet) : Bool :=
  (!(p.ordF || v1) || (b.earlier p.tag).all (·.first)) &&
    !((b.held.takeWhile (·.2.tag != p.tag)).any fun h => isFence h.1 h.2 && covers h.2.target p.target)

/-- A command that is complete for a fence once it has started: its effect is its schedule entry (R83, R84). -/
def timeTriggered (code : Nat) : Bool := [0x10, 0x12, 0x21, 0x31, 0x53].contains code

/-- A held fence completes (R85): every earlier command that it covers has its final reply or its schedule entry. -/
def Mbx.fenceDone (b : Mbx) (p : Packet) : Bool :=
  (b.earlier p.tag).all fun o => !covers p.target o.target || (timeTriggered o.opcode && b.held.all (·.2.tag != o.tag))

/-- The lost commands that a fence reports: those of `lost` that it covers and no fence has covered before, oldest first (R85). -/
def Mbx.lostOf (b : Mbx) (p : Packet) (lost : List (BitVec 16)) : List (BitVec 16) :=
  (b.effects.filter fun e => covers p.target e.2 && lost.contains e.1).map (·.1)

/-- One piece of work of a mailbox: a held command that may start, else the next packet. -/
def Prog.mbxWork (u : UnitId) (m : Nat) : Prog := .get fun s =>
  let b := s.mb u m
  match b.held.find? fun h => !isFence h.1 h.2 && b.unblocked (s.on u (Reg.MBX_STATUS_GEN m)) h.2 with
  | some h => .startHeld u m h.1 h.2
  | none => match b.waiting with
    | [] => .skip
    | h :: t => .cond (b.outst.length < s.outLimit u m && s.takes u m) <| .both
        (.modMb u m fun b => { b with waiting := t }) (.accept u m h.1 h.2)

/-- Rounds of work over the mailboxes of a unit. -/
def Prog.rounds (u : UnitId) : Nat → Prog
  | 0 => .skip
  | n + 1 => .both (.each (List.range (mbxCount u)) (.mbxWork u)) (.rounds u n)

/-- Packets not yet taken count twice, held ones once: no more work than this is left. -/
def State.backlog (s : State) (u : UnitId) : Nat :=
  ((s.dev u).mbx.map fun e => 2 * e.2.waiting.length + e.2.held.length).sum

/-- Entries that a step or a switch gap passed over complete with DEADLINE_PASSED (R143, R151); what they would have started ends as it does
where an instant passes without time (R154). -/
def Prog.passedOver (u : UnitId) : Prog := .get fun s => .both (.dev u fun d => { d with passed := [] }) <|
  .each (s.dev u).passed fun e => match e.kind with
    | .armTime c => .both (.answer u e.cmd { status := stDeadline }) (.unarm u c)
    | .job _ => .jobMissed u [e]
    | .sweep _ => .opt s.hx.sweep fun w => .both (.htu fun x => { x with sweep := none }) (.reply .htu w.1 w.2.1 { status := stDeadline })
    | _ => .answer u e.cmd { status := stDeadline }

/-- What every command leaves to be done is done: entries passed over complete, collectors whose JOIN waited announce it (R221), and the
mailboxes of the unit do all the work that they can. -/
def Prog.settle (u : UnitId) : Prog := .seq [.passedOver u, .joinReady u, .get fun s => .rounds u (s.backlog u)]

/-- A packet reaches a mailbox (R69, R70, R74, R98): it joins the packets that wait, or vanishes and is counted where the mailbox is closed
or its request queue has no room for the packet's words. -/
def Prog.commit (u : UnitId) (m code : Nat) (p : Packet) : Prog := .get fun s =>
  let v1 := s.on u (Reg.MBX_STATUS_GEN m)
  let q := if v1 then asV1 p (s.rd u (Reg.MBX_V1_IDENT_PARTITION m)) (s.rd u (Reg.MBX_V1_IDENT_ROLE m)) else p
  if !s.takes u m then .mbxErr u m (Reg.MBX_ERR2_CLOSED m)
  else if packetWords p v1 ≤ s.reqFree u m then .modMb u m fun b => { b with waiting := b.waiting ++ [(code, q)] }
  else .mbxErr u m (Reg.MBX_ERR_OVERFLOW m)

/-- A command row: the packet is committed; its mailbox takes it and starts it where nothing stands in the way; then every mailbox does
what it can. A mailbox block that is not ready takes nothing and counts nothing (R59, R74). -/
def Prog.command (u : UnitId) (m code : Nat) (p : Packet) : Prog :=
  .get fun s => .cond (s.blockReady u 0x1000) (.seq [.commit u m code p, .mbxWork u m, .mbxWork u m, .settle u])

/-- The row FENCE_COMPLETE (R85, R86): the oldest fence whose earlier effects are all visible, or lost as `lost` says, completes; a
command with FENCE_BEFORE then starts, or is not executed when an effect was lost. Only commands that the fence covers and no fence has
covered before can be lost, so a loss is reported once; they are listed oldest first. -/
def Prog.fenceComplete (u : UnitId) (m : Nat) (lost : List (BitVec 16)) : Prog := .get fun s =>
  let b := s.mb u m
  let v1 := s.on u (Reg.MBX_STATUS_GEN m)
  .opt (b.held.find? fun h => isFence h.1 h.2 && b.unblocked v1 h.2 && b.fenceDone h.2) fun h =>
    let gone := b.lostOf h.2 lost
    .seq [
      .modMb u m fun b => { b with effects := b.effects.filter fun e => !covers h.2.target e.2 },
      if h.1 = 0x03 ∨ gone ≠ [] then .both
        (.modMb u m fun b => { b with held := b.held.filter (·.2.tag != h.2.tag) })
        (.reply u m h.2.tag (fenceAnswer gone))
      else .startHeld u m h.1 h.2,
      .settle u]

/-- A program and what it leaves to be done. -/
def Prog.thenSettle (u : UnitId) (p : Prog) : Prog := .both p (.settle u)

end Sys2Proof.Machine
end

