-- ==== Sys2Proof/Machine/Links.lean ====
section
/-! DEFINITION. What arrives on the links: Furrow flits (R376 to R384), their packets, and mailbox 9 datagrams (R114, R317, R435). -/

namespace Sys2Proof.Machine

-- packets

/-- A v2 packet on VC0 (R75): the header's length must fit what arrived. -/
def packetOfBytes (b : List Byte) : Option (Nat × Packet) :=
  let plen := fieldAt b 4 2
  if b.length < 16 + plen ∨ b.length < 16 then none else parseV2 (toWords (b.take (16 + (plen + 7) / 8 * 8)))

/-- A v2 reply on VC1 (R76). -/
def replyOfBytes (b : List Byte) : Option ReplyMsg :=
  let n := fieldAt b 4 2
  if b.length < 16 + n then none else
  some { opcode := BitVec.ofNat 8 (fieldAt b 0 1), status := BitVec.ofNat 8 (fieldAt b 1 1), tag := BitVec.ofNat 16 (fieldAt b 2 2)
         detail := BitVec.ofNat 32 (fieldAt b 8 4), result := BitVec.ofNat 32 (fieldAt b 12 4), data := cut b 16 n }

/-- A time message (R137). -/
def timeOfBytes (b : List Byte) : TimeMsg :=
  let f := fieldAt b 1 1
  { timev := f.testBit 0, lock := f.testBit 1, hold := f.testBit 2, seq := fieldAt b 2 2
    ts := fieldAt b 8 8 * 65536 + fieldAt b 16 2, inc := fieldAt b 24 5 }

/-- A VC2 message takes its effect (R377): results and notices at an HTU; partials, arrivals, membership, notices and REPLAY_LOST at the
VTA. -/
def Prog.vc2Rx (u : UnitId) (c : Nat) (r : Rec) : Prog :=
  match u with
  | .htu =>
    if r.typ = 0x32 then .stepResult .htu r
    else if r.typ = 0x41 then .taintNotice .htu 0 r
    else .skip
  | .vta =>
    if r.typ = 0x30 then .sheafPartial .tray c r
    else if r.typ = 0x31 then .stepArrival .tray c r
    else if r.typ = 0x34 then .membership .tray c r
    else if r.typ = 0x41 then .taintNotice .vta c r
    else if r.typ = 0x45 then .replayLostRx c r
    else .skip

/-- A time message on a port, stamped as it arrives (R137, R138); the tenth of a ns within the tick is a free value (log entry 136). -/
def Prog.timeRx (u : UnitId) (k : Nat) (b : List Byte) : Prog := .get fun s =>
  let m := timeOfBytes b
  .both (.rsvdPort u k (fieldAt b 1 1 / 8 != 0 || fieldAt b 4 4 != 0 || fieldAt b 18 6 != 0 || fieldAt b 29 3 != 0)) <|
  match fieldAt b 0 1 with
  | 1 => .free fun sub => .syncRx u k m (s.stampAt u sub)
  | 2 => .free fun sub => .dlyReqRx u k m (s.stampAt u sub)
  | 3 => .dlyRespRx u k m
  | _ => .skip

/-- A whole packet is delivered by its VC (R377). One whose framing is bad vanishes; a command counts it in its mailbox (R69, R384). -/
def Prog.packetRx (u : UnitId) (k c vc colour : Nat) (b : List Byte) : Prog :=
  let take (f : Rec → Prog) : Prog := .opt (Rec.ofBytes b) fun r => .both (.rsvdPort u k r.rsvd) (f r.clean)
  match vc with
  | 0 => match u, packetOfBytes b with
    | .htu, some q => .commit .htu 2 q.1 q.2
    | .htu, none => .mbxErr .htu 2 (Reg.MBX_ERR_FRAMING 2)
    | .vta, some q => .peerAttest c (BitVec.ofNat 8 q.1) q.2
    | .vta, none => .bumpBy .vta (Reg.FUR_PORT_REWOUND k) 1
  | 1 => .opt (replyOfBytes b) fun r => .both (.rsvdPort u k (fieldAt b 6 2 != 0)) (.vc1Reply u c r)
  | 2 => take (.vc2Rx u c)
  | 3 => .timeRx u k b
  | _ => take fun r => .cond (u == .vta) (.recordIngress colour r)

-- flits of the unit's own connections

/-- The window of R382: whether a packet number is new, and the window with it marked; bit i of the map stands for the highest less i. -/
def Conn.mark (n : Conn) (pkt : Nat) : Bool × Conn :=
  match n.pktHi with
  | none => (true, { n with pktHi := some pkt, pktMap := 1, fromZero := pkt == 0 })
  | some hi =>
    if serialGt 32 pkt hi then
      (true, { n with pktHi := some pkt, pktMap := (n.pktMap <<< serialDiff 32 pkt hi) ||| 1 })
    else
      let d := serialDiff 32 hi pkt
      if 256 ≤ d ∨ n.pktMap.getLsbD d then (false, n)
      else (true, { n with pktMap := n.pktMap ||| (1#256 <<< d), fromZero := n.fromZero || pkt == 0 })

/-- The space of a packet's flits is freed (R377); that of a sheaf partial which a merge holds when the merge completes (R209). -/
def Prog.freeFlits (u : UnitId) (c vc flits : Nat) (b : List Byte) : Prog := .get fun s =>
  let kept : Option Nat := if u = .vta ∧ vc = 2 then (Rec.ofBytes b).bind fun r =>
      let ep := (Part.ofPayload r.part r.payload).2.epoch
      if r.typ = 0x30 ∧ s.vx.merges.any (fun m => m.level == .tray && m.epoch == ep && m.parts.any (·.1 == c)) then some ep.toNat else none
    else none
  .modConn u c fun n => match kept with
    | some e => { n with owed := n.owed ++ [(e, flits)] }
    | none => { n with credit := Sparse.put n.credit (16 + vc) ((Sparse.get 0 n.credit (16 + vc) + flits) % 4096) }

/-- A DATA flit of a connection (R376, R377, R382, R384): packets are put together by VC, a complete one is delivered unless it is a
duplicate, and its flits' space is freed. -/
def Prog.dataRx (u : UnitId) (k c : Nat) (f : Flit) : Prog := .get fun s =>
  let n := s.conn u c
  let part := Sparse.find n.rx f.vc
  let drop (l : List (Nat × List Byte)) : List (Nat × List Byte) := l.filter (·.1 != f.vc)
  let begun := if f.first' then some [] else part
  let pkt := if f.first' then f.pkt else Sparse.get 0 n.rxPkt f.vc
  .both (.cond (f.first' && part.isSome) (.bump u (Reg.FUR_PORT_REWOUND k))) <| match begun with
    | none => .bump u (Reg.FUR_PORT_REWOUND k)
    | some got =>
      let b := got ++ f.payload
      if !f.last' then .modConn u c fun n => { n with rx := Sparse.put n.rx f.vc b, rxPkt := Sparse.put n.rxPkt f.vc pkt }
      else
        let flits := b.length / flitPayload
        let m := n.mark pkt
        .seq [
          .modConn u c fun n => { (n.mark pkt).2 with rx := drop n.rx, rxPkt := n.rxPkt.filter (·.1 != f.vc) },
          if m.1 then .packetRx u k c f.vc f.colour b else .bump u (Reg.FUR_PORT_DUPS k),
          .freeFlits u c f.vc flits b]

/-- A time flit takes no packet number of a connection's window; it counts in the credits of the connection that its port serves
directly. -/
def Prog.timeFlit (u : UnitId) (k : Nat) (f : Flit) : Prog := .get fun s => .both
  (.opt (s.directConn u k) fun c => .modConn u c (·.countUp 19))
  (.timeRx u k f.payload)

/-- A CONTROL flit (R380). -/
def Prog.controlRx (u : UnitId) (k : Nat) (f : Flit) : Prog :=
  match fieldAt f.payload 0 1 with
  | 2 => .cond (u == .htu) (.ladderRx .htu (fieldAt f.payload 1 1) (BitVec.ofNat 32 (fieldAt f.payload 4 4)))
  | 3 => .byeRx u k
  | 4 => .connRx u k f.die (BitVec.ofNat 32 (fieldAt f.payload 4 4))
  | _ => .skip

/-- The connection of the unit that a flit belongs to (R381, R383): on the HTU port A carries its own with FWD 0 and port B with FWD 1;
on the VTA the die ID names it, and FWD says that it came through the partner. -/
def State.flitConn (s : State) (u : UnitId) (k : Nat) (f : Flit) : Option Nat :=
  match u with
  | .htu => if f.fwd = (k = 1) then some 0 else none
  | .vta =>
    let c := f.die % 64
    if f.die - c = s.dieId .vta % 2 ^ 17 ∧ c = (if f.fwd then partnerPort k else k) then some c else none

/-- An HTU relays a flit for its partner (R383): port B with FWD 0 to port A, port A with FWD 1 to port B. An IDLE flit replaces one
that waits. -/
def Prog.relay (k : Nat) (f : Flit) : Prog := .get fun s =>
  let b := { f with fwd := true, die := (if k = 1 then s.dieId .htu % 2 ^ 17 ^^^ 1 else f.die) }.bytes
  .modPort .htu (1 - k) fun p => { p with
    relay := (if f.kind = kindIdle then p.relay.filter fun x => fieldAt x 0 1 % 4 != kindIdle else p.relay) ++ [b] }

/-- What a good, in-order flit does (R376, R377, R380, R383). -/
def Prog.flitBody (u : UnitId) (k : Nat) (f : Flit) : Prog := .get fun s =>
  let isConn := f.kind = kindControl ∧ fieldAt f.payload 0 1 = 4
  let forPartner := u = .htu ∧ ((k = 1 ∧ !f.fwd ∧
      (f.kind = kindData ∧ f.vc ≠ 3 ∨ isConn ∨ f.kind = kindIdle ∧ f.cvalid ∧ f.die ≠ s.dieId .htu % 2 ^ 17))
    ∨ (k = 0 ∧ f.fwd ∧ ¬(f.kind = kindData ∧ f.vc = 3)))
  if forPartner then .relay k f
  else if f.kind = kindData ∧ f.vc = 3 then .timeFlit u k f
  else if f.kind = kindControl then .controlRx u k f
  else .cond (f.kind == kindData) (.opt (s.flitConn u k f) fun c =>
    .cond (u == .htu || (s.conn u c).peerNo.isSome) (.dataRx u k c f))

/-- The credit count that a flit brings for a connection of the unit (R376, R377). -/
def Prog.creditRx (u : UnitId) (k : Nat) (f : Flit) : Prog := .get fun s =>
  .cond f.cvalid (.opt (s.flitConn u k f) fun c => .modConn u c fun n => { n with credit := Sparse.put n.credit (8 + f.cvc) f.ccount })

/-- An acknowledgement (R379): flits up to ACK leave the retry buffer, and packets whose LAST flit is acknowledged leave the transmit
queues; NAK resends the rest. -/
def Prog.ackRx (u : UnitId) (k : Nat) (f : Flit) : Prog := .get fun s => .cond f.ackValid <|
  let acked (n : Nat) : Bool := serialGe 12 f.ack n
  let moved := (s.port u k).retry.any (acked ·.1)
  .seq [
    .cond moved <| .both
      (.modPort u k fun p => { p with
        retry := p.retry.filter (!acked ·.1), retryQ := p.retryQ.filter (!acked ·.1), resend := p.resend.filter (!acked ·.1), retries := 0 })
      (.each (s.connsOn u k) fun e => .modConn u e.1 fun n => { n with
        tx := n.tx.filter fun t => !(t.last.map acked).getD false }),
    .cond f.nak (.resend u k)]

/-- The row DATA_FLIT (R376, R379): a flit with a bad CRC or of the reserved KIND is discarded and counted; one out of sequence is
discarded under NAK; every other is taken. -/
def Prog.dataFlit (u : UnitId) (k : Nat) (b : List Byte) : Prog := .get fun s =>
  .cond (s.rd u (Reg.FUR_PORT_STATE k) == portUp) <| .both (.count u (Reg.FUR_PORT_RX_FLITS k)) <|
    match Flit.ofBytes b with
    | none => .both (.bump u (Reg.FUR_PORT_CRC_ERR k)) (.modPort u k fun p => { p with nakOut := true })
    | some f =>
      if f.kind = 3 then .bump u (Reg.FUR_PORT_CRC_ERR k)
      else .seq [
        .rsvdPort u k f.rsvd,
        .cond (u == .vta) (.opt (s.flitConn u k f) fun c => .vta fun x => { x with furAt := Sparse.put x.furAt c s.stamp }),
        .ackRx u k f,
        .creditRx u k f,
        if f.kind = kindIdle then .flitBody u k f
        else if f.fseq ≠ (s.port u k).fseqRx then .modPort u k fun p => { p with nakOut := true }
        else .both (.modPort u k fun p => { p with fseqRx := (f.fseq + 1) % 4096 }) (.flitBody u k f),
        .settle u]

-- mailbox 9

/-- A final reply of a unit below to a command forwarded by Ethernet (R205, R314): a SNAPSHOT_AT that it refused makes the epoch PARTIAL,
a START_AT is counted. The unit below is 256 × level + input. -/
def Prog.replyBelow (n : Nat) (r : ReplyMsg) : Prog := .get fun s =>
  let ok := r.status.toNat == stOk
  .cond (r.status.toNat != stAccepted) <| .both
    (.cond (r.opcode == 0x12) (.opt (s.vx.ethSnaps.find? fun e => e.1 == n && e.2.1 == r.tag) fun e => .vta fun x => { x with
      ethSnaps := x.ethSnaps.erase e, badEpochs := if ok then x.badEpochs else x.badEpochs ++ [e.2.2] }))
    (.cond (r.opcode == 0x53) (.startReplied (64 * (n / 256) + n % 256) ok))

/-- The row MAILBOX_9_DATAGRAM (R114, R317, R435). -/
def Prog.mailbox9 : Datagram → Prog
  | .spdm none b => .get fun s => .cond (s.gorseUp .vta) (.respond .vta 9 b fun a => .send .vta (.spdm 0 a))
  | .spdm (some n) b => .get fun s => .cond (s.gorseUp .vta) (.spdmRx .vta (64 + n) true b)
  | .command op p => .command .vta 9 op.toNat p
  | .abortRequest _ params => .thenSettle .vta (.abortRequest params)
  | .reply n r => .thenSettle .vta (.replyBelow n r)

end Sys2Proof.Machine
end

