-- ==== Sys2Proof/Machine/RowsBus.lean ====
section
/-! DEFINITION. The rows of the opcode table that are register accesses (R10 to R14, R69 to R73). -/

namespace Sys2Proof.Machine

/-- A program of a unit whose register block at `off` is ready (R59). -/
def Prog.ready (u : UnitId) (off : Nat) (p : Prog) : Prog := .get fun s => .cond (s.blockReady u off) p

/-- A register write that only some agents may make: from any other it stores nothing and a DENIED record gives the cause of R445. -/
def Prog.guarded (u : UnitId) (a : Agent) (off : Nat) (ok : Bool) (cause : Nat) (p : Prog) : Prog :=
  .ready u off (.both (.dropLow u a) (if ok then p else .event u 0x0002 (accessPayload off a 4 true cause)))

/-- REGISTER_WRITE (R10 to R13). -/
def execRegisterWrite (u : UnitId) (a : Agent) (off : Nat) (wide : Bool) (v : Word) (s : State) : Host.Outcome State Fault Refusal :=
  Prog.next (.up u (.thenSettle u (.writeReg u a off wide v))) s

/-- RC_READ (R14). -/
def execRcRead (u : UnitId) (a : Agent) (off : Nat) (wide : Bool) (s : State) : Host.Outcome State Fault Refusal :=
  Prog.next (.up u (.readReg u a off wide)) s

/-- GRO_READ (R13). -/
def execGroRead (u : UnitId) (a : Agent) (off : Nat) (wide : Bool) (s : State) : Host.Outcome State Fault Refusal :=
  Prog.next (.up u (.readReg u a off wide)) s

/-- MISALIGNED_ACCESS (R10). -/
def execMisalignedAccess (u : UnitId) (a : Agent) (off size : Nat) (write : Bool) (s : State) : Host.Outcome State Fault Refusal :=
  Prog.next (.up u (.misaligned u a off size write)) s

/-- LOW_HALF_READ (R11). -/
def execLowHalfRead (u : UnitId) (a : Agent) (off : Nat) (s : State) : Host.Outcome State Fault Refusal :=
  Prog.next (.up u (.readReg u a off false)) s

/-- LOW_HALF_WRITE (R11). -/
def execLowHalfWrite (u : UnitId) (a : Agent) (off : Nat) (v : Half) (s : State) : Host.Outcome State Fault Refusal :=
  Prog.next (.up u (.thenSettle u (.writeReg u a off false (v.setWidth 64)))) s

/-- HIGH_HALF_WRITE (R11); `off` is the offset of the high half. -/
def execHighHalfWrite (u : UnitId) (a : Agent) (off : Nat) (v : Half) (s : State) : Host.Outcome State Fault Refusal :=
  Prog.next (.up u (.thenSettle u (.writeReg u a off false (v.setWidth 64)))) s

/-- TIM_NOW_READ (R162). -/
def execTimNowRead (u : UnitId) (a : Agent) (wide : Bool) (s : State) : Host.Outcome State Fault Refusal :=
  Prog.next (.up u (.readReg u a 0x2008 wide)) s

/-- MBX_REQ_WRITE (R69, R70, R74). -/
def execMbxReqWrite (u : UnitId) (m : Nat) (a : Agent) (w : Word) (s : State) : Host.Outcome State Fault Refusal :=
  Prog.nextIf (m < mbxCount u) (.ready u 0x1000 (.both (.dropLow u a) (.reqWrite u m a w))) s

/-- MBX_DOORBELL (R69, R70, R74). -/
def execMbxDoorbell (u : UnitId) (m : Nat) (a : Agent) (s : State) : Host.Outcome State Fault Refusal :=
  Prog.nextIf (m < mbxCount u) (.ready u 0x1000 (.both (.dropLow u a) (.thenSettle u (.doorbell u m a)))) s

/-- MBX_RSP_READ (R73). -/
def execMbxRspRead (u : UnitId) (m : Nat) (a : Agent) (s : State) : Host.Outcome State Fault Refusal :=
  Prog.nextIf (m < mbxCount u) (.ready u 0x1000 (.rspRead u m a)) s

/-- MAP_COMMIT (R55). -/
def execMapCommit (a : Agent) (immediate : Bool) (s : State) : Host.Outcome State Fault Refusal :=
  Prog.next (.guarded .htu a 0xA2000 (agentActs .htu a != .bracken) 4 (.mapCommit immediate)) s

/-- SNT_REPLAY_POP (R254). -/
def execSntReplayPop (a : Agent) (s : State) : Host.Outcome State Fault Refusal :=
  Prog.next (.up .htu (.readReg .htu a 0x30088 true)) s

/-- TRC_DUMP_HALT (R363). -/
def execTrcDumpHalt (a : Agent) (channel : Nat) (s : State) : Host.Outcome State Fault Refusal :=
  Prog.nextIf (channel < 8) (.guarded .htu a (0x50800 + 32 * channel) (agentActs .htu a != .bracken) 4 (.dumpHalt channel)) s

/-- SWITCH (R147, R150). -/
def execSwitch (u : UnitId) (a : Agent) (s : State) : Host.Outcome State Fault Refusal :=
  Prog.next (.guarded u a 0x2000 (a == .gorse) 1 (.get fun s => .planSwitch u (s.otherPort u))) s

/-- SRC_PREF (R147). -/
def execSrcPref (u : UnitId) (a : Agent) (v : BitVec 2) (s : State) : Host.Outcome State Fault Refusal :=
  Prog.next (.guarded u a 0x2000 (a == .gorse) 1
    (.both (.rd u Reg.TIM_CTL_SRC_PREF fun was => .cond (was != v.toNat) (.setSrcPref u v.toNat)) (.joinReady u))) s

end Sys2Proof.Machine
end

