-- ==== Sys2Proof/Machine/RowsUnit.lean ====
section
/-! DEFINITION. The rows about a unit as a whole: resets and start-up, functions, firmware and policy, stored data and event records, and the VTA device. -/

namespace Sys2Proof.Machine

/-- A program that Gorse runs: nothing happens while the pair is down (R106). -/
def Prog.gorse (u : UnitId) (p : Prog) : Prog := .get fun s => .cond (s.gorseUp u) p

/-- HOST_RST (R64). -/
def execHostRst (powerUp : Bool) (s : State) : Host.Outcome State Fault Refusal :=
  Prog.next (.hostRst powerUp) s

/-- HTU_START (R62, R63). -/
def execHtuStart (b : BootRun) (s : State) : Host.Outcome State Fault Refusal :=
  Prog.next (.htuStart b) s

/-- POLICY_START_APPLY (R122). -/
def execPolicyStartApply (u : UnitId) (s : State) : Host.Outcome State Fault Refusal :=
  Prog.next (.up u (.thenSettle u (.gorse u (.policyStart u)))) s

/-- CORE_CLOCK_LOSS (R39). -/
def execCoreClockLoss (s : State) : Host.Outcome State Fault Refusal :=
  Prog.next (.up .htu (.hostRst false)) s

/-- FENCE_COMPLETE (R85, R86). -/
def execFenceComplete (u : UnitId) (m : Nat) (lost : List (BitVec 16)) (s : State) : Host.Outcome State Fault Refusal :=
  Prog.nextIf (m < mbxCount u) (.up u (.fenceComplete u m lost)) s

/-- FUNCTION_DRAINED (R91). -/
def execFunctionDrained (u : UnitId) (fid : Nat) (s : State) : Host.Outcome State Fault Refusal :=
  Prog.next (.up u (.thenSettle u (.functionDrained u fid))) s

/-- DRAIN_LIMIT_EXPIRY (R91). -/
def execDrainLimitExpiry (u : UnitId) (fid : Nat) (s : State) : Host.Outcome State Fault Refusal :=
  Prog.next (.up u (.thenSettle u (.drainLimit u fid))) s

/-- BRACKEN_FAULT (R105). -/
def execBrackenFault (u : UnitId) (group : Nat) (s : State) : Host.Outcome State Fault Refusal :=
  Prog.nextIf (group < brackenCount u) (.up u (.thenSettle u (.gorse u (.brackenFault u group)))) s

/-- BRACKEN_WATCHDOG (R105). -/
def execBrackenWatchdog (u : UnitId) (group : Nat) (s : State) : Host.Outcome State Fault Refusal :=
  Prog.nextIf (group < brackenCount u) (.up u (.thenSettle u (.gorse u (.brackenFault u group)))) s

/-- LOCKSTEP_MISMATCH (R106). -/
def execLockstepMismatch (u : UnitId) (s : State) : Host.Outcome State Fault Refusal :=
  Prog.next (.up u (.lockstep u)) s

/-- SPDM_HEARTBEAT_TIMEOUT (R113). -/
def execSpdmHeartbeatTimeout (m : Nat) (s : State) : Host.Outcome State Fault Refusal :=
  Prog.nextIf (m < mbxCount .vta) (.up .vta (.gorse .vta (.heartbeatLost m))) s

/-- SPDM_RETRY_TIMEOUT (R114). -/
def execSpdmRetryTimeout (u : UnitId) (c : Nat) (s : State) : Host.Outcome State Fault Refusal :=
  Prog.next (.up u (.gorse u (.spdmTimeout u c))) s

/-- PEER_ATTEST (R114). -/
def execPeerAttest (port : Nat) (opcode : BitVec 8) (p : Packet) (s : State) : Host.Outcome State Fault Refusal :=
  Prog.nextIf (port < 64) (.up .vta (.gorse .vta (.peerAttest port opcode p))) s

/-- SEGMENT_CLOSE (R125). -/
def execSegmentClose (u : UnitId) (stream : Nat) (s : State) : Host.Outcome State Fault Refusal :=
  Prog.nextIf (stream < streamCount u) (.up u (.segmentClose u stream)) s

/-- POLICY_APPLY (R122). -/
def execPolicyApply (u : UnitId) (s : State) : Host.Outcome State Fault Refusal :=
  Prog.next (.up u (.thenSettle u (.gorse u (.policyApply u)))) s

/-- POLICY_ASSEMBLY_TIMEOUT (R123). -/
def execPolicyAssemblyTimeout (u : UnitId) (s : State) : Host.Outcome State Fault Refusal :=
  Prog.next (.up u (.policyTimeout u)) s

/-- FUNDAMENTAL_RESET (R426). -/
def execFundamentalReset (powerOn : Bool) (s : State) : Host.Outcome State Fault Refusal :=
  Prog.next (.vtaReset powerOn) s

/-- VTA_START (R428). -/
def execVtaStart (b : BootRun) (s : State) : Host.Outcome State Fault Refusal :=
  Prog.next (.vtaStart b) s

/-- REFERENCE_LOSS (R425). -/
def execReferenceLoss (s : State) : Host.Outcome State Fault Refusal :=
  Prog.next (.referenceLoss) s

/-- REF_LOST (R425). -/
def execRefLost (s : State) : Host.Outcome State Fault Refusal :=
  Prog.next (.refLost) s

/-- REFERENCE_RETURN (R425). -/
def execReferenceReturn (s : State) : Host.Outcome State Fault Refusal :=
  Prog.next (.referenceReturn) s

/-- PERST (R427). -/
def execPerst (s : State) : Host.Outcome State Fault Refusal :=
  Prog.next (.up .vta .pcieDown) s

/-- PCIE_LINK_UP (R432). -/
def execPcieLinkUp (s : State) : Host.Outcome State Fault Refusal :=
  Prog.next (.up .vta .pcieLinkUp) s

/-- PCIE_LINK_DOWN (R432). -/
def execPcieLinkDown (s : State) : Host.Outcome State Fault Refusal :=
  Prog.next (.up .vta .pcieDown) s

/-- THERMAL_SAMPLE (R442). -/
def execThermalSample (codes : List (BitVec 10)) (s : State) : Host.Outcome State Fault Refusal :=
  Prog.next (.thermalSample codes) s

/-- DEVICE_TEMPERATURE (R433). -/
def execDeviceTemperature (celsius : Int) (s : State) : Host.Outcome State Fault Refusal :=
  Prog.next (.up .vta (.deviceTemperature celsius)) s

/-- CONTROL_LIST_ENTRY (R436). -/
def execControlListEntry (k entry : Nat) (s : State) : Host.Outcome State Fault Refusal :=
  Prog.nextIf (k < 2) (.up .vta (.controlListEntry k entry)) s

/-- MEM_CE (R404). -/
def execMemCe (u : UnitId) (region off bits : Nat) (s : State) : Host.Outcome State Fault Refusal :=
  Prog.nextIf (inRegion u region off) (.up u (.memCe u region off bits)) s

/-- MEM_UE (R405). -/
def execMemUe (u : UnitId) (region off bits : Nat) (reader : MemReader) (s : State) : Host.Outcome State Fault Refusal :=
  Prog.nextIf (inRegion u region off) (.up u (.thenSettle u (.memUe u region off bits reader))) s

/-- PATROL (R406). -/
def execPatrol (u : UnitId) (region : Nat) (ce ue : List (Nat × Nat)) (s : State) : Host.Outcome State Fault Refusal :=
  Prog.nextIf ((ce ++ ue).all fun e => inRegion u region e.1) (.up u (.thenSettle u (.patrol u region ce ue))) s

/-- FOLD_CLOSE (R415). -/
def execFoldClose (u : UnitId) (slot : Nat) (s : State) : Host.Outcome State Fault Refusal :=
  Prog.nextIf (slot < 16) (.up u (.foldClose u slot)) s

/-- FOLD_COMMIT (R415). -/
def execFoldCommit (u : UnitId) (slot : Nat) (s : State) : Host.Outcome State Fault Refusal :=
  Prog.nextIf (slot < 16) (.up u (.foldCommit u slot)) s

/-- PAGE_CLOSE (R416). -/
def execPageClose (u : UnitId) (s : State) : Host.Outcome State Fault Refusal :=
  Prog.next (.up u (.programPage u)) s

/-- JOURNAL_ENTRY (R418). -/
def execJournalEntry (u : UnitId) (s : State) : Host.Outcome State Fault Refusal :=
  Prog.next (.up u (.journal u)) s

end Sys2Proof.Machine
end

