-- ==== Sys2Proof/Machine/RowsDie.lean ====
section
/-! DEFINITION. The rows about a die: cluster map and tap stations, captures and pulses, trace and dumps, Sentinel, barrier release and power. -/

namespace Sys2Proof.Machine

/-- The tile framing marks the last result row of a tile on this edge (R166): slices and per-command counts with event 0x23 add it. -/
def Prog.countTileEnd (p : Nat) : Prog := .get fun s =>
  let n := s.rd .htu (Reg.TAP_PHYS_LOGICAL p)
  let t := s.station p
  let add (l : List (Nat × BitVec 40)) (sat : Bool) : List (Nat × BitVec 40) :=
    (List.range 16).foldl (fun l sl =>
      if s.rd .htu (Reg.TAP_SLICE_CFG_EVENT n sl) = 0x23 then
        let v := Sparse.get 0 l sl
        Sparse.set 0 l sl (if sat && v == BitVec.allOnes 40 then v else v + 1)
      else l) l
  .cond (!t.fallow && s.serves p) <| .modStation p fun t => { t with slices := add t.slices false, cmds := add t.cmds true }

/-- SWEEP_CAPTURE (R186). -/
def execSweepCapture (s : State) : Host.Outcome State Fault Refusal :=
  Prog.next (.up .htu (.thenSettle .htu .sweepCapture)) s

/-- PARTITION_CHANGE (R119). -/
def execPartitionChange (s : State) : Host.Outcome State Fault Refusal :=
  Prog.next (.up .htu .partitionChange) s

/-- MAP_APPLY (R54). -/
def execMapApply (s : State) : Host.Outcome State Fault Refusal :=
  Prog.next (.up .htu .mapDue) s

/-- HEARTBEAT (R48). -/
def execHeartbeat (n : Nat) (s : State) : Host.Outcome State Fault Refusal :=
  Prog.nextIf (n < 272) (.up .htu (.heartbeat n)) s

/-- CLUSTER_SILENT (R48). -/
def execClusterSilent (n : Nat) (s : State) : Host.Outcome State Fault Refusal :=
  Prog.nextIf (n < 272) (.up .htu (.clusterSilent n)) s

/-- CLUSTER_RESUMED (R48). -/
def execClusterResumed (n : Nat) (s : State) : Host.Outcome State Fault Refusal :=
  Prog.nextIf (n < 272) (.up .htu (.clusterResumed n)) s

/-- FALLOW_ENTRY (R38, R174, R230). -/
def execFallowEntry (n : Nat) (s : State) : Host.Outcome State Fault Refusal :=
  Prog.nextIf (n < 272) (.up .htu (.get fun s => .cond (!(s.station n).fallow) (.both (.laneFallow n) (.fallowEntry n)))) s

/-- FALLOW_EXIT (R174). -/
def execFallowExit (n : Nat) (s : State) : Host.Outcome State Fault Refusal :=
  Prog.nextIf (n < 272) (.up .htu (.fallowExit n)) s

/-- COMMAND_BOUNDARY (R171). -/
def execCommandBoundary (n : Nat) (s : State) : Host.Outcome State Fault Refusal :=
  Prog.nextIf (n < 272) (.up .htu (.boundary n)) s

/-- BACKGROUND_SCAN (R169). -/
def execBackgroundScan (n slice : Nat) (s : State) : Host.Outcome State Fault Refusal :=
  Prog.nextIf (n < 272 && slice < 16) (.up .htu (.scan n slice)) s

/-- ENERGY_ESTIMATE (R178, R179). -/
def execEnergyEstimate (s : State) : Host.Outcome State Fault Refusal :=
  Prog.next (.up .htu .energy) s

/-- CAPTURE (R49, R143, R163). -/
def execCapture (u : UnitId) (t : Nat) (s : State) : Host.Outcome State Fault Refusal :=
  Prog.next (.up u (.thenSettle u (.capture u t))) s

/-- PERIODIC_CAPTURE (R183). -/
def execPeriodicCapture (u : UnitId) (t : Nat) (s : State) : Host.Outcome State Fault Refusal :=
  Prog.next (.up u (.thenSettle u (.periodicCapture u t))) s

/-- ARM_TIME (R183). -/
def execArmTime (u : UnitId) (c : Nat) (s : State) : Host.Outcome State Fault Refusal :=
  Prog.next (.up u (.thenSettle u (.armDue u c))) s

/-- PULSE_FIRING (R158). -/
def execPulseFiring (u : UnitId) (gen : Nat) (s : State) : Host.Outcome State Fault Refusal :=
  Prog.nextIf (gen < genCount u) (.up u (.thenSettle u (.pulseFiring u gen))) s

/-- TRC_SRC_WORD (R171, R351). -/
def execTrcSrcWord (n : Nat) (tag : BitVec 8) (w : Word) (s : State) : Host.Outcome State Fault Refusal :=
  Prog.nextIf (n < 272) (.up .htu (.trcSrc n tag w)) s

/-- LADD_EXC_WORD (R41, R251 to R253). -/
def execLaddExcWord (port : Nat) (w : BitVec 128) (full : Bool) (s : State) : Host.Outcome State Fault Refusal :=
  Prog.nextIf (port < 8) (.up .htu (.laddWord port w full)) s

/-- WIN_SNOOP_WORD (R41, R255, R256). -/
def execWinSnoopWord (tag : BitVec 16) (w : BitVec 512) (last full : Bool) (s : State) : Host.Outcome State Fault Refusal :=
  Prog.next (.up .htu (.winWord tag w last full)) s

/-- TILE_FIRST (R226). -/
def execTileFirst (n : Nat) (fmt : BitVec 3) (s : State) : Host.Outcome State Fault Refusal :=
  Prog.nextIf (n < 272) (.up .htu (.tileFirst n fmt)) s

/-- RES_LAST (R165, R230, R232). -/
def execResLast (n : Nat) (s : State) : Host.Outcome State Fault Refusal :=
  Prog.nextIf (n < 272) (.up .htu (.both (.countTileEnd n) (.resLast n))) s

/-- TILE_VERDICT (R230, R232, R238). -/
def execTileVerdict (n : Nat) (s : State) : Host.Outcome State Fault Refusal :=
  Prog.nextIf (n < 272) (.up .htu (.thenSettle .htu (.tileVerdict n))) s

/-- CLUSTER_CLOCK_EDGE (R165, R172, R223). -/
def execClusterClockEdge (n : Nat) (e : EdgeIn) (s : State) : Host.Outcome State Fault Refusal :=
  Prog.nextIf (n < 272) (.up .htu (.both (.countEdge n e false) (.laneEdge n e))) s

/-- DRAIN_ACK (R42, R261). -/
def execDrainAck (s : State) : Host.Outcome State Fault Refusal :=
  Prog.next (.up .htu (.thenSettle .htu .drainAcked)) s

/-- ACK_FALL (R42). -/
def execAckFall (g : HsGroup) (s : State) : Host.Outcome State Fault Refusal :=
  Prog.next (match g with
    | .cap => .up .htu .ackFallCap
    | .drain => .up .htu (.htu fun x => { x with drainAcked := false })) s

/-- STEP_OPEN_PULSE (R43, R238, R241, R248): the safe-state logic answers it while HOST_RST is asserted. -/
def execStepOpenPulse (step : BitVec 32) (s : State) : Host.Outcome State Fault Refusal :=
  Prog.next (if s.h.inReset then .stepPulse step else .thenSettle .htu (.stepPulse step)) s

/-- STEP_START_TIME (R242). -/
def execStepStartTime (s : State) : Host.Outcome State Fault Refusal :=
  Prog.next (.up .htu (.thenSettle .htu .stepStart)) s

/-- BARRIER_DONE (R43, R44, R240): the safe-state logic releases while HOST_RST is asserted. -/
def execBarrierDone (s : State) : Host.Outcome State Fault Refusal :=
  Prog.next (if s.h.inReset then .barrierPulse else .thenSettle .htu .barrierPulse) s

/-- BARRIER_ARRIVAL (R213). -/
def execBarrierArrival (n : Nat) (s : State) : Host.Outcome State Fault Refusal :=
  Prog.nextIf (n < 272) (.up .htu (.thenSettle .htu (.barrierEdge n))) s

/-- CONTROL_PERIOD (R331 to R335). -/
def execControlPeriod (s : State) : Host.Outcome State Fault Refusal :=
  Prog.next (.up .htu (.thenSettle .htu .controlPeriod)) s

/-- DEFER_EXPIRED (R332). -/
def execDeferExpired (s : State) : Host.Outcome State Fault Refusal :=
  Prog.next (.up .htu .deferExpired) s

/-- THERM_STALE (R334). -/
def execThermStale (s : State) : Host.Outcome State Fault Refusal :=
  Prog.next (.up .htu .thermStale) s

/-- THERM_UPDATE (R334). -/
def execThermUpdate (codes : List (BitVec 10)) (s : State) : Host.Outcome State Fault Refusal :=
  Prog.next (.up .htu (.thermUpdate codes)) s

/-- CAP_ACK (R42, R327). -/
def execCapAck (slow : Bool) (s : State) : Host.Outcome State Fault Refusal :=
  Prog.next (.up .htu (.capAck slow)) s

/-- HANDSHAKE_LATE (R42). -/
def execHandshakeLate (g : HsGroup) (s : State) : Host.Outcome State Fault Refusal :=
  Prog.next (.up .htu (.handshakeLate g)) s

/-- SETTLE (R326). -/
def execSettle (s : State) : Host.Outcome State Fault Refusal :=
  Prog.next (.up .htu .settled) s

/-- TRIM_REQUEST (R329). -/
def execTrimRequest (g : Nat) (s : State) : Host.Outcome State Fault Refusal :=
  Prog.nextIf (g < 16) (.up .htu (.trimRequest g)) s

/-- AGE_MON_DONE (R329). -/
def execAgeMonDone (g : Nat) (count : BitVec 24) (s : State) : Host.Outcome State Fault Refusal :=
  Prog.nextIf (g < 16) (.up .htu (.ageDone g count)) s

/-- RELEASE_WAVE (R343, R344). -/
def execReleaseWave (s : State) : Host.Outcome State Fault Refusal :=
  Prog.next (.up .htu .releaseWave) s

/-- DROOP_DET_RISE (R175, R344). -/
def execDroopDetRise (g : Nat) (s : State) : Host.Outcome State Fault Refusal :=
  Prog.nextIf (g < 16) (.up .htu (.droopRise g)) s

/-- DROOP_DET_CLEAR (R344). -/
def execDroopDetClear (g : Nat) (s : State) : Host.Outcome State Fault Refusal :=
  Prog.nextIf (g < 16) (.up .htu (.droopClear g)) s

/-- DROOP_FORCED (R344). -/
def execDroopForced (s : State) : Host.Outcome State Fault Refusal :=
  Prog.next (.up .htu .droopForced) s

/-- VWARN_CROSSING (R345, R346). -/
def execVwarnCrossing (rail : Nat) (s : State) : Host.Outcome State Fault Refusal :=
  Prog.nextIf (rail < 18) (.up .htu (.vwarn rail)) s

/-- VRESET_CROSSING (R345). -/
def execVresetCrossing (rail : Nat) (s : State) : Host.Outcome State Fault Refusal :=
  Prog.nextIf (rail < 18) (.up .htu (.vresetRail rail)) s

/-- BROWNOUT_RESUME (R345, R347). -/
def execBrownoutResume (ns : Nat) (s : State) : Host.Outcome State Fault Refusal :=
  Prog.next (.up .htu (.brownoutResume ns)) s

/-- POST_US_EXPIRY (R354). -/
def execPostUsExpiry (u : UnitId) (s : State) : Host.Outcome State Fault Refusal :=
  Prog.next (.up u (.thenSettle u (.postExpiry u))) s

/-- READOUT_COMPLETE (R354, R358). -/
def execReadoutComplete (u : UnitId) (s : State) : Host.Outcome State Fault Refusal :=
  Prog.next (.up u (.thenSettle u (.readout u))) s

/-- TRACE_SYNC (R353). -/
def execTraceSync (u : UnitId) (s : State) : Host.Outcome State Fault Refusal :=
  Prog.next (.up u (.syncAll u)) s

/-- DUMP_UNIT (R361 to R363). -/
def execDumpUnit (channel : Nat) (data : List Byte) (poisoned : Bool) (s : State) : Host.Outcome State Fault Refusal :=
  Prog.nextIf (channel < 8) (.up .htu (.thenSettle .htu (.dumpUnit channel data poisoned))) s

end Sys2Proof.Machine
end

