-- ==== Sys2Proof/Machine/RowsLink.lean ====
section
/-! DEFINITION. The rows about Furrow ports, scheduling and fleet time. -/

namespace Sys2Proof.Machine

/-- TRAINING (R372, R373). -/
def execTraining (u : UnitId) (k : Nat) (t : TrainRun) (s : State) : Host.Outcome State Fault Refusal :=
  Prog.nextIf (k < portCount u) (.up u (.thenSettle u (.training u k t))) s

/-- TRAINING_RETRY (R373). -/
def execTrainingRetry (u : UnitId) (k : Nat) (t : TrainRun) (s : State) : Host.Outcome State Fault Refusal :=
  Prog.nextIf (k < portCount u) (.up u (.thenSettle u (.trainingRetry u k t))) s

/-- PEER_SENSE (R373, R437). -/
def execPeerSense (u : UnitId) (k : Nat) (found : Bool) (s : State) : Host.Outcome State Fault Refusal :=
  Prog.nextIf (k < portCount u) (.up u (.peerSense u k found)) s

/-- FORWARDED_CLOCK_LOSS (R153, R375). -/
def execForwardedClockLoss (u : UnitId) (k : Nat) (s : State) : Host.Outcome State Fault Refusal :=
  Prog.nextIf (k < portCount u) (.up u (.thenSettle u (.clockLoss u k))) s

/-- DATA_FLIT (R376 to R384). -/
def execDataFlit (u : UnitId) (k : Nat) (flit : List Byte) (s : State) : Host.Outcome State Fault Refusal :=
  Prog.nextIf (k < portCount u) (.up u (.dataFlit u k flit)) s

/-- RETRY_TIMEOUT (R379). -/
def execRetryTimeout (u : UnitId) (k : Nat) (s : State) : Host.Outcome State Fault Refusal :=
  Prog.nextIf (k < portCount u) (.up u (.retryTimeout u k)) s

/-- CONN (R374, R380). -/
def execConn (u : UnitId) (k die : Nat) (number : BitVec 32) (s : State) : Host.Outcome State Fault Refusal :=
  Prog.nextIf (k < portCount u) (.up u (.thenSettle u (.connRx u k die number))) s

/-- BYE (R380, R399). -/
def execBye (u : UnitId) (k : Nat) (s : State) : Host.Outcome State Fault Refusal :=
  Prog.nextIf (k < portCount u) (.up u (.byeRx u k)) s

/-- HOTPLUG_ADD_TIMEOUT (R399). -/
def execHotplugAddTimeout (u : UnitId) (k : Nat) (s : State) : Host.Outcome State Fault Refusal :=
  Prog.nextIf (k < portCount u) (.up u (.thenSettle u (.addTimeout u k))) s

/-- FLIT_SLOT (R376, R388, R389). -/
def execFlitSlot (u : UnitId) (k : Nat) (s : State) : Host.Outcome State Fault Refusal :=
  Prog.nextIf (k < portCount u) (.up u (.flitSlot u k)) s

/-- TIME_GATE (R389). -/
def execTimeGate (u : UnitId) (s : State) : Host.Outcome State Fault Refusal :=
  Prog.next (.up u (.timeGate u)) s

/-- QUEUE_SAMPLE (R219, R391). -/
def execQueueSample (u : UnitId) (s : State) : Host.Outcome State Fault Refusal :=
  Prog.next (.up u (.sampleQueues u)) s

/-- NO_PATH_TIMEOUT (R396). -/
def execNoPathTimeout (u : UnitId) (c : Nat) (s : State) : Host.Outcome State Fault Refusal :=
  Prog.nextIf (c < (match u with | .htu => 1 | .vta => 64)) (.up u (.thenSettle u (.noPath u c))) s

/-- SYNC (R137 to R142). -/
def execSync (u : UnitId) (k : Nat) (m : TimeMsg) (sub : Nat) (s : State) : Host.Outcome State Fault Refusal :=
  Prog.nextIf (k < portCount u) (.up u (.get fun s => .syncRx u k m (s.stampAt u sub))) s

/-- DLY_REQ (R137, R138). -/
def execDlyReq (u : UnitId) (k : Nat) (m : TimeMsg) (sub : Nat) (s : State) : Host.Outcome State Fault Refusal :=
  Prog.nextIf (k < portCount u) (.up u (.get fun s => .dlyReqRx u k m (s.stampAt u sub))) s

/-- DLY_RESP (R138 to R143). -/
def execDlyResp (u : UnitId) (k : Nat) (m : TimeMsg) (s : State) : Host.Outcome State Fault Refusal :=
  Prog.nextIf (k < portCount u) (.up u (.thenSettle u (.dlyRespRx u k m))) s

/-- EXCHANGE_INTERVAL (R136, R141). -/
def execExchangeInterval (u : UnitId) (k : Nat) (s : State) : Host.Outcome State Fault Refusal :=
  Prog.nextIf (k < portCount u) (.up u (.exchangeTick u k)) s

/-- HOLDOVER_ENTRY (R148). -/
def execHoldoverEntry (u : UnitId) (s : State) : Host.Outcome State Fault Refusal :=
  Prog.next (.up u (.holdover u)) s

/-- HOLD_MAX_EXPIRY (R148). -/
def execHoldMaxExpiry (u : UnitId) (s : State) : Host.Outcome State Fault Refusal :=
  Prog.next (.up u (.thenSettle u (.holdMax u))) s

/-- PTP_SYNC (R144, R145). -/
def execPtpSync (k : Nat) (m : PtpMsg) (gm : Word) (x : PtpTime) (sub : Nat) (s : State) : Host.Outcome State Fault Refusal :=
  Prog.nextIf (k < 2) (.up .vta (.ptpSyncRx k m gm x sub)) s

/-- PTP_DELAY_RESP (R144, R145). -/
def execPtpDelayResp (k : Nat) (m : PtpMsg) (seq ts : Nat) (s : State) : Host.Outcome State Fault Refusal :=
  Prog.nextIf (k < 2) (.up .vta (.thenSettle .vta (.delayRespRx k m seq ts))) s

/-- PTP_ANNOUNCE (R145). -/
def execPtpAnnounce (k : Nat) (m : PtpMsg) (gm : Word) (s : State) : Host.Outcome State Fault Refusal :=
  Prog.nextIf (k < 2) (.up .vta (.announceRx k m gm)) s

/-- ANNOUNCE_TIMEOUT (R145). -/
def execAnnounceTimeout (k : Nat) (s : State) : Host.Outcome State Fault Refusal :=
  Prog.nextIf (k < 2) (.up .vta (.announceLost k)) s

/-- PTP_DELAY_REQ (R144). -/
def execPtpDelayReq (sub : Nat) (s : State) : Host.Outcome State Fault Refusal :=
  Prog.next (.up .vta (.delayReqTx sub)) s

/-- SWITCH_GATE (R150, R151). -/
def execSwitchGate (s : State) : Host.Outcome State Fault Refusal :=
  Prog.next (.up .htu (.thenSettle .htu .gateSwitch)) s

/-- SWITCH_BACK_TO_PORT_A (R150). -/
def execSwitchBackToPortA (s : State) : Host.Outcome State Fault Refusal :=
  Prog.next (.up .htu .backToA) s

/-- TIME_SOURCE_LOSS (R153). -/
def execTimeSourceLoss (u : UnitId) (s : State) : Host.Outcome State Fault Refusal :=
  Prog.next (.up u (.timeSourceLost u)) s

/-- TIME_SOURCE_RETURN (R153). -/
def execTimeSourceReturn (u : UnitId) (s : State) : Host.Outcome State Fault Refusal :=
  Prog.next (.up u (.thenSettle u (.sourceReturn u))) s

/-- PLL_LOCK_LOSS (R153). -/
def execPllLockLoss (u : UnitId) (k : Nat) (s : State) : Host.Outcome State Fault Refusal :=
  Prog.nextIf (k < 2) (.up u (.pllLost u k)) s

/-- PLL_READY (R149, R155). -/
def execPllReady (u : UnitId) (k : Nat) (s : State) : Host.Outcome State Fault Refusal :=
  Prog.nextIf (k < 2) (.up u (.both (.pllGained u k) (.joinReady u))) s

/-- TIME_PORT_WAIT_EXPIRY (R155). -/
def execTimePortWaitExpiry (s : State) : Host.Outcome State Fault Refusal :=
  Prog.next (.up .htu .portWait) s

/-- TIME_DOMAIN_TICK (R131, R218). -/
def execTimeDomainTick (u : UnitId) (s : State) : Host.Outcome State Fault Refusal :=
  Prog.next (.up u (.seq [.tick u, .get fun t => .cond (t.epoch u != s.epoch u) (.epochLoss u),
    .get fun t => .cond ((t.dev u).engines != []) (.showEngines u)])) s

end Sys2Proof.Machine
end

