-- ==== Sys2Proof/Machine/RowsPacket.lean ====
section
/-! DEFINITION. The rows of the opcode table that are command packets (R96): each is its packet reaching a mailbox (R68 to R88). -/

namespace Sys2Proof.Machine

/-- A packet reaches a mailbox of a unit; the unit must have that mailbox (R68). -/
def runCommand (u : UnitId) (m code : Nat) (p : Packet) (s : State) : Host.Outcome State Fault Refusal :=
  Prog.nextIf (m < mbxCount u) (.command u m code p) s

/-- NOP (R93). -/
def execNop (u : UnitId) (m : Nat) (p : Packet) (s : State) : Host.Outcome State Fault Refusal :=
  runCommand u m 0x01 p s

/-- IDENT (R93). -/
def execIdent (u : UnitId) (m : Nat) (p : Packet) (s : State) : Host.Outcome State Fault Refusal :=
  runCommand u m 0x02 p s

/-- FENCE (R85). -/
def execFence (u : UnitId) (m : Nat) (p : Packet) (s : State) : Host.Outcome State Fault Refusal :=
  runCommand u m 0x03 p s

/-- STOP_FUNCTION (R91). -/
def execStopFunction (u : UnitId) (m : Nat) (p : Packet) (s : State) : Host.Outcome State Fault Refusal :=
  runCommand u m 0x04 p s

/-- START_FUNCTION (R91). -/
def execStartFunction (u : UnitId) (m : Nat) (p : Packet) (s : State) : Host.Outcome State Fault Refusal :=
  runCommand u m 0x05 p s

/-- CONFIG_WRITE (R94). -/
def execConfigWrite (u : UnitId) (m : Nat) (p : Packet) (s : State) : Host.Outcome State Fault Refusal :=
  runCommand u m 0x06 p s

/-- CONFIG_READ (R94). -/
def execConfigRead (u : UnitId) (m : Nat) (p : Packet) (s : State) : Host.Outcome State Fault Refusal :=
  runCommand u m 0x07 p s

/-- ARM_COLLECTOR (R95, R180 to R183). -/
def execArmCollector (u : UnitId) (m : Nat) (p : Packet) (s : State) : Host.Outcome State Fault Refusal :=
  runCommand u m 0x10 p s

/-- DISARM_COLLECTOR (R184). -/
def execDisarmCollector (u : UnitId) (m : Nat) (p : Packet) (s : State) : Host.Outcome State Fault Refusal :=
  runCommand u m 0x11 p s

/-- SNAPSHOT_AT (R205). -/
def execSnapshotAt (u : UnitId) (m : Nat) (p : Packet) (s : State) : Host.Outcome State Fault Refusal :=
  runCommand u m 0x12 p s

/-- SWEEP_FULL (R186). -/
def execSweepFull (u : UnitId) (m : Nat) (p : Packet) (s : State) : Host.Outcome State Fault Refusal :=
  runCommand u m 0x13 p s

/-- READ_STREAM (R397). -/
def execReadStream (u : UnitId) (m : Nat) (p : Packet) (s : State) : Host.Outcome State Fault Refusal :=
  runCommand u m 0x14 p s

/-- ACK_STREAM (R398). -/
def execAckStream (u : UnitId) (m : Nat) (p : Packet) (s : State) : Host.Outcome State Fault Refusal :=
  runCommand u m 0x15 p s

/-- TIME_STATUS (R160). -/
def execTimeStatus (u : UnitId) (m : Nat) (p : Packet) (s : State) : Host.Outcome State Fault Refusal :=
  runCommand u m 0x20 p s

/-- PULSE_PROGRAM (R157). -/
def execPulseProgram (u : UnitId) (m : Nat) (p : Packet) (s : State) : Host.Outcome State Fault Refusal :=
  runCommand u m 0x21 p s

/-- PULSE_CANCEL (R159). -/
def execPulseCancel (u : UnitId) (m : Nat) (p : Packet) (s : State) : Host.Outcome State Fault Refusal :=
  runCommand u m 0x22 p s

/-- SENTINEL_CONFIG (R236). -/
def execSentinelConfig (u : UnitId) (m : Nat) (p : Packet) (s : State) : Host.Outcome State Fault Refusal :=
  runCommand u m 0x30 p s

/-- STEP_OPEN (R242). -/
def execStepOpen (u : UnitId) (m : Nat) (p : Packet) (s : State) : Host.Outcome State Fault Refusal :=
  runCommand u m 0x31 p s

/-- STEP_CLOSE (R242). -/
def execStepClose (u : UnitId) (m : Nat) (p : Packet) (s : State) : Host.Outcome State Fault Refusal :=
  runCommand u m 0x32 p s

/-- DIGEST_COMPARE (R257). -/
def execDigestCompare (u : UnitId) (m : Nat) (p : Packet) (s : State) : Host.Outcome State Fault Refusal :=
  runCommand u m 0x33 p s

/-- SELFTEST_RUN (R259). -/
def execSelftestRun (u : UnitId) (m : Nat) (p : Packet) (s : State) : Host.Outcome State Fault Refusal :=
  runCommand u m 0x34 p s

/-- TREE_LOAD (R284). -/
def execTreeLoad (u : UnitId) (m : Nat) (p : Packet) (s : State) : Host.Outcome State Fault Refusal :=
  runCommand u m 0x40 p s

/-- FEATURE_TABLE_LOAD (R285). -/
def execFeatureTableLoad (u : UnitId) (m : Nat) (p : Packet) (s : State) : Host.Outcome State Fault Refusal :=
  runCommand u m 0x41 p s

/-- SCORE_RUN (R295). -/
def execScoreRun (u : UnitId) (m : Nat) (p : Packet) (s : State) : Host.Outcome State Fault Refusal :=
  runCommand u m 0x42 p s

/-- MODEL_SWAP (R286). -/
def execModelSwap (u : UnitId) (m : Nat) (p : Packet) (s : State) : Host.Outcome State Fault Refusal :=
  runCommand u m 0x43 p s

/-- POWER_CAP (R336). -/
def execPowerCap (u : UnitId) (m : Nat) (p : Packet) (s : State) : Host.Outcome State Fault Refusal :=
  runCommand u m 0x50 p s

/-- BUDGET_SHIFT (R337). -/
def execBudgetShift (u : UnitId) (m : Nat) (p : Packet) (s : State) : Host.Outcome State Fault Refusal :=
  runCommand u m 0x51 p s

/-- STAGGER_RELEASE (R342). -/
def execStaggerRelease (u : UnitId) (m : Nat) (p : Packet) (s : State) : Host.Outcome State Fault Refusal :=
  runCommand u m 0x52 p s

/-- START_AT (R313). -/
def execStartAt (u : UnitId) (m : Nat) (p : Packet) (s : State) : Host.Outcome State Fault Refusal :=
  runCommand u m 0x53 p s

/-- TRACE_ARM (R350). -/
def execTraceArm (u : UnitId) (m : Nat) (p : Packet) (s : State) : Host.Outcome State Fault Refusal :=
  runCommand u m 0x60 p s

/-- TRACE_TRIGGER (R356). -/
def execTraceTrigger (u : UnitId) (m : Nat) (p : Packet) (s : State) : Host.Outcome State Fault Refusal :=
  runCommand u m 0x61 p s

/-- TENSOR_DUMP (R360). -/
def execTensorDump (u : UnitId) (m : Nat) (p : Packet) (s : State) : Host.Outcome State Fault Refusal :=
  runCommand u m 0x62 p s

/-- COMPRESS_FLUSH (R366). -/
def execCompressFlush (u : UnitId) (m : Nat) (p : Packet) (s : State) : Host.Outcome State Fault Refusal :=
  runCommand u m 0x63 p s

/-- LOG_READ (R419). -/
def execLogRead (u : UnitId) (m : Nat) (p : Packet) (s : State) : Host.Outcome State Fault Refusal :=
  runCommand u m 0x70 p s

/-- LOG_MARK (R420). -/
def execLogMark (u : UnitId) (m : Nat) (p : Packet) (s : State) : Host.Outcome State Fault Refusal :=
  runCommand u m 0x71 p s

/-- SCRUB_RANGE (R407). -/
def execScrubRange (u : UnitId) (m : Nat) (p : Packet) (s : State) : Host.Outcome State Fault Refusal :=
  runCommand u m 0x72 p s

/-- RETIRE (R410). -/
def execRetire (u : UnitId) (m : Nat) (p : Packet) (s : State) : Host.Outcome State Fault Refusal :=
  runCommand u m 0x73 p s

/-- ATTEST (R112). -/
def execAttest (u : UnitId) (m : Nat) (p : Packet) (s : State) : Host.Outcome State Fault Refusal :=
  runCommand u m 0x80 p s

/-- POLICY_LOAD (R123). -/
def execPolicyLoad (u : UnitId) (m : Nat) (p : Packet) (s : State) : Host.Outcome State Fault Refusal :=
  runCommand u m 0x81 p s

/-- KEY_ROTATE (R128). -/
def execKeyRotate (u : UnitId) (m : Nat) (p : Packet) (s : State) : Host.Outcome State Fault Refusal :=
  runCommand u m 0x82 p s

/-- QUARANTINE (R306). -/
def execQuarantine (u : UnitId) (m : Nat) (p : Packet) (s : State) : Host.Outcome State Fault Refusal :=
  runCommand u m 0x90 p s

/-- PROBATION (R304). -/
def execProbation (u : UnitId) (m : Nat) (p : Packet) (s : State) : Host.Outcome State Fault Refusal :=
  runCommand u m 0x91 p s

/-- LEASE_RENEW (R311). -/
def execLeaseRenew (u : UnitId) (m : Nat) (p : Packet) (s : State) : Host.Outcome State Fault Refusal :=
  runCommand u m 0x92 p s

/-- PORT_HOTPLUG (R399). -/
def execPortHotplug (u : UnitId) (m : Nat) (p : Packet) (s : State) : Host.Outcome State Fault Refusal :=
  runCommand u m 0x93 p s

/-- ABORT_JOB (R316). -/
def execAbortJob (u : UnitId) (m : Nat) (p : Packet) (s : State) : Host.Outcome State Fault Refusal :=
  runCommand u m 0x94 p s

end Sys2Proof.Machine
end

