-- ==== Sys2Proof/Machine/RowsTray.lean ====
section
/-! DEFINITION. The rows about the tray and the levels above: steps, sheaves, the ladder, scoring, jobs, roles, replies, records and the archive. -/

namespace Sys2Proof.Machine

/-- STEP_ARRIVAL (R215, R216, R308). -/
def execStepArrival (l : Level) (input : Nat) (r : Rec) (s : State) : Host.Outcome State Fault Refusal :=
  Prog.nextIf (input < levelInputs l) (.up .vta (.both (.rsvdFrom .vta (inputPort l input) r.rsvd) (.stepArrival l input r.clean))) s

/-- STEP_PENDING_REPORT (R216). -/
def execStepPendingReport (l : Level) (step : BitVec 32) (s : State) : Host.Outcome State Fault Refusal :=
  Prog.next (.up .vta (.stepPending l step)) s

/-- STEP_RESULT (R217). -/
def execStepResult (u : UnitId) (r : Rec) (s : State) : Host.Outcome State Fault Refusal :=
  Prog.next (.up u (.thenSettle u (.both (.rsvdFrom u none r.rsvd) (.stepResult u r.clean)))) s

/-- TAINT_NOTICE (R243, R244, R253). -/
def execTaintNotice (u : UnitId) (input : Nat) (r : Rec) (s : State) : Host.Outcome State Fault Refusal :=
  Prog.next (.up u (.thenSettle u (.both (.rsvdFrom u (if input < 64 then some input else none) r.rsvd) (.taintNotice u input r.clean)))) s

/-- REPLAY_LOST (R317). -/
def execReplayLost (input : Nat) (r : Rec) (s : State) : Host.Outcome State Fault Refusal :=
  Prog.nextIf (input < 64) (.up .vta (.thenSettle .vta (.both (.rsvdPort .vta input r.rsvd) (.replayLostRx input r.clean)))) s

/-- SHEAF_PARTIAL (R207). -/
def execSheafPartial (l : Level) (input : Nat) (r : Rec) (s : State) : Host.Outcome State Fault Refusal :=
  Prog.nextIf (input < levelInputs l) (.up .vta (.both (.rsvdFrom .vta (inputPort l input) r.rsvd) (.sheafPartial l input r.clean))) s

/-- MERGE_CUTOFF (R207). -/
def execMergeCutoff (l : Level) (k : SheafKey) (epoch : BitVec 32) (s : State) : Host.Outcome State Fault Refusal :=
  Prog.next (.up .vta (.mergeCutoff l k epoch)) s

/-- SHEAF_RESULT (R206, R207). -/
def execSheafResult (l : Level) (k : SheafKey) (epoch : BitVec 32) (s : State) : Host.Outcome State Fault Refusal :=
  Prog.next (.up .vta (.thenSettle .vta (.sheafResult l k epoch))) s

/-- MEMBERSHIP (R210, R211). -/
def execMembership (l : Level) (input : Nat) (r : Rec) (s : State) : Host.Outcome State Fault Refusal :=
  Prog.nextIf (input < levelInputs l) (.up .vta (.both (.rsvdFrom .vta (inputPort l input) r.rsvd) (.membership l input r.clean))) s

/-- LADDER_ENTER (R219). -/
def execLadderEnter (u : UnitId) (s : State) : Host.Outcome State Fault Refusal :=
  Prog.next (.up u (.ladderRise u)) s

/-- LADDER_EXIT (R219). -/
def execLadderExit (u : UnitId) (s : State) : Host.Outcome State Fault Refusal :=
  Prog.next (.up u (.ladderFall u)) s

/-- LADDER (R219, R380). -/
def execLadder (u : UnitId) (level : Nat) (epoch : BitVec 32) (s : State) : Host.Outcome State Fault Refusal :=
  Prog.next (.up u (.ladderRx u level epoch)) s

/-- LADDER_APPLY (R220). -/
def execLadderApply (u : UnitId) (s : State) : Host.Outcome State Fault Refusal :=
  Prog.next (.up u (.ladderApply u)) s

/-- FEATURE_CUTOFF (R272, R290). -/
def execFeatureCutoff (period : Nat) (s : State) : Host.Outcome State Fault Refusal :=
  Prog.next (.up .vta (.thenSettle .vta (.featureCutoff period))) s

/-- RUN_SET_COMPLETE (R290). -/
def execRunSetComplete (period : Nat) (s : State) : Host.Outcome State Fault Refusal :=
  Prog.next (.up .vta (.thenSettle .vta (.runSetComplete period))) s

/-- TCAM_SCRUB (R298). -/
def execTcamScrub (bank : Nat) (differ : List Nat) (s : State) : Host.Outcome State Fault Refusal :=
  Prog.nextIf (bank < 64) (.up .vta (.thenSettle .vta (.tcamScrub bank differ))) s

/-- LIVENESS_CHECK (R302, R309, R310). -/
def execLivenessCheck (s : State) : Host.Outcome State Fault Refusal :=
  Prog.next (.up .vta (.thenSettle .vta .livenessCheck)) s

/-- JOB_START (R313, R314). -/
def execJobStart (u : UnitId) (s : State) : Host.Outcome State Fault Refusal :=
  Prog.next (.up u (.thenSettle u (.jobStart u))) s

/-- START_NO_REPLY (R315). -/
def execStartNoReply (port : Nat) (s : State) : Host.Outcome State Fault Refusal :=
  Prog.nextIf (port < 64) (.up .vta (.thenSettle .vta (.startNoReply port))) s

/-- START_AT_REPLY_DEADLINE (R314). -/
def execStartAtReplyDeadline (s : State) : Host.Outcome State Fault Refusal :=
  Prog.next (.up .vta (.thenSettle .vta .startDeadline)) s

/-- ROLE_HEARTBEAT (R318). -/
def execRoleHeartbeat (l : Level) (s : State) : Host.Outcome State Fault Refusal :=
  Prog.next (.up .vta (.roleHeartbeat l)) s

/-- ROLE_TAKEOVER (R318). -/
def execRoleTakeover (l : Level) (s : State) : Host.Outcome State Fault Refusal :=
  Prog.next (.up .vta (.gorse .vta (.roleTakeover l))) s

/-- ROLE_CHANGE (R318). -/
def execRoleChange (r : Rec) (s : State) : Host.Outcome State Fault Refusal :=
  Prog.next (.up .vta (.gorse .vta (.both (.rsvdFrom .vta none r.rsvd) (.roleChange r.clean)))) s

/-- VC1_REPLY (R378). -/
def execVc1Reply (u : UnitId) (port : Nat) (r : ReplyMsg) (s : State) : Host.Outcome State Fault Refusal :=
  Prog.nextIf (port < (match u with | .htu => 1 | .vta => 64)) (.up u (.thenSettle u (.vc1Reply u port r))) s

/-- ARCHIVE_SEGMENT_CLOSE (R369). -/
def execArchiveSegmentClose (die unit stream : Nat) (s : State) : Host.Outcome State Fault Refusal :=
  Prog.next (.up .vta (.get fun s => .opt
    (s.vx.segs.find? fun g => g.die == die && g.unit == unit && g.stream == stream) .closeSegment)) s

/-- RECORD_INGRESS (R390, R394). -/
def execRecordIngress (port : Nat) (colour : BitVec 2) (r : Rec) (s : State) : Host.Outcome State Fault Refusal :=
  Prog.nextIf (port < 64) (.up .vta (.thenSettle .vta (.both (.rsvdPort .vta port r.rsvd) (.recordIngress colour.toNat r.clean)))) s

/-- GAP_WAIT_EXPIRY (R394). -/
def execGapWaitExpiry (die unit stream : Nat) (s : State) : Host.Outcome State Fault Refusal :=
  Prog.next (.up .vta (.gapWait die unit stream)) s

/-- MAILBOX_9_DATAGRAM (R114, R317, R435). -/
def execMailbox9Datagram (d : Datagram) (s : State) : Host.Outcome State Fault Refusal :=
  Prog.next (.up .vta (.mailbox9 d)) s

end Sys2Proof.Machine
end

