-- ==== Sys2Proof/Machine/Dispatch.lean ====
section
/-! DEFINITION. The meaning of every command: one arm for each constructor of Instr. -/

namespace Sys2Proof.Machine

/-- The effect of a command on everything but the queue of commands that wait. -/
def exec (i : Instr) (s : State) : Host.Outcome State Fault Refusal :=
  match i with
  | .registerWrite u a off wide v => Sys2Proof.Machine.execRegisterWrite u a off wide v s
  | .rcRead u a off wide => Sys2Proof.Machine.execRcRead u a off wide s
  | .groRead u a off wide => Sys2Proof.Machine.execGroRead u a off wide s
  | .misalignedAccess u a off size write => Sys2Proof.Machine.execMisalignedAccess u a off size write s
  | .lowHalfRead u a off => Sys2Proof.Machine.execLowHalfRead u a off s
  | .lowHalfWrite u a off v => Sys2Proof.Machine.execLowHalfWrite u a off v s
  | .highHalfWrite u a off v => Sys2Proof.Machine.execHighHalfWrite u a off v s
  | .timNowRead u a wide => Sys2Proof.Machine.execTimNowRead u a wide s
  | .hostRst powerUp => Sys2Proof.Machine.execHostRst powerUp s
  | .htuStart b => Sys2Proof.Machine.execHtuStart b s
  | .policyStartApply u => Sys2Proof.Machine.execPolicyStartApply u s
  | .coreClockLoss => Sys2Proof.Machine.execCoreClockLoss s
  | .mbxReqWrite u m a w => Sys2Proof.Machine.execMbxReqWrite u m a w s
  | .mbxDoorbell u m a => Sys2Proof.Machine.execMbxDoorbell u m a s
  | .mbxRspRead u m a => Sys2Proof.Machine.execMbxRspRead u m a s
  | .nop u m p => Sys2Proof.Machine.execNop u m p s
  | .ident u m p => Sys2Proof.Machine.execIdent u m p s
  | .fence u m p => Sys2Proof.Machine.execFence u m p s
  | .fenceComplete u m lost => Sys2Proof.Machine.execFenceComplete u m lost s
  | .stopFunction u m p => Sys2Proof.Machine.execStopFunction u m p s
  | .startFunction u m p => Sys2Proof.Machine.execStartFunction u m p s
  | .functionDrained u fid => Sys2Proof.Machine.execFunctionDrained u fid s
  | .drainLimitExpiry u fid => Sys2Proof.Machine.execDrainLimitExpiry u fid s
  | .configWrite u m p => Sys2Proof.Machine.execConfigWrite u m p s
  | .configRead u m p => Sys2Proof.Machine.execConfigRead u m p s
  | .armCollector u m p => Sys2Proof.Machine.execArmCollector u m p s
  | .disarmCollector u m p => Sys2Proof.Machine.execDisarmCollector u m p s
  | .snapshotAt u m p => Sys2Proof.Machine.execSnapshotAt u m p s
  | .sweepFull u m p => Sys2Proof.Machine.execSweepFull u m p s
  | .sweepCapture => Sys2Proof.Machine.execSweepCapture s
  | .readStream u m p => Sys2Proof.Machine.execReadStream u m p s
  | .ackStream u m p => Sys2Proof.Machine.execAckStream u m p s
  | .timeStatus u m p => Sys2Proof.Machine.execTimeStatus u m p s
  | .pulseProgram u m p => Sys2Proof.Machine.execPulseProgram u m p s
  | .pulseCancel u m p => Sys2Proof.Machine.execPulseCancel u m p s
  | .pulseFiring u gen => Sys2Proof.Machine.execPulseFiring u gen s
  | .sentinelConfig u m p => Sys2Proof.Machine.execSentinelConfig u m p s
  | .stepOpen u m p => Sys2Proof.Machine.execStepOpen u m p s
  | .stepClose u m p => Sys2Proof.Machine.execStepClose u m p s
  | .digestCompare u m p => Sys2Proof.Machine.execDigestCompare u m p s
  | .selftestRun u m p => Sys2Proof.Machine.execSelftestRun u m p s
  | .treeLoad u m p => Sys2Proof.Machine.execTreeLoad u m p s
  | .featureTableLoad u m p => Sys2Proof.Machine.execFeatureTableLoad u m p s
  | .scoreRun u m p => Sys2Proof.Machine.execScoreRun u m p s
  | .modelSwap u m p => Sys2Proof.Machine.execModelSwap u m p s
  | .powerCap u m p => Sys2Proof.Machine.execPowerCap u m p s
  | .budgetShift u m p => Sys2Proof.Machine.execBudgetShift u m p s
  | .staggerRelease u m p => Sys2Proof.Machine.execStaggerRelease u m p s
  | .startAt u m p => Sys2Proof.Machine.execStartAt u m p s
  | .traceArm u m p => Sys2Proof.Machine.execTraceArm u m p s
  | .traceTrigger u m p => Sys2Proof.Machine.execTraceTrigger u m p s
  | .tensorDump u m p => Sys2Proof.Machine.execTensorDump u m p s
  | .compressFlush u m p => Sys2Proof.Machine.execCompressFlush u m p s
  | .logRead u m p => Sys2Proof.Machine.execLogRead u m p s
  | .logMark u m p => Sys2Proof.Machine.execLogMark u m p s
  | .scrubRange u m p => Sys2Proof.Machine.execScrubRange u m p s
  | .retire u m p => Sys2Proof.Machine.execRetire u m p s
  | .attest u m p => Sys2Proof.Machine.execAttest u m p s
  | .policyLoad u m p => Sys2Proof.Machine.execPolicyLoad u m p s
  | .keyRotate u m p => Sys2Proof.Machine.execKeyRotate u m p s
  | .quarantine u m p => Sys2Proof.Machine.execQuarantine u m p s
  | .probation u m p => Sys2Proof.Machine.execProbation u m p s
  | .leaseRenew u m p => Sys2Proof.Machine.execLeaseRenew u m p s
  | .portHotplug u m p => Sys2Proof.Machine.execPortHotplug u m p s
  | .abortJob u m p => Sys2Proof.Machine.execAbortJob u m p s
  | .brackenFault u group => Sys2Proof.Machine.execBrackenFault u group s
  | .brackenWatchdog u group => Sys2Proof.Machine.execBrackenWatchdog u group s
  | .lockstepMismatch u => Sys2Proof.Machine.execLockstepMismatch u s
  | .spdmHeartbeatTimeout m => Sys2Proof.Machine.execSpdmHeartbeatTimeout m s
  | .spdmRetryTimeout u c => Sys2Proof.Machine.execSpdmRetryTimeout u c s
  | .peerAttest port opcode p => Sys2Proof.Machine.execPeerAttest port opcode p s
  | .segmentClose u stream => Sys2Proof.Machine.execSegmentClose u stream s
  | .policyApply u => Sys2Proof.Machine.execPolicyApply u s
  | .policyAssemblyTimeout u => Sys2Proof.Machine.execPolicyAssemblyTimeout u s
  | .partitionChange => Sys2Proof.Machine.execPartitionChange s
  | .mapCommit a immediate => Sys2Proof.Machine.execMapCommit a immediate s
  | .mapApply => Sys2Proof.Machine.execMapApply s
  | .heartbeat n => Sys2Proof.Machine.execHeartbeat n s
  | .clusterSilent n => Sys2Proof.Machine.execClusterSilent n s
  | .clusterResumed n => Sys2Proof.Machine.execClusterResumed n s
  | .fallowEntry n => Sys2Proof.Machine.execFallowEntry n s
  | .fallowExit n => Sys2Proof.Machine.execFallowExit n s
  | .commandBoundary n => Sys2Proof.Machine.execCommandBoundary n s
  | .backgroundScan n slice => Sys2Proof.Machine.execBackgroundScan n slice s
  | .energyEstimate => Sys2Proof.Machine.execEnergyEstimate s
  | .capture u t => Sys2Proof.Machine.execCapture u t s
  | .periodicCapture u t => Sys2Proof.Machine.execPeriodicCapture u t s
  | .trcSrcWord n tag w => Sys2Proof.Machine.execTrcSrcWord n tag w s
  | .laddExcWord port w full => Sys2Proof.Machine.execLaddExcWord port w full s
  | .winSnoopWord tag w last full => Sys2Proof.Machine.execWinSnoopWord tag w last full s
  | .tileFirst n fmt => Sys2Proof.Machine.execTileFirst n fmt s
  | .resLast n => Sys2Proof.Machine.execResLast n s
  | .tileVerdict n => Sys2Proof.Machine.execTileVerdict n s
  | .drainAck => Sys2Proof.Machine.execDrainAck s
  | .stepOpenPulse step => Sys2Proof.Machine.execStepOpenPulse step s
  | .barrierDone => Sys2Proof.Machine.execBarrierDone s
  | .barrierArrival n => Sys2Proof.Machine.execBarrierArrival n s
  | .stepArrival l input r => Sys2Proof.Machine.execStepArrival l input r s
  | .stepPendingReport l step => Sys2Proof.Machine.execStepPendingReport l step s
  | .stepResult u r => Sys2Proof.Machine.execStepResult u r s
  | .taintNotice u input r => Sys2Proof.Machine.execTaintNotice u input r s
  | .replayLost input r => Sys2Proof.Machine.execReplayLost input r s
  | .sntReplayPop a => Sys2Proof.Machine.execSntReplayPop a s
  | .sheafPartial l input r => Sys2Proof.Machine.execSheafPartial l input r s
  | .mergeCutoff l k epoch => Sys2Proof.Machine.execMergeCutoff l k epoch s
  | .sheafResult l k epoch => Sys2Proof.Machine.execSheafResult l k epoch s
  | .membership l input r => Sys2Proof.Machine.execMembership l input r s
  | .ladderEnter u => Sys2Proof.Machine.execLadderEnter u s
  | .ladderExit u => Sys2Proof.Machine.execLadderExit u s
  | .ladder u level epoch => Sys2Proof.Machine.execLadder u level epoch s
  | .ladderApply u => Sys2Proof.Machine.execLadderApply u s
  | .featureCutoff period => Sys2Proof.Machine.execFeatureCutoff period s
  | .runSetComplete period => Sys2Proof.Machine.execRunSetComplete period s
  | .tcamScrub bank differ => Sys2Proof.Machine.execTcamScrub bank differ s
  | .livenessCheck => Sys2Proof.Machine.execLivenessCheck s
  | .jobStart u => Sys2Proof.Machine.execJobStart u s
  | .startNoReply port => Sys2Proof.Machine.execStartNoReply port s
  | .startAtReplyDeadline => Sys2Proof.Machine.execStartAtReplyDeadline s
  | .roleHeartbeat l => Sys2Proof.Machine.execRoleHeartbeat l s
  | .roleTakeover l => Sys2Proof.Machine.execRoleTakeover l s
  | .roleChange r => Sys2Proof.Machine.execRoleChange r s
  | .controlPeriod => Sys2Proof.Machine.execControlPeriod s
  | .deferExpired => Sys2Proof.Machine.execDeferExpired s
  | .thermStale => Sys2Proof.Machine.execThermStale s
  | .capAck slow => Sys2Proof.Machine.execCapAck slow s
  | .handshakeLate g => Sys2Proof.Machine.execHandshakeLate g s
  | .settle => Sys2Proof.Machine.execSettle s
  | .trimRequest g => Sys2Proof.Machine.execTrimRequest g s
  | .ageMonDone g count => Sys2Proof.Machine.execAgeMonDone g count s
  | .releaseWave => Sys2Proof.Machine.execReleaseWave s
  | .droopDetClear g => Sys2Proof.Machine.execDroopDetClear g s
  | .droopForced => Sys2Proof.Machine.execDroopForced s
  | .vwarnCrossing rail => Sys2Proof.Machine.execVwarnCrossing rail s
  | .vresetCrossing rail => Sys2Proof.Machine.execVresetCrossing rail s
  | .brownoutResume ns => Sys2Proof.Machine.execBrownoutResume ns s
  | .vc1Reply u port r => Sys2Proof.Machine.execVc1Reply u port r s
  | .postUsExpiry u => Sys2Proof.Machine.execPostUsExpiry u s
  | .readoutComplete u => Sys2Proof.Machine.execReadoutComplete u s
  | .traceSync u => Sys2Proof.Machine.execTraceSync u s
  | .dumpUnit channel data poisoned => Sys2Proof.Machine.execDumpUnit channel data poisoned s
  | .trcDumpHalt a channel => Sys2Proof.Machine.execTrcDumpHalt a channel s
  | .archiveSegmentClose die unit stream => Sys2Proof.Machine.execArchiveSegmentClose die unit stream s
  | .training u k t => Sys2Proof.Machine.execTraining u k t s
  | .trainingRetry u k t => Sys2Proof.Machine.execTrainingRetry u k t s
  | .peerSense u k found => Sys2Proof.Machine.execPeerSense u k found s
  | .forwardedClockLoss u k => Sys2Proof.Machine.execForwardedClockLoss u k s
  | .dataFlit u k flit => Sys2Proof.Machine.execDataFlit u k flit s
  | .retryTimeout u k => Sys2Proof.Machine.execRetryTimeout u k s
  | .conn u k die number => Sys2Proof.Machine.execConn u k die number s
  | .bye u k => Sys2Proof.Machine.execBye u k s
  | .sync u k m sub => Sys2Proof.Machine.execSync u k m sub s
  | .dlyReq u k m sub => Sys2Proof.Machine.execDlyReq u k m sub s
  | .dlyResp u k m => Sys2Proof.Machine.execDlyResp u k m s
  | .exchangeInterval u k => Sys2Proof.Machine.execExchangeInterval u k s
  | .holdoverEntry u => Sys2Proof.Machine.execHoldoverEntry u s
  | .holdMaxExpiry u => Sys2Proof.Machine.execHoldMaxExpiry u s
  | .ptpSync k m gm x sub => Sys2Proof.Machine.execPtpSync k m gm x sub s
  | .ptpDelayResp k m seq ts => Sys2Proof.Machine.execPtpDelayResp k m seq ts s
  | .ptpAnnounce k m gm => Sys2Proof.Machine.execPtpAnnounce k m gm s
  | .announceTimeout k => Sys2Proof.Machine.execAnnounceTimeout k s
  | .switch u a => Sys2Proof.Machine.execSwitch u a s
  | .srcPref u a v => Sys2Proof.Machine.execSrcPref u a v s
  | .switchGate => Sys2Proof.Machine.execSwitchGate s
  | .switchBackToPortA => Sys2Proof.Machine.execSwitchBackToPortA s
  | .timeSourceLoss u => Sys2Proof.Machine.execTimeSourceLoss u s
  | .timeSourceReturn u => Sys2Proof.Machine.execTimeSourceReturn u s
  | .pllLockLoss u k => Sys2Proof.Machine.execPllLockLoss u k s
  | .timePortWaitExpiry => Sys2Proof.Machine.execTimePortWaitExpiry s
  | .timeGate u => Sys2Proof.Machine.execTimeGate u s
  | .recordIngress port colour r => Sys2Proof.Machine.execRecordIngress port colour r s
  | .gapWaitExpiry die unit stream => Sys2Proof.Machine.execGapWaitExpiry die unit stream s
  | .queueSample u => Sys2Proof.Machine.execQueueSample u s
  | .noPathTimeout u c => Sys2Proof.Machine.execNoPathTimeout u c s
  | .memCe u region off bits => Sys2Proof.Machine.execMemCe u region off bits s
  | .memUe u region off bits reader => Sys2Proof.Machine.execMemUe u region off bits reader s
  | .patrol u region ce ue => Sys2Proof.Machine.execPatrol u region ce ue s
  | .foldClose u slot => Sys2Proof.Machine.execFoldClose u slot s
  | .foldCommit u slot => Sys2Proof.Machine.execFoldCommit u slot s
  | .pageClose u => Sys2Proof.Machine.execPageClose u s
  | .journalEntry u => Sys2Proof.Machine.execJournalEntry u s
  | .fundamentalReset powerOn => Sys2Proof.Machine.execFundamentalReset powerOn s
  | .vtaStart b => Sys2Proof.Machine.execVtaStart b s
  | .referenceLoss => Sys2Proof.Machine.execReferenceLoss s
  | .refLost => Sys2Proof.Machine.execRefLost s
  | .perst => Sys2Proof.Machine.execPerst s
  | .pcieLinkUp => Sys2Proof.Machine.execPcieLinkUp s
  | .thermalSample codes => Sys2Proof.Machine.execThermalSample codes s
  | .hotplugAddTimeout u k => Sys2Proof.Machine.execHotplugAddTimeout u k s
  | .mailbox9Datagram d => Sys2Proof.Machine.execMailbox9Datagram d s
  | .ackFall g => Sys2Proof.Machine.execAckFall g s
  | .armTime u c => Sys2Proof.Machine.execArmTime u c s
  | .stepStartTime => Sys2Proof.Machine.execStepStartTime s
  | .clusterClockEdge n e => Sys2Proof.Machine.execClusterClockEdge n e s
  | .timeDomainTick u => Sys2Proof.Machine.execTimeDomainTick u s
  | .flitSlot u k => Sys2Proof.Machine.execFlitSlot u k s
  | .thermUpdate codes => Sys2Proof.Machine.execThermUpdate codes s
  | .droopDetRise g => Sys2Proof.Machine.execDroopDetRise g s
  | .pllReady u k => Sys2Proof.Machine.execPllReady u k s
  | .ptpDelayReq sub => Sys2Proof.Machine.execPtpDelayReq sub s
  | .referenceReturn => Sys2Proof.Machine.execReferenceReturn s
  | .pcieLinkDown => Sys2Proof.Machine.execPcieLinkDown s
  | .controlListEntry k entry => Sys2Proof.Machine.execControlListEntry k entry s
  | .deviceTemperature celsius => Sys2Proof.Machine.execDeviceTemperature celsius s

end Sys2Proof.Machine
end

