-- ==== Sys2Proof/WellFormed.lean ====
section
/-! DEFINITION. Well-formed commands: each operand that names an instance names one that the unit has. No agent of the manual can send
another. -/

namespace Sys2Proof

open Machine

/-- The instances that a command names exist: mailboxes (R68), ports (R400), stations (R45), cluster groups (R44), generators (R157),
streams (R446), HDMA channels (R61), rails (R345), TCAM banks (R281), fold slots (R415), inputs of a merge point (R202), Bracken images
(R429), uplinks (R144), and the regions of R403. -/
def Instr.wf (i : Instr) : Bool :=
  match i with
  | .registerWrite _ _ _ _ _ => true
  | .rcRead _ _ _ _ => true
  | .groRead _ _ _ _ => true
  | .misalignedAccess _ _ _ _ _ => true
  | .lowHalfRead _ _ _ => true
  | .lowHalfWrite _ _ _ _ => true
  | .highHalfWrite _ _ _ _ => true
  | .timNowRead _ _ _ => true
  | .hostRst _ => true
  | .htuStart _ => true
  | .policyStartApply _ => true
  | .coreClockLoss => true
  | .mbxReqWrite u m _ _ => m < mbxCount u
  | .mbxDoorbell u m _ => m < mbxCount u
  | .mbxRspRead u m _ => m < mbxCount u
  | .nop u m _ => m < mbxCount u
  | .ident u m _ => m < mbxCount u
  | .fence u m _ => m < mbxCount u
  | .fenceComplete u m _ => m < mbxCount u
  | .stopFunction u m _ => m < mbxCount u
  | .startFunction u m _ => m < mbxCount u
  | .functionDrained _ _ => true
  | .drainLimitExpiry _ _ => true
  | .configWrite u m _ => m < mbxCount u
  | .configRead u m _ => m < mbxCount u
  | .armCollector u m _ => m < mbxCount u
  | .disarmCollector u m _ => m < mbxCount u
  | .snapshotAt u m _ => m < mbxCount u
  | .sweepFull u m _ => m < mbxCount u
  | .sweepCapture => true
  | .readStream u m _ => m < mbxCount u
  | .ackStream u m _ => m < mbxCount u
  | .timeStatus u m _ => m < mbxCount u
  | .pulseProgram u m _ => m < mbxCount u
  | .pulseCancel u m _ => m < mbxCount u
  | .pulseFiring u gen => gen < genCount u
  | .sentinelConfig u m _ => m < mbxCount u
  | .stepOpen u m _ => m < mbxCount u
  | .stepClose u m _ => m < mbxCount u
  | .digestCompare u m _ => m < mbxCount u
  | .selftestRun u m _ => m < mbxCount u
  | .treeLoad u m _ => m < mbxCount u
  | .featureTableLoad u m _ => m < mbxCount u
  | .scoreRun u m _ => m < mbxCount u
  | .modelSwap u m _ => m < mbxCount u
  | .powerCap u m _ => m < mbxCount u
  | .budgetShift u m _ => m < mbxCount u
  | .staggerRelease u m _ => m < mbxCount u
  | .startAt u m _ => m < mbxCount u
  | .traceArm u m _ => m < mbxCount u
  | .traceTrigger u m _ => m < mbxCount u
  | .tensorDump u m _ => m < mbxCount u
  | .compressFlush u m _ => m < mbxCount u
  | .logRead u m _ => m < mbxCount u
  | .logMark u m _ => m < mbxCount u
  | .scrubRange u m _ => m < mbxCount u
  | .retire u m _ => m < mbxCount u
  | .attest u m _ => m < mbxCount u
  | .policyLoad u m _ => m < mbxCount u
  | .keyRotate u m _ => m < mbxCount u
  | .quarantine u m _ => m < mbxCount u
  | .probation u m _ => m < mbxCount u
  | .leaseRenew u m _ => m < mbxCount u
  | .portHotplug u m _ => m < mbxCount u
  | .abortJob u m _ => m < mbxCount u
  | .brackenFault u group => group < brackenCount u
  | .brackenWatchdog u group => group < brackenCount u
  | .lockstepMismatch _ => true
  | .spdmHeartbeatTimeout m => m < mbxCount .vta
  | .spdmRetryTimeout _ _ => true
  | .peerAttest port _ _ => port < 64
  | .segmentClose u stream => stream < streamCount u
  | .policyApply _ => true
  | .policyAssemblyTimeout _ => true
  | .partitionChange => true
  | .mapCommit _ _ => true
  | .mapApply => true
  | .heartbeat n => n < 272
  | .clusterSilent n => n < 272
  | .clusterResumed n => n < 272
  | .fallowEntry n => n < 272
  | .fallowExit n => n < 272
  | .commandBoundary n => n < 272
  | .backgroundScan n slice => n < 272 && slice < 16
  | .energyEstimate => true
  | .capture _ _ => true
  | .periodicCapture _ _ => true
  | .trcSrcWord n _ _ => n < 272
  | .laddExcWord port _ _ => port < 8
  | .winSnoopWord _ _ _ _ => true
  | .tileFirst n _ => n < 272
  | .resLast n => n < 272
  | .tileVerdict n => n < 272
  | .drainAck => true
  | .stepOpenPulse _ => true
  | .barrierDone => true
  | .barrierArrival n => n < 272
  | .stepArrival l input _ => input < levelInputs l
  | .stepPendingReport _ _ => true
  | .stepResult _ _ => true
  | .taintNotice _ _ _ => true
  | .replayLost input _ => input < 64
  | .sntReplayPop _ => true
  | .sheafPartial l input _ => input < levelInputs l
  | .mergeCutoff _ _ _ => true
  | .sheafResult _ _ _ => true
  | .membership l input _ => input < levelInputs l
  | .ladderEnter _ => true
  | .ladderExit _ => true
  | .ladder _ _ _ => true
  | .ladderApply _ => true
  | .featureCutoff _ => true
  | .runSetComplete _ => true
  | .tcamScrub bank _ => bank < 64
  | .livenessCheck => true
  | .jobStart _ => true
  | .startNoReply port => port < 64
  | .startAtReplyDeadline => true
  | .roleHeartbeat _ => true
  | .roleTakeover _ => true
  | .roleChange _ => true
  | .controlPeriod => true
  | .deferExpired => true
  | .thermStale => true
  | .capAck _ => true
  | .handshakeLate _ => true
  | .settle => true
  | .trimRequest g => g < 16
  | .ageMonDone g _ => g < 16
  | .releaseWave => true
  | .droopDetClear g => g < 16
  | .droopForced => true
  | .vwarnCrossing rail => rail < 18
  | .vresetCrossing rail => rail < 18
  | .brownoutResume _ => true
  | .vc1Reply u port _ => port < (match u with | .htu => 1 | .vta => 64)
  | .postUsExpiry _ => true
  | .readoutComplete _ => true
  | .traceSync _ => true
  | .dumpUnit channel _ _ => channel < 8
  | .trcDumpHalt _ channel => channel < 8
  | .archiveSegmentClose _ _ _ => true
  | .training u k _ => k < portCount u
  | .trainingRetry u k _ => k < portCount u
  | .peerSense u k _ => k < portCount u
  | .forwardedClockLoss u k => k < portCount u
  | .dataFlit u k _ => k < portCount u
  | .retryTimeout u k => k < portCount u
  | .conn u k _ _ => k < portCount u
  | .bye u k => k < portCount u
  | .sync u k _ _ => k < portCount u
  | .dlyReq u k _ _ => k < portCount u
  | .dlyResp u k _ => k < portCount u
  | .exchangeInterval u k => k < portCount u
  | .holdoverEntry _ => true
  | .holdMaxExpiry _ => true
  | .ptpSync k _ _ _ _ => k < 2
  | .ptpDelayResp k _ _ _ => k < 2
  | .ptpAnnounce k _ _ => k < 2
  | .announceTimeout k => k < 2
  | .switch _ _ => true
  | .srcPref _ _ _ => true
  | .switchGate => true
  | .switchBackToPortA => true
  | .timeSourceLoss _ => true
  | .timeSourceReturn _ => true
  | .pllLockLoss _ k => k < 2
  | .timePortWaitExpiry => true
  | .timeGate _ => true
  | .recordIngress port _ _ => port < 64
  | .gapWaitExpiry _ _ _ => true
  | .queueSample _ => true
  | .noPathTimeout u c => c < (match u with | .htu => 1 | .vta => 64)
  | .memCe u region off _ => inRegion u region off
  | .memUe u region off _ _ => inRegion u region off
  | .patrol u region ce ue => (ce ++ ue).all fun e => inRegion u region e.1
  | .foldClose _ slot => slot < 16
  | .foldCommit _ slot => slot < 16
  | .pageClose _ => true
  | .journalEntry _ => true
  | .fundamentalReset _ => true
  | .vtaStart _ => true
  | .referenceLoss => true
  | .refLost => true
  | .perst => true
  | .pcieLinkUp => true
  | .thermalSample _ => true
  | .hotplugAddTimeout u k => k < portCount u
  | .mailbox9Datagram _ => true
  | .ackFall _ => true
  | .armTime _ _ => true
  | .stepStartTime => true
  | .clusterClockEdge n _ => n < 272
  | .timeDomainTick _ => true
  | .flitSlot u k => k < portCount u
  | .thermUpdate _ => true
  | .droopDetRise g => g < 16
  | .pllReady _ k => k < 2
  | .ptpDelayReq _ => true
  | .referenceReturn => true
  | .pcieLinkDown => true
  | .controlListEntry k _ => k < 2
  | .deviceTemperature _ => true

end Sys2Proof
end

