-- ==== Sys2Proof/Safety.lean ====
section
/-! DEFINITION. The terms in which claims are stated: the canonical form of the state, the packet that a command row carries, and the
conditions under which a packet starts (R69 to R88). -/

namespace Sys2Proof.Machine

/-- The canonical form: memories and registers list their entries with rising numbers, and none that equals what an unlisted one reads as. -/
def State.Inv (s : State) : Prop :=
  Memory.wf s.ddr ∧ Memory.wf s.entity ∧ Sparse.wf (Reg.resetWord .htu) s.hregs ∧ Sparse.wf (Reg.resetWord .vta) s.vregs

/-- The unit, mailbox, opcode and packet of a row that is a command packet (R96). -/
def packetOf (i : Instr) : Option (UnitId × Nat × Nat × Packet) :=
  match i with
  | .nop u m p => some (u, m, 0x01, p)
  | .ident u m p => some (u, m, 0x02, p)
  | .fence u m p => some (u, m, 0x03, p)
  | .stopFunction u m p => some (u, m, 0x04, p)
  | .startFunction u m p => some (u, m, 0x05, p)
  | .configWrite u m p => some (u, m, 0x06, p)
  | .configRead u m p => some (u, m, 0x07, p)
  | .armCollector u m p => some (u, m, 0x10, p)
  | .disarmCollector u m p => some (u, m, 0x11, p)
  | .snapshotAt u m p => some (u, m, 0x12, p)
  | .sweepFull u m p => some (u, m, 0x13, p)
  | .readStream u m p => some (u, m, 0x14, p)
  | .ackStream u m p => some (u, m, 0x15, p)
  | .timeStatus u m p => some (u, m, 0x20, p)
  | .pulseProgram u m p => some (u, m, 0x21, p)
  | .pulseCancel u m p => some (u, m, 0x22, p)
  | .sentinelConfig u m p => some (u, m, 0x30, p)
  | .stepOpen u m p => some (u, m, 0x31, p)
  | .stepClose u m p => some (u, m, 0x32, p)
  | .digestCompare u m p => some (u, m, 0x33, p)
  | .selftestRun u m p => some (u, m, 0x34, p)
  | .treeLoad u m p => some (u, m, 0x40, p)
  | .featureTableLoad u m p => some (u, m, 0x41, p)
  | .scoreRun u m p => some (u, m, 0x42, p)
  | .modelSwap u m p => some (u, m, 0x43, p)
  | .powerCap u m p => some (u, m, 0x50, p)
  | .budgetShift u m p => some (u, m, 0x51, p)
  | .staggerRelease u m p => some (u, m, 0x52, p)
  | .startAt u m p => some (u, m, 0x53, p)
  | .traceArm u m p => some (u, m, 0x60, p)
  | .traceTrigger u m p => some (u, m, 0x61, p)
  | .tensorDump u m p => some (u, m, 0x62, p)
  | .compressFlush u m p => some (u, m, 0x63, p)
  | .logRead u m p => some (u, m, 0x70, p)
  | .logMark u m p => some (u, m, 0x71, p)
  | .scrubRange u m p => some (u, m, 0x72, p)
  | .retire u m p => some (u, m, 0x73, p)
  | .attest u m p => some (u, m, 0x80, p)
  | .policyLoad u m p => some (u, m, 0x81, p)
  | .keyRotate u m p => some (u, m, 0x82, p)
  | .quarantine u m p => some (u, m, 0x90, p)
  | .probation u m p => some (u, m, 0x91, p)
  | .leaseRenew u m p => some (u, m, 0x92, p)
  | .portHotplug u m p => some (u, m, 0x93, p)
  | .abortJob u m p => some (u, m, 0x94, p)
  | .registerWrite _ _ _ _ _ => none
  | .rcRead _ _ _ _ => none
  | .groRead _ _ _ _ => none
  | .misalignedAccess _ _ _ _ _ => none
  | .lowHalfRead _ _ _ => none
  | .lowHalfWrite _ _ _ _ => none
  | .highHalfWrite _ _ _ _ => none
  | .timNowRead _ _ _ => none
  | .hostRst _ => none
  | .htuStart _ => none
  | .policyStartApply _ => none
  | .coreClockLoss => none
  | .mbxReqWrite _ _ _ _ => none
  | .mbxDoorbell _ _ _ => none
  | .mbxRspRead _ _ _ => none
  | .fenceComplete _ _ _ => none
  | .functionDrained _ _ => none
  | .drainLimitExpiry _ _ => none
  | .sweepCapture => none
  | .pulseFiring _ _ => none
  | .brackenFault _ _ => none
  | .brackenWatchdog _ _ => none
  | .lockstepMismatch _ => none
  | .spdmHeartbeatTimeout _ => none
  | .spdmRetryTimeout _ _ => none
  | .peerAttest _ _ _ => none
  | .segmentClose _ _ => none
  | .policyApply _ => none
  | .policyAssemblyTimeout _ => none
  | .partitionChange => none
  | .mapCommit _ _ => none
  | .mapApply => none
  | .heartbeat _ => none
  | .clusterSilent _ => none
  | .clusterResumed _ => none
  | .fallowEntry _ => none
  | .fallowExit _ => none
  | .commandBoundary _ => none
  | .backgroundScan _ _ => none
  | .energyEstimate => none
  | .capture _ _ => none
  | .periodicCapture _ _ => none
  | .trcSrcWord _ _ _ => none
  | .laddExcWord _ _ _ => none
  | .winSnoopWord _ _ _ _ => none
  | .tileFirst _ _ => none
  | .resLast _ => none
  | .tileVerdict _ => none
  | .drainAck => none
  | .stepOpenPulse _ => none
  | .barrierDone => none
  | .barrierArrival _ => none
  | .stepArrival _ _ _ => none
  | .stepPendingReport _ _ => none
  | .stepResult _ _ => none
  | .taintNotice _ _ _ => none
  | .replayLost _ _ => none
  | .sntReplayPop _ => none
  | .sheafPartial _ _ _ => none
  | .mergeCutoff _ _ _ => none
  | .sheafResult _ _ _ => none
  | .membership _ _ _ => none
  | .ladderEnter _ => none
  | .ladderExit _ => none
  | .ladder _ _ _ => none
  | .ladderApply _ => none
  | .featureCutoff _ => none
  | .runSetComplete _ => none
  | .tcamScrub _ _ => none
  | .livenessCheck => none
  | .jobStart _ => none
  | .startNoReply _ => none
  | .startAtReplyDeadline => none
  | .roleHeartbeat _ => none
  | .roleTakeover _ => none
  | .roleChange _ => none
  | .controlPeriod => none
  | .deferExpired => none
  | .thermStale => none
  | .capAck _ => none
  | .handshakeLate _ => none
  | .settle => none
  | .trimRequest _ => none
  | .ageMonDone _ _ => none
  | .releaseWave => none
  | .droopDetClear _ => none
  | .droopForced => none
  | .vwarnCrossing _ => none
  | .vresetCrossing _ => none
  | .brownoutResume _ => none
  | .vc1Reply _ _ _ => none
  | .postUsExpiry _ => none
  | .readoutComplete _ => none
  | .traceSync _ => none
  | .dumpUnit _ _ _ => none
  | .trcDumpHalt _ _ => none
  | .archiveSegmentClose _ _ _ => none
  | .training _ _ _ => none
  | .trainingRetry _ _ _ => none
  | .peerSense _ _ _ => none
  | .forwardedClockLoss _ _ => none
  | .dataFlit _ _ _ => none
  | .retryTimeout _ _ => none
  | .conn _ _ _ _ => none
  | .bye _ _ => none
  | .sync _ _ _ _ => none
  | .dlyReq _ _ _ _ => none
  | .dlyResp _ _ _ => none
  | .exchangeInterval _ _ => none
  | .holdoverEntry _ => none
  | .holdMaxExpiry _ => none
  | .ptpSync _ _ _ _ _ => none
  | .ptpDelayResp _ _ _ _ => none
  | .ptpAnnounce _ _ _ => none
  | .announceTimeout _ => none
  | .switch _ _ => none
  | .srcPref _ _ _ => none
  | .switchGate => none
  | .switchBackToPortA => none
  | .timeSourceLoss _ => none
  | .timeSourceReturn _ => none
  | .pllLockLoss _ _ => none
  | .timePortWaitExpiry => none
  | .timeGate _ => none
  | .recordIngress _ _ _ => none
  | .gapWaitExpiry _ _ _ => none
  | .queueSample _ => none
  | .noPathTimeout _ _ => none
  | .memCe _ _ _ _ => none
  | .memUe _ _ _ _ _ => none
  | .patrol _ _ _ _ => none
  | .foldClose _ _ => none
  | .foldCommit _ _ => none
  | .pageClose _ => none
  | .journalEntry _ => none
  | .fundamentalReset _ => none
  | .vtaStart _ => none
  | .referenceLoss => none
  | .refLost => none
  | .perst => none
  | .pcieLinkUp => none
  | .thermalSample _ => none
  | .hotplugAddTimeout _ _ => none
  | .mailbox9Datagram _ => none
  | .ackFall _ => none
  | .armTime _ _ => none
  | .stepStartTime => none
  | .clusterClockEdge _ _ => none
  | .timeDomainTick _ => none
  | .flitSlot _ _ => none
  | .thermUpdate _ => none
  | .droopDetRise _ => none
  | .pllReady _ _ => none
  | .ptpDelayReq _ => none
  | .referenceReturn => none
  | .pcieLinkDown => none
  | .controlListEntry _ _ => none
  | .deviceTemperature _ => none

/-- A mailbox as it stands once its next packet is taken out of the request queue. -/
def State.fetched (s : State) (u : UnitId) (m : Nat) : State := (Prog.modMb u m fun b => { b with waiting := [] }).run s

/-- A unit serves a mailbox that has no packet waiting and no command held back, it may take one more, and the packet's words fit its request
queue (R68 to R71, R74). On a mailbox with v1 framing the packet is one that v1 carries (R97, R98). -/
def State.canTake (s : State) (u : UnitId) (m : Nat) (p : Packet) : Prop :=
  m < mbxCount u ∧ s.blockReady u 0x1000 = true ∧ s.takes u m = true ∧ (s.mb u m).waiting = [] ∧ (s.mb u m).held = []
    ∧ (s.mb u m).outst.length < s.outLimit u m ∧ packetWords p (s.on u (Reg.MBX_STATUS_GEN m)) ≤ s.reqFree u m
    ∧ (s.on u (Reg.MBX_STATUS_GEN m) = true →
        asV1 p (s.rd u (Reg.MBX_V1_IDENT_PARTITION m)) (s.rd u (Reg.MBX_V1_IDENT_ROLE m)) = p)

/-- A packet's tag is new, and its SEQ is the one expected or its mailbox is v1 (R77, R78, R98). -/
def State.inTurn (s : State) (u : UnitId) (m : Nat) (p : Packet) : Prop :=
  (s.mb u m).outst.any (·.tag == p.tag) = false
    ∧ (s.on u (Reg.MBX_STATUS_GEN m) = true ∨ p.seq.toNat = s.rd u (Reg.MBX_NEXT_SEQ_SEQ m))

/-- Neither ORD nor a fence holds a packet back on a mailbox that holds none (R81, R85, R86, R98). -/
def State.unheld (s : State) (u : UnitId) (m code : Nat) (p : Packet) : Prop :=
  isFence code p = false
    ∧ (p.ordF = true ∨ s.on u (Reg.MBX_STATUS_GEN m) = true → (s.mb u m).outst.all (·.first) = true)

/-- The state in which an accepted packet is outstanding, with `need` bytes of reply data reserved (R71, R72, R78); reserved bits that
are set are counted (R8). -/
def State.admitted (s : State) (u : UnitId) (m code : Nat) (p : Packet) (need : Nat) : State :=
  (Prog.seq [
    .cond (rsvdSet u code p) (.mbxErr u m (Reg.MBX_ERR2_RSVD m)),
    .modMb u m fun b => { b with waiting := [], held := [], outst := b.outst ++ [{ outstOf code p with need := need }] },
    .wr u (Reg.MBX_NEXT_SEQ_SEQ m) (s.rd u (Reg.MBX_NEXT_SEQ_SEQ m) + 1)]).run s

/-- The state in which a command's effect begins: it is outstanding, a fence counts its effect (R85), and ACCEPTED is posted where it asks
for it (R82). -/
def State.begins (s : State) (u : UnitId) (m : Nat) (op : Op) (p : Packet) : State :=
  (Prog.both
    (.modMb u m fun b => { b with
      effects := if op.async then (b.effects.filter (·.1 != p.tag)) ++ [(p.tag, p.target)] else b.effects })
    (.cond (p.asyncF && op.async) (.reply u m p.tag { status := stAccepted }))).run (s.admitted u m op.code p (op.data p))

/-- A packet passes every check of R80 and starts at once. -/
def State.starts (s : State) (u : UnitId) (m : Nat) (op : Op) (p : Packet) : Prop :=
  s.canTake u m p ∧ s.inTurn u m p ∧ s.unheld u m op.code p ∧ opOf op.code = some op ∧ (s.fetched u m).takeFail u m op.code p = none
    ∧ (s.admitted u m op.code p 0).startFail u m op p = none

/-- A packet row that starts answers a next state: `f` of the state in which its effect begins, after which every mailbox of its unit does
what it can (R80 to R82). -/
def State.answers (s : State) (u : UnitId) (m : Nat) (p : Packet) (i : Instr) (op : Op) (f : State → State) : Prop :=
  s.starts u m op p → exec i s = .next ((Prog.settle u).run (f (s.begins u m op p)))

/-- The reply of a command that completes: OK with a result and data. -/
def State.okay (s : State) (u : UnitId) (m : Nat) (p : Packet) (result : Nat := 0) (data : List Byte := []) : State :=
  (Prog.reply u m p.tag { status := stOk, result, data }).run s

end Sys2Proof.Machine
end

