-- ==== Sys2Proof/Certificates/Slice0/Obligations.lean ====
section
/-! DEFINITION. The statements for the provers. Each says which rules of the manual it formalises; a statement that rests on a choice of the
model names the log entry. -/

open Sys2Proof Sys2Proof.Machine

/-- The state after reset meets the canonical form. -/
def Obligations.ResetMeetsCanonicalForm : Prop :=
State.reset.Inv

/-- Every step keeps the canonical form of memories and registers, from every state that has it. The form is the model's own (log 3). -/
def Obligations.StepKeepsCanonicalForm : Prop :=
∀ s t : State, s.Inv → step s = .next t → t.Inv

/-- A step runs the command at the front of the queue with the queue's rest. That a block with an empty queue idles is the model's choice
(log 2). -/
def Obligations.StepRunsFrontCommand : Prop :=
  (∀ (c : Instr) (rest : List Instr) (s : State), step { s with pending := c :: rest } = exec c { s with pending := rest }) ∧
    ∀ s : State, s.pending = [] → step s = .next s

/-- A command answers a next state from every state where the instances it names exist, and faults by name where one does not
(log 5); none is refused.
No command changes the queue of commands, and free values are only drawn, never given back (log 6). -/
def Obligations.CommandsAnswerAndLeaveTheQueue : Prop :=
  (
    ∀ (i : Instr) (s : State), (i.wf = true → ∃ t, exec i s = .next t) ∧ (i.wf = false → exec i s = .fault .noSuchInstance)) ∧
  (
    ∀ (i : Instr) (s t : State), exec i s = .next t → t.pending = s.pending ∧ s.free ≤ t.free)

/-- A packet that reaches a unit held in reset changes nothing (R16, R59, R74). On a mailbox with v1 framing a packet acts as the packet that
its 32-byte form carries: partition and role of MBX_V1_IDENT, ORD implied, no SEQ (R97, R98).
A packet that reaches a closed mailbox vanishes and is counted in CLOSED (R74); one whose words find no room in the request queue is
counted in OVERFLOW (R70). -/
def Obligations.ClosedAndHeldMailboxes : Prop :=
  (
    ∀ (i : Instr) (s : State) (u : UnitId) (m code : Nat) (p : Packet), packetOf i = some (u, m, code, p) → m < mbxCount u →
      ((s.dev u).inReset = true → exec i s = .next s) ∧
      (s.on u (Reg.MBX_STATUS_GEN m) = true →
        ∀ j, packetOf j = some (u, m, code, asV1 p (s.rd u (Reg.MBX_V1_IDENT_PARTITION m)) (s.rd u (Reg.MBX_V1_IDENT_ROLE m))) →
          exec i s = exec j s)) ∧
  (
    ∀ (i : Instr) (s : State) (u : UnitId) (m code : Nat) (p : Packet), packetOf i = some (u, m, code, p) → m < mbxCount u →
      s.blockReady u 0x1000 = true → (s.mb u m).held = [] → (s.mb u m).waiting = [] →
      (s.takes u m = false →
        exec i s = .next ((Prog.settle u).run ((Prog.mbxErr u m (Reg.MBX_ERR2_CLOSED m)).run s))) ∧
      (s.takes u m = true → s.reqFree u m < packetWords p (s.on u (Reg.MBX_STATUS_GEN m)) →
        exec i s = .next ((Prog.settle u).run ((Prog.mbxErr u m (Reg.MBX_ERR_OVERFLOW m)).run s))))

/-- What registers read after reset, where their rules give the value: TIM_INC (R131, R164), MBX_STATUS.OPEN (R74), SNT_TOL and SNT_ABS_FLOOR (R264), PWR_SEQ
(R348), SHF_CUTOFF (R221), VTA_FLT_THR (R321), TRC_SYNC (R371), FUR_PORT.STATE (R400), HTR_PERIOD (R299). -/
def Obligations.ResetValuesOfTheManual : Prop :=
  (∀ u, State.reset.rd u Reg.TIM_INC_INC = 0xCCCCCCCD ∧ State.reset.rd u Reg.TRC_SYNC_SYNC_US = 100
    ∧ State.reset.rd u Reg.TIM_CTL_EXCH_LOG2 = 4 ∧ State.reset.rd u Reg.TIM_CTL_STEP_THRESH = 1
    ∧ State.reset.rd u (Reg.MBX_STATUS_OPEN 0) = 0) ∧
  (∀ k < 2, State.reset.rd .htu (Reg.FUR_PORT_STATE k) = 1) ∧
  State.reset.rd .htu Reg.SNT_TOL_N = 10 ∧ State.reset.rd .htu Reg.SNT_ABS_FLOOR_FLOOR = 0x35800000 ∧
  State.reset.rd .htu Reg.PWR_SEQ_SETTLE_US = 5 ∧ State.reset.rd .vta Reg.SHF_CUTOFF_TRAY = 800 ∧
  State.reset.rd .vta Reg.SHF_CUTOFF_HALL = 19200 ∧ State.reset.rd .vta Reg.VTA_FLT_THR_QUAR_THR = 0x80000 ∧
  State.reset.rd .vta Reg.HTR_PERIOD_US = 1000

/-- A write of a packet word (R69, R70, R74): the agent of the mailbox adds a word while the mailbox is open; at a full queue the word is
dropped and its packet marked; a closed mailbox or another agent's write changes nothing.
A commit (R69, R70, R74): the words become one packet that waits; a packet in a closed mailbox, one that lost a word and one whose
word count differs from its length vanish and are counted. On a mailbox that a session binds the words are a secured message that wraps
the packet, and one that does not verify ends the binding (R113). -/
def Obligations.RequestWordsAndDoorbell : Prop :=
  (
    ∀ (u : UnitId) (m : Nat) (a : Agent) (w : Word) (s₀ : State), let s := (Prog.dropLow u a).run s₀
    m < mbxCount u → s.blockReady u 0x1000 = true →
      (¬ (mbxAgent u m = some (agentActs u a) ∧ s.on u (Reg.MBX_STATUS_OPEN m) = true) → exec (.mbxReqWrite u m a w) s₀ = .next s) ∧
      (mbxAgent u m = some (agentActs u a) → s.on u (Reg.MBX_STATUS_OPEN m) = true →
        exec (.mbxReqWrite u m a w) s₀ = .next ((Prog.modMb u m fun b =>
          if s.reqFree u m = 0 then { b with spilled := true } else { b with words := b.words ++ [w] }).run s))) ∧
  (
    ∀ (u : UnitId) (m : Nat) (a : Agent) (s₀ : State), let s := (Prog.dropLow u a).run s₀
    m < mbxCount u → s.blockReady u 0x1000 = true →
      let read (ws : List Word) : Option (Nat × Packet) := if s.on u (Reg.MBX_STATUS_GEN m) then
          parseV1 ws (s.rd u (Reg.MBX_V1_IDENT_PARTITION m)) (s.rd u (Reg.MBX_V1_IDENT_ROLE m))
        else parseV2 ws
      let emptied := (Prog.modMb u m fun b => { b with words := [], spilled := false }).run s
      (mbxAgent u m ≠ some (agentActs u a) → exec (.mbxDoorbell u m a) s₀ = .next ((Prog.settle u).run s)) ∧
      (mbxAgent u m = some (agentActs u a) →
        (s.on u (Reg.MBX_STATUS_OPEN m) = false →
          exec (.mbxDoorbell u m a) s₀ = .next ((Prog.settle u).run ((Prog.mbxErr u m (Reg.MBX_ERR2_CLOSED m)).run emptied))) ∧
        (s.on u (Reg.MBX_STATUS_OPEN m) = true → (s.mb u m).spilled = true →
          exec (.mbxDoorbell u m a) s₀ = .next ((Prog.settle u).run ((Prog.mbxErr u m (Reg.MBX_ERR_OVERFLOW m)).run emptied))) ∧
        (∀ ws, s.on u (Reg.MBX_STATUS_OPEN m) = true → (s.mb u m).spilled = false →
          (if (s.mb u m).bound ∧ u = .vta ∧ (m < 8 ∨ m = 9) then
              (Config.unwrap (s.mb u m).sessNo (s.mb u m).keyGen (ofWords (s.mb u m).words)).map toWords
            else some (s.mb u m).words) = some ws →
          (read ws = none →
            exec (.mbxDoorbell u m a) s₀ = .next ((Prog.settle u).run ((Prog.mbxErr u m (Reg.MBX_ERR_FRAMING m)).run emptied))) ∧
          (∀ q, read ws = some q → exec (.mbxDoorbell u m a) s₀ = .next ((Prog.settle u).run
            ((Prog.modMb u m fun b => { b with waiting := b.waiting ++ [q] }).run emptied)))) ∧
        (s.on u (Reg.MBX_STATUS_OPEN m) = true → (s.mb u m).spilled = false → (s.mb u m).bound = true → u = .vta → (m < 8 ∨ m = 9) →
          Config.unwrap (s.mb u m).sessNo (s.mb u m).keyGen (ofWords (s.mb u m).words) = none →
          exec (.mbxDoorbell u m a) s₀ = .next ((Prog.settle u).run ((Prog.unbind u m).run emptied)))))

/-- A read of MBX_RSP (R73, R74): the next word of the oldest visible reply, which leaves the queue; all ones and EMPTY_READ on an empty queue;
all ones and no effect for another agent.
A final reply (R73, R79, R87): the command is no longer outstanding; the reply joins its mailbox's visible replies, word by word, with the
reply data it reserved; NOTIFY_REPLY is set where the command asked for it; and no other register changes but MSIX_PBA.
ACCEPTED is a first reply (R79, R82): the command stays outstanding and counts as having replied, and its reply data stays
reserved. -/
def Obligations.RepliesAreWrittenAndRead : Prop :=
  (
    ∀ (u : UnitId) (m : Nat) (a : Agent) (s : State), m < mbxCount u → s.blockReady u 0x1000 = true →
      (mbxAgent u m ≠ some (agentActs u a) →
        exec (.mbxRspRead u m a) s = .next (s.modDev u fun d => { d with bus := BitVec.allOnes 64 })) ∧
      (mbxAgent u m = some (agentActs u a) →
        ((s.mb u m).replies = [] → exec (.mbxRspRead u m a) s = .next
          ((Prog.mbxErr u m (Reg.MBX_ERR_EMPTY_READ m)).run (s.modDev u fun d => { d with bus := BitVec.allOnes 64 }))) ∧
        (∀ w ws n t, (s.mb u m).replies = (w :: ws, n) :: t → exec (.mbxRspRead u m a) s = .next
          ((Prog.modMb u m fun b => { b with replies := if ws = [] then t else (ws, n) :: t }).run
            (s.modDev u fun d => { d with bus := w }))))) ∧
  (
    ∀ (s : State) (u : UnitId) (m : Nat) (o : Outst) (a : Ans), m < mbxCount u → peerMbx u m = false →
      (s.mb u m).outst.find? (·.tag == o.tag) = some o → o.discard = false → a.status ≠ stAccepted →
      let t := (Prog.reply u m o.tag a).run s
      (t.mb u m).outst = (s.mb u m).outst.filter (·.tag != o.tag) ∧
      (t.mb u m).replies = (s.mb u m).replies ++ [(toWords (if s.on u (Reg.MBX_STATUS_GEN m) then replyV1 o.opcode o.tag a
        else replyBytes o.opcode o.tag a), o.need)] ∧
      (t.mb u m).held = (s.mb u m).held ∧ (t.mb u m).waiting = (s.mb u m).waiting ∧ (t.mb u m).words = (s.mb u m).words ∧
      (o.flags.getLsbD 2 = true → t.rd u (Reg.MBX_IRQ_STATUS_NOTIFY_REPLY m) = 1) ∧
      (o.flags.getLsbD 2 = false → t.rd u (Reg.MBX_IRQ_STATUS_NOTIFY_REPLY m) = s.rd u (Reg.MBX_IRQ_STATUS_NOTIFY_REPLY m)) ∧
      (∀ n ≠ m, t.mb u n = s.mb u n) ∧ t.hx = s.hx ∧ t.vx = s.vx ∧ t.ddr = s.ddr ∧ t.entity = s.entity ∧
      ∀ w off, ¬ (w = u ∧ off = (Reg.MBX_IRQ_STATUS_ERROR m).off) → ¬ (w = .vta ∧ off = 0x3F01000) → t.word w off = s.word w off) ∧
  (
    ∀ (s : State) (u : UnitId) (m : Nat) (o : Outst), m < mbxCount u → peerMbx u m = false →
      (s.mb u m).outst.find? (·.tag == o.tag) = some o → o.discard = false → s.on u (Reg.MBX_STATUS_GEN m) = false →
      (Prog.reply u m o.tag { status := stAccepted }).run s = (Prog.modMb u m fun b => { b with
        replies := b.replies ++ [(toWords (replyBytes o.opcode o.tag { status := stAccepted }), 0)]
        outst := b.outst.map fun x => if x.tag == o.tag then { x with first := true } else x }).run s)

/-- Counting a mailbox error (R74): the counter rises by one up to 255, ERROR is set, and no other register of the unit changes but
MBX_IRQ_STATUS and, on the VTA, MSIX_PBA. -/
def Obligations.MailboxErrorsAreCounted : Prop :=
  ∀ (u : UnitId) (m : Nat) (s : State), m < mbxCount u →
    ∀ f ∈ [Reg.MBX_ERR_FRAMING m, Reg.MBX_ERR_OVERFLOW m, Reg.MBX_ERR_DUP_TAG m, Reg.MBX_ERR_EMPTY_READ m, Reg.MBX_ERR2_CLOSED m,
        Reg.MBX_ERR2_RSVD m],
      let t := (Prog.mbxErr u m f).run s
      t.rd u f = min 255 (s.rd u f + 1) ∧ t.rd u (Reg.MBX_IRQ_STATUS_ERROR m) = 1 ∧ (∀ n, t.mb u n = s.mb u n) ∧
        ∀ w off, ¬ (w = u ∧ (off = f.off ∨ off = (Reg.MBX_IRQ_STATUS_ERROR m).off)) → ¬ (w = .vta ∧ off = 0x3F01000) →
          t.word w off = s.word w off

/-- A packet whose tag belongs to an outstanding command is discarded without a reply and counted in DUP_TAG (R77). -/
def Obligations.DuplicateTagIsDiscarded : Prop :=
  ∀ (i : Instr) (s : State) (u : UnitId) (m code : Nat) (p : Packet), packetOf i = some (u, m, code, p) → s.canTake u m p →
    (s.mb u m).outst.any (·.tag == p.tag) = true →
    exec i s = .next ((Prog.settle u).run ((Prog.mbxErr u m (Reg.MBX_ERR_DUP_TAG m)).run (s.fetched u m)))

/-- A packet with a SEQ other than the one expected is refused with BAD_PARAM and detail SEQ, and MBX_NEXT_SEQ is unchanged (R78);
its reserved bits are counted (R8).
A packet refused by one of checks 2 to 6 of R80 posts that refusal and has no other effect but its SEQ and the count of its
reserved bits. That checks 2 to 6 come before ORD and fences hold a packet back is the model's reading (log 40).
A packet refused by one of checks 7 to 10 of R80 posts that refusal and has no other effect but its SEQ and the count of its
reserved bits. That these checks are made as the command starts is the model's reading (log 40). -/
def Obligations.RefusedPackets : Prop :=
  (
    ∀ (i : Instr) (s : State) (u : UnitId) (m code : Nat) (p : Packet), packetOf i = some (u, m, code, p) → s.canTake u m p →
      (s.mb u m).outst.any (·.tag == p.tag) = false → s.on u (Reg.MBX_STATUS_GEN m) = false →
      p.seq.toNat ≠ s.rd u (Reg.MBX_NEXT_SEQ_SEQ m) →
      exec i s = .next ((Prog.settle u).run ((Prog.reply u m p.tag { status := stBadParam, detail := 1 }).run
        ((Prog.modMb u m fun b => { b with outst := b.outst ++ [outstOf code p] }).run
          ((Prog.cond (rsvdSet u code p) (.mbxErr u m (Reg.MBX_ERR2_RSVD m))).run (s.fetched u m)))))) ∧
  (
    ∀ (i : Instr) (s : State) (u : UnitId) (m code : Nat) (p : Packet) (a : Ans), packetOf i = some (u, m, code, p) →
      s.canTake u m p → s.inTurn u m p → (s.fetched u m).takeFail u m code p = some a →
      exec i s = .next ((Prog.settle u).run ((Prog.reply u m p.tag a).run (s.admitted u m code p 0)))) ∧
  (
    ∀ (i : Instr) (s : State) (u : UnitId) (m : Nat) (op : Op) (p : Packet) (a : Ans), packetOf i = some (u, m, op.code, p) →
      s.canTake u m p → s.inTurn u m p → s.unheld u m op.code p → opOf op.code = some op → (s.fetched u m).takeFail u m op.code p = none →
      (s.admitted u m op.code p 0).startFail u m op p = some a →
      exec i s = .next ((Prog.settle u).run ((Prog.reply u m p.tag a).run (s.admitted u m op.code p 0))))

/-- A packet that passes every check of R80, and that nothing holds back, starts: it is outstanding with its reply data reserved,
ACCEPTED is posted where R82 asks for it, and the effect of its opcode follows. -/
def Obligations.AcceptedCommandRunsItsOpcode : Prop :=
  ∀ (i : Instr) (s : State) (u : UnitId) (m : Nat) (op : Op) (p : Packet), packetOf i = some (u, m, op.code, p) → s.starts u m op p →
    exec i s = .next ((Prog.settle u).run ((op.run u m p).run (s.begins u m op p)))

/-- The check order of R80 for a packet: opcode, generation, length, readiness, role and partition, target. -/
def Obligations.ChecksComeInOrder : Prop :=
  ∀ (s : State) (u : UnitId) (m code : Nat) (p : Packet),
    (opOf code = none → s.takeFail u m code p = some { status := stBadOpcode }) ∧
    ∀ op, opOf code = some op →
      (op.onUnit u = false → s.takeFail u m code p = some { status := stBadOpcode }) ∧
      (op.onUnit u = true → s.on u (Reg.MBX_STATUS_GEN m) = true → op.v1 = false →
        s.takeFail u m code p = some { status := stUnsupportedGen }) ∧
      (op.onUnit u = true → (s.on u (Reg.MBX_STATUS_GEN m) = false ∨ op.v1 = true) →
        (p.params.length % 8 ≠ 0 ∨ 4096 < p.params.length ∨ op.plen p.params.length = false →
          s.takeFail u m code p = some { status := stBadParam, detail := 2 }) ∧
        (p.params.length % 8 = 0 → p.params.length ≤ 4096 → op.plen p.params.length = true →
          (s.opReady u op p = false → s.takeFail u m code p = some { status := stNotReady }) ∧
          (s.opReady u op p = true →
            (p.roleN = 0 ∨ 6 < p.roleN → s.takeFail u m code p = some { status := stDenied, detail := 4 }) ∧
            (1 ≤ p.roleN → p.roleN ≤ 6 → s.holds u p.part = false → s.takeFail u m code p = some { status := stDenied }) ∧
            (1 ≤ p.roleN → p.roleN ≤ 6 → s.holds u p.part = true → s.granted u m p.roleN code = false →
              s.takeFail u m code p = some { status := stDenied }) ∧
            (s.roleFail u m op p = none → (op.classes.contains (targetClass p.target)
                && validTarget u (targetClass p.target) (targetInst p.target)) = false →
              s.takeFail u m code p = some { status := stBadParam, detail := 3 }))))

/-- A FENCE waits until its row completes it (R85): the packet is outstanding and held.
A fence that may complete does so when its row comes (R85, R86): a FENCE replies OK, or FENCED_ERROR with the oldest lost tag and the
number lost; a command with FENCE_BEFORE is answered so where an effect was lost, and starts where none was. Of the row's operand only commands count that the
fence covers and no fence has reported before (log 41). -/
def Obligations.FencesHoldAndComplete : Prop :=
  (
    ∀ (s : State) (u : UnitId) (m : Nat) (p : Packet), s.canTake u m p → s.inTurn u m p →
      (s.fetched u m).takeFail u m 0x03 p = none →
      exec (.fence u m p) s = .next ((Prog.settle u).run
        ((Prog.modMb u m fun b => { b with held := [(0x03, p)] }).run (s.admitted u m 0x03 p 0)))) ∧
  (
    ∀ (s : State) (u : UnitId) (m : Nat) (lost : List (BitVec 16)) (h : Nat × Packet), m < mbxCount u → (s.dev u).inReset = false →
      ((s.mb u m).held.find? fun e => isFence e.1 e.2 && (s.mb u m).unblocked (s.on u (Reg.MBX_STATUS_GEN m)) e.2
        && (s.mb u m).fenceDone e.2) = some h →
      let gone := (s.mb u m).lostOf h.2 lost
      let freed := (Prog.modMb u m fun b => { b with
        effects := b.effects.filter fun e => !covers h.2.target e.2, held := b.held.filter (·.2.tag != h.2.tag) }).run s
      (h.1 = 0x03 → gone = [] → exec (.fenceComplete u m lost) s =
        .next ((Prog.settle u).run ((Prog.reply u m h.2.tag { status := stOk }).run freed))) ∧
      (∀ t l, gone = t :: l → exec (.fenceComplete u m lost) s = .next ((Prog.settle u).run
        ((Prog.reply u m h.2.tag { status := stFenced, detail := t.toNat, result := l.length + 1 }).run freed))) ∧
      (h.1 ≠ 0x03 → gone = [] → ∀ op, opOf h.1 = some op → exec (.fenceComplete u m lost) s =
        .next ((Prog.settle u).run ((Prog.startCmd u m op h.2).run freed))))

/-- NOP, IDENT, START_FUNCTION, STOP_FUNCTION, CONFIG_WRITE and CONFIG_READ (R85, R91, R93, R94): the replies, the functions' states, and the
entries of a register access in order.
The entries of CONFIG_WRITE and CONFIG_READ (R94): entry by entry in order; the first write entry that fails ends the command with its
index in DETAIL, and the entries before it stand; each read entry returns eight bytes. -/
def Obligations.GeneralCommandsComplete : Prop :=
  (
    ∀ (s : State) (u : UnitId) (m : Nat) (p : Packet),
      s.answers u m p (.nop u m p) opNop (fun b => b.okay u m p) ∧
      s.answers u m p (.ident u m p) opIdent (fun b => b.okay u m p 0 (le 4 (b.low32 u 0) ++ le 4 (b.low32 u 0x10) ++ le 4 (b.dieId u)
        ++ le 1 m ++ le 1 p.roleN ++ zeros 2 ++ le 4 (b.rd u (Reg.MBX_NEXT_SEQ_SEQ m)) ++ le 4 (b.reqFree u m) ++ zeros 8)) ∧
      s.answers u m p (.startFunction u m p) opStart (fun b =>
        (if (b.fn u p.target.toNat).st = .stopped then (Prog.startFn u p.target.toNat p.roleN).run b else b).okay u m p) ∧
      s.answers u m p (.stopFunction u m p) opStop (fun b =>
        if (b.fn u p.target.toNat).st = .running then (Prog.beginDrain u p.target.toNat).run ((Prog.setFn u p.target.toNat fun f =>
          { f with st := .draining, stopper := some (m, p.tag), limit := arg p 0 4 }).run b)
        else ((Prog.cond (p.target.toNat / 4096 == 3) (.showSlot (p.target.toNat % 4096))).run
          ((Prog.setFn u p.target.toNat fun f => { f with st := .stopped }).run b)).okay u m p) ∧
      s.answers u m p (.configWrite u m p) opConfigWrite (fun b => (Prog.writeEntries u m p 0 (p.params.length / 16)).run b) ∧
      s.answers u m p (.configRead u m p) opConfigRead (fun b =>
        ((Prog.readEntries u m p 0 (p.params.length / 8) []).run b).modDev u fun d => { d with bus := (b.dev u).bus })) ∧
  (
    ∀ (s : State) (u : UnitId) (m i n : Nat) (p : Packet) (out : List Byte),
      (Prog.writeEntries u m p i 0).run s = s.okay u m p ∧
      (s.entryFail u m p (arg p (16 * i) 4) (arg p (16 * i + 4) 1) (arg p (16 * i + 8) 8) = none →
        (Prog.writeEntries u m p i (n + 1)).run s = (Prog.writeEntries u m p (i + 1) n).run ((Prog.writeReg u (.entry m) (arg p (16 * i) 4)
          (arg p (16 * i + 4) 1 == 8) (BitVec.ofNat 64 (arg p (16 * i + 8) 8))).run s)) ∧
      (∀ st, s.entryFail u m p (arg p (16 * i) 4) (arg p (16 * i + 4) 1) (arg p (16 * i + 8) 8) = some (st, 0) →
        (Prog.writeEntries u m p i (n + 1)).run s = (Prog.reply u m p.tag { status := st, detail := i }).run s) ∧
      (Prog.readEntries u m p i 0 out).run s = s.okay u m p 0 out ∧
      (∀ t, t = (Prog.readReg u (.entry m) (readEntry p i).1 ((readEntry p i).2 == 8)).run s →
        (Prog.readEntries u m p i (n + 1) out).run s =
          (Prog.readEntries u m p (i + 1) n (out ++ le 8 ((t.dev u).bus.toNat % 2 ^ (8 * (readEntry p i).2)))).run t))

/-- ARM_COLLECTOR, DISARM_COLLECTOR, SNAPSHOT_AT, SWEEP_FULL, READ_STREAM and ACK_STREAM (R51, R95, R180 to R186, R205, R397, R398).
What ACK_STREAM releases (R398): every record of the stream up to SEQ leaves the retention ring or the archive; what RESULT then holds
is a free value (log 60), here for an HTU. -/
def Obligations.CollectorCommandsComplete : Prop :=
  (
    ∀ (s : State) (u : UnitId) (m : Nat) (p : Packet),
      s.answers u m p (.armCollector u m p) opArmCollector
        (fun b => (Prog.arm u p.part p.roleN m false p (some (m, p.tag))).run b) ∧
      s.answers u m p (.disarmCollector u m p) opDisarm (fun b =>
        if (b.fn u (fidCollector (targetInst p.target))).st = .running then
          (Prog.leaves u (targetInst p.target)).run ((Prog.setFn u (fidCollector (targetInst p.target)) fun f =>
            { f with st := .draining, stopper := some (m, p.tag), limit := arg p 0 4, disarm := true }).run b)
        else ((Prog.unarm u (targetInst p.target)).run b).okay u m p) ∧
      s.answers u m p (.snapshotAt u m p) opSnapshotAt (fun b =>
        (Prog.cond (arg p 8 1 == 1 && u == .vta) (.forwardBelow 0x12 p 8 (fun _ => BitVec.allOnes 64) id)).run ((Prog.schedule u
          { t := arg p 0 8, kind := .snapshot p.part p.roleN, cmd := some (m, p.tag) }).run b)) ∧
      s.answers u m p (.sweepFull u m p) opSweepFull (fun b => match u with
        | .vta => b.okay .vta m p
        | .htu =>
          let b' : State := { b with hx := { b.hx with sweep := some (m, p.tag, arg p 0 2) } }
          if b.timev .htu = true then b'.modDev .htu fun d =>
            { d with sched := d.sched ++ [{ t := b.sweepInstant .htu, kind := .sweep (arg p 0 2), cmd := none }] }
          else b') ∧
      s.answers u m p (.readStream u m p) opReadStream (fun b =>
        (b.modDev u fun d => { d with remains := Sparse.set [] d.remains (65536 * p.part + arg p 0 2) (b.readStream u p).2.2 }).okay u m p
          (b.readStream u p).2.1 (b.readStream u p).1) ∧
      s.answers u m p (.ackStream u m p) opAckStream (fun b => match Sparse.find (b.dev u).acks (65536 * p.part + arg p 0 2) with
        | some a => if serialGt 32 (arg p 4 4) a then (opAckStream.run u m p).run b else b.okay u m p
        | none => (opAckStream.run u m p).run b)) ∧
  (
    ∀ (s : State) (m : Nat) (p : Packet), Sparse.find s.h.acks (65536 * p.part + arg p 0 2) = none →
      (opAckStream.run .htu m p).run s =
        ({ s with
          free := s.free + 1
          h := { s.h with
            acks := Sparse.put s.h.acks (65536 * p.part + arg p 0 2) (arg p 4 4)
            retain := s.h.retain.filter fun r => !(r.stream == arg p 0 2 && r.part == p.part && serialGe 32 (arg p 4 4) r.seq) }
          } : State).okay .htu m p (Config.freeNat s.free % 2 ^ 32))

/-- TIME_STATUS, PULSE_PROGRAM and PULSE_CANCEL (R157 to R160): the time report; a generator armed with what the command gives; a generator
idle again, its pending reply ABORTED, after a firing that is due. -/
def Obligations.TimeCommandsComplete : Prop :=
  ∀ (s : State) (u : UnitId) (m : Nat) (p : Packet),
    s.answers u m p (.timeStatus u m p) opTimeStatus (fun b => b.okay u m p 0 (le 4 ((b.word u 0x2000).toNat / 2 ^ 32) ++ zeros 4
      ++ le 8 (b.rd u Reg.TIM_NOW_NS) ++ le 2 (b.dev u).pubFrac.toNat ++ zeros 2 ++ le 4 (b.rd u Reg.TIM_OFFSET_OFFSET)
      ++ le 4 (b.rd u Reg.TIM_DELAY_DELAY) ++ le 4 (b.rd u Reg.TIM_INC_INC))) ∧
    s.answers u m p (.pulseProgram u m p) opPulseProgram (fun b =>
      let g := arg p 0 1
      let one := arg p 1 1 == 0
      (Prog.armSnap u g).run (((((((b.wr u (Reg.TIM_PULSE_STATE g) (if one then 1 else 2)).wr u (Reg.TIM_PULSE_MODE g) (arg p 1 1)).wr u
        (Reg.TIM_PULSE_DEST g) (arg p 2 1 % 16)).wr u (Reg.TIM_PULSE_COUNT g) (if one then 1 else arg p 4 4)).wr u
        (Reg.TIM_PULSE_NEXT g) (arg p 8 8)).wr u (Reg.TIM_PULSE_PERIOD g) (if one then 0 else arg p 24 8)).modDev u fun d => { d with
          gens := Sparse.put d.gens g
            { start := arg p 8 8, frac := arg p 16 2, fired := 0, part := p.part, role := p.roleN, mbx := m, tag := some p.tag } })) ∧
    s.answers u m p (.pulseCancel u m p) opPulseCancel (fun b => match Sparse.find (b.dev u).gens (arg p 0 1) with
      | none => b.okay u m p
      | some gen =>
        if b.genDue u (arg p 0 1) gen = true then
          let b' := (Prog.pulseFiring u (arg p 0 1)).run b
          ((Prog.opt (Sparse.find (b'.dev u).gens (arg p 0 1)) fun gen => .both
            (.answer u (gen.tag.map (gen.mbx, ·)) { status := stAborted }) (.idleGen u (arg p 0 1))).run b').okay u m p 1
        else ((Prog.idleGen u (arg p 0 1)).run
          ((Prog.answer u (gen.tag.map (gen.mbx, ·)) { status := stAborted }).run b)).okay u m p)

/-- SENTINEL_CONFIG, STEP_OPEN, STEP_CLOSE, SELFTEST_RUN and DIGEST_COMPARE (R234, R236, R237, R242, R257 to R260).
SELFTEST_RUN (R259, R260): every lane asked for and not fallow is tested and reads BAD or IDLE; the others keep their state. What the
silicon answers is an open constant of the model (log 50). -/
def Obligations.SentinelCommandsComplete : Prop :=
  (
    ∀ (s : State) (u : UnitId) (m : Nat) (p : Packet),
      s.answers u m p (.sentinelConfig u m p) opSentinelConfig (fun b => ((Prog.sentinelSet p).run b).okay u m p) ∧
      s.answers u m p (.stepOpen u m p) opStepOpen (fun b =>
        if arg p 8 8 = 0 then ((Prog.openStep (BitVec.ofNat 32 (arg p 0 4))).run b).okay u m p
        else b.modDev u fun d =>
          { d with sched := d.sched ++ [{ t := arg p 8 8, kind := .step (BitVec.ofNat 32 (arg p 0 4)), cmd := some (m, p.tag) }] }) ∧
      s.answers u m p (.stepClose u m p) opStepClose (fun b => ((Prog.opt b.openCtx fun c => .seq [
        .modCtx c.no fun c => { c with done := true },
        .cond (c.mode < modeGated && !b.on .htu Reg.SHF_BAR_CFG_BAR_EN) (.releaseStep c.no true),
        .closeStep c.no]).run b).okay u m p) ∧
      s.answers u m p (.selftestRun u m p) opSelftest (fun b => (opSelftest.run u m p).run b) ∧
      s.answers u m p (.digestCompare u m p) opDigestCompare (fun b =>
        let e : Sched := { t := b.joinInstant u (arg p 0 8), cmd := some (m, p.tag)
                           kind := .digest (BitVec.ofNat 16 (arg p 8 2)) (BitVec.ofNat 64 (arg p 16 8)) (arg p 10 1) }
        (Prog.cond (u == .vta && arg p 10 1 == 1) (.forwardBelow 0x33 { p with params := p.params.take 16 ++ le 8 (2 ^ 64 - 1) } 10
          (b.digestMask (BitVec.ofNat 64 (arg p 16 8))) fun l => l.take 16 ++ zeros 8)).run
          (b.modDev u fun d => { d with sched := d.sched ++ [e] }))) ∧
  (
    ∀ (s : State) (m : Nat) (p : Packet),
      let asked (n : Nat) : Bool := (arg p 40 1).testBit 0 && (fieldAt p.params (n / 8) 1).testBit (n % 8) && !(s.station n).fallow
      ∃ t : State, ∃ result : Nat, ∃ data : List Byte, (opSelftest.run .htu m p).run s = t.okay .htu m p result data ∧ data.length = 80 ∧
        t.hx.selftests = s.hx.selftests + 1 ∧
        ∀ n < 272, t.rd .htu (Reg.SNT_LANE_STATE n) = if asked n = true then
            (if (List.range 4).all (fun k => Config.selftestLane s.hx.selftests n k) = true then 0 else 1)
          else s.rd .htu (Reg.SNT_LANE_STATE n))

/-- TREE_LOAD, FEATURE_TABLE_LOAD, SCORE_RUN and MODEL_SWAP (R265, R273, R284 to R286, R295). A failed load leaves its slot empty and
answers why; a load that succeeds marks the slot LOADED for its partition.
FEATURE_TABLE_LOAD (R273, R274): each row's features come from the staged bytes, no byte outside the rows changes, and DDR5 and the
registers stay as they are.
SCORE_RUN (R295) scores the valid rows of its range that its slot may see, and answers their number; it writes no byte of DDR5 below the
archive area, nor the entity table, and nothing of the HTU. -/
def Obligations.HeatherCommandsComplete : Prop :=
  (
    ∀ (s : State) (m : Nat) (p : Packet),
      (∀ a, s.starts .vta m opTreeLoad p → (s.begins .vta m opTreeLoad p).loadImage p = .inl a →
        exec (.treeLoad .vta m p) s = .next ((Prog.settle .vta).run ((Prog.reply .vta m p.tag a).run
          ((Prog.emptySlot (arg p 0 1)).run (s.begins .vta m opTreeLoad p))))) ∧
      (∀ im tcam banks lost, s.starts .vta m opTreeLoad p → (s.begins .vta m opTreeLoad p).loadImage p = .inr (im, tcam, banks, lost) →
        ∃ t : State, exec (.treeLoad .vta m p) s = .next ((Prog.settle .vta).run (t.okay .vta m p
            (tcam.filter (·.slot == arg p 0 1)).length (le 4 lost ++ zeros 4))) ∧
          t.rd .vta (Reg.HTR_SLOT_LOADED (arg p 0 1)) = 1 ∧ t.rd .vta (Reg.HTR_SLOT_PART (arg p 0 1)) = p.part ∧ t.vx.tcam = tcam ∧
          (∃ sl, Sparse.find t.vx.slots (arg p 0 1) = some sl ∧ sl.image = im.bytes ∧ sl.part = p.part ∧ sl.role = p.roleN)) ∧
      s.answers .vta m p (.featureTableLoad .vta m p) opFeatureLoad (fun b => (opFeatureLoad.run .vta m p).run b) ∧
      s.answers .vta m p (.scoreRun .vta m p) opScoreRun (fun b => (opScoreRun.run .vta m p).run b) ∧
      s.answers .vta m p (.modelSwap .vta m p) opModelSwap (fun b =>
        let c := ((b.wr .vta (Reg.HTR_SVC_PEND (arg p 0 1)) 1).wr .vta (Reg.HTR_SVC_PEND_SLOT (arg p 0 1))
          (if arg p 1 1 = 0xFF then 0xF else arg p 1 1)).wr .vta (Reg.HTR_SVC_APPLY_NS (arg p 0 1)) (arg p 8 8)
        { c with vx := { c.vx with swaps := Sparse.put c.vx.swaps (arg p 0 1) (m, p.tag) } })) ∧
  (
    ∀ (s : State) (m : Nat) (p : Packet), ∃ t : State, (opFeatureLoad.run .vta m p).run s = t.okay .vta m p (arg p 4 4) ∧
      t.ddr = s.ddr ∧ t.vregs = s.vregs ∧ t.hregs = s.hregs ∧ t.h = s.h ∧ t.v = s.v ∧ t.hx = s.hx ∧ t.vx = s.vx ∧
      (∀ i < arg p 4 4, ∀ j < 192, Memory.read t.entity (320 * (arg p 0 4 + i) + 24 + j)
        = Memory.read s.ddr (stagingBase + arg p 8 8 + 280 * i + 24 + j)) ∧
      ∀ a, a < 320 * arg p 0 4 ∨ 320 * (arg p 0 4 + arg p 4 4) ≤ a → Memory.read t.entity a = Memory.read s.entity a) ∧
  (
    ∀ (s : State) (m : Nat) (p : Packet) (sl : Slot), Sparse.find s.vx.slots (arg p 0 1) = some sl →
      let rows := (s.validRows.filter fun r => arg p 4 4 ≤ r && r < arg p 4 4 + arg p 8 4).filter (s.inScope sl)
      ∃ t : State, (opScoreRun.run .vta m p).run s = t.okay .vta m p rows.length ∧ t.entity = s.entity ∧
        (∀ a < 0x80000000, Memory.read t.ddr a = Memory.read s.ddr a) ∧
        t.hregs = s.hregs ∧ t.h = s.h ∧ t.hx = s.hx)

/-- POWER_CAP, BUDGET_SHIFT, STAGGER_RELEASE and START_AT (R312 to R314, R336, R337, R341, R342).
START_AT at a tray (R314) arms the job: its number, instant and state, and the entry that starts it. -/
def Obligations.PowerCommandsComplete : Prop :=
  (
    ∀ (s : State) (u : UnitId) (m : Nat) (p : Packet),
      s.answers .htu m p (.powerCap .htu m p) opPowerCap (fun b =>
        let c := b.wr .htu Reg.PWR_LIMIT_CAP_MW (if arg p 0 1 = 3 then 0 else arg p 4 4)
        let d : State := { c with hx := { c.hx with emergency := arg p 0 1 == 2, floored := false } }
        (if arg p 0 1 = 2 then d else d.wr .htu Reg.PWR_STATUS_EMERG 0).okay .htu m p (b.rd .htu Reg.PWR_MEAS_PM_MW)) ∧
      s.answers .htu m p (.budgetShift .htu m p) opBudgetShift (fun b =>
        { b with hx := { b.hx with budPend := b.hx.budPend ++ [(arg p 0 4, m, p.tag)] } }) ∧
      s.answers .vta m p (.budgetShift .vta m p) opBudgetShift (fun b => match arg p 0 1 with
        | 1 => ((Prog.each (List.range 64) fun k =>
            if (Sparse.get {} b.v.conns k).path.isSome then .sendBudget k (arg p 4 4 / 64)
            else .wr .vta (Reg.PWR_DIE_BUDGET_MW k) (arg p 4 4 / 64)).run (b.wr .vta Reg.PWR_TRAY_TRAY_MW (arg p 4 4))).okay .vta m p
        | 2 => (Prog.startMove (arg p 1 1) (arg p 2 1) (arg p 4 4) 0 (some (m, p.tag))).run b
        | a => (b.wr .vta Reg.PWR_TRAY_AUTO (if a = 3 then 1 else 0)).okay .vta m p) ∧
      s.answers .htu m p (.staggerRelease .htu m p) opStagger (fun b =>
        (((((b.wr .htu Reg.PWR_STAGGER_WAVES (arg p 0 1)).wr .htu Reg.PWR_STAGGER_SPACING_NS (arg p 1 1)).wr .htu
          Reg.PWR_STAGGER_ROTATE (arg p 2 1)).wr .htu Reg.PWR_STAGGER_DROOP_HOLD (arg p 2 1 / 2)).wr .htu
          Reg.PWR_STAGGER_HOLD_DROOP_MAX_NS (arg p 4 2)).okay .htu m p) ∧
      s.answers u m p (.startAt u m p) opStartAt (fun b =>
        if b.jobLive u = true then
          if b.rd u (jobState u) = jobRunning then b.okay u m p 1
          else b.modDev u fun d => { d with sched := d.sched ++ [{ t := arg p 0 8, kind := .job true, cmd := some (m, p.tag) }] }
        else match u with
          | .htu =>
            let c := ((b.wr .htu (jobId .htu) (arg p 8 4)).wr .htu (jobState .htu) jobArmed).wr .htu (jobT .htu) (arg p 0 8)
            ({ c with hx := { c.hx with relBlocked := false, jobPart := p.part } } : State).modDev .htu fun d =>
              { d with sched := d.sched ++ [{ t := arg p 0 8, kind := .job false, cmd := some (m, p.tag) }] }
          | .vta => (opStartAt.run .vta m p).run b)) ∧
  (
    ∀ (s : State) (m : Nat) (p : Packet), s.jobLive .vta = false → ∃ t : State, (opStartAt.run .vta m p).run s = t ∧
      t.rd .vta Reg.VTA_JOB_JOB_ID = arg p 8 4 ∧ t.rd .vta Reg.VTA_JOB_STATE = jobArmed ∧ t.rd .vta Reg.VTA_JOB_T_START = arg p 0 8 ∧
      t.rd .vta Reg.VTA_JOB_ROOT = (if p.roleN = 6 then 0 else 1) ∧
      (∃ e ∈ t.v.sched, e.t = arg p 0 8 ∧ e.kind = .job false) ∧ t.vx.jobPart = p.part ∧ t.vx.jobCmd = some (m, p.tag) ∧
      t.hregs = s.hregs ∧ t.h = s.h ∧ t.hx = s.hx ∧ t.ddr = s.ddr ∧ t.entity = s.entity)

/-- TRACE_ARM, TRACE_TRIGGER, TENSOR_DUMP and COMPRESS_FLUSH (R350, R356, R360, R361, R366).
TRACE_ARM (R350): the trace registers take the parameters, the first n filter entries are valid and the rest are not, and the trace circulates for its
partition. -/
def Obligations.TraceCommandsComplete : Prop :=
  (
    ∀ (s : State) (u : UnitId) (m : Nat) (p : Packet),
      s.answers u m p (.traceArm u m p) opTraceArm (fun b => (opTraceArm.run u m p).run b) ∧
      s.answers u m p (.traceTrigger u m p) opTraceTrigger (fun b =>
        ((Prog.trigger u 1).run b).okay u m p (b.rd u Reg.TRC_STATUS_PHASE == phaseCirculate).toNat) ∧
      s.answers .htu m p (.tensorDump .htu m p) opTensorDump (fun b => Prog.startDumps.run { b with hx := { b.hx with
        dumps := b.hx.dumps ++ [{
          name := arg p 0 4, step := BitVec.ofNat 32 (arg p 4 4), atClose := arg p 8 1 == 1, comp := arg p 9 1 % 2 == 1
          addr := arg p 16 8, len := arg p 24 8, part := p.part, cmd := (m, p.tag) }] } }) ∧
      s.answers u m p (.compressFlush u m p) opCompressFlush (fun b =>
        let segs := if u = .vta ∧ (arg p 2 1).testBit 0 = true then
          b.vx.segs.filter fun g => g.part == p.part && (arg p 0 2 == 0xFFFF || g.stream == arg p 0 2) else []
        ((Prog.each segs Prog.closeSegment).run b).okay u m p segs.length)) ∧
  (
    ∀ (s : State) (u : UnitId) (m : Nat) (p : Packet), ∃ t : State, (opTraceArm.run u m p).run s = t.okay u m p ∧
      t.rd u Reg.TRC_CFG_PRE = arg p 0 1 % 16 ∧ t.rd u Reg.TRC_CFG_TRIG_EN = arg p 1 1 % 32 ∧ t.rd u Reg.TRC_CFG_TRIG_TAG = arg p 3 1 ∧
      t.rd u Reg.TRC_CFG_POST_US = arg p 4 4 ∧ t.rd u Reg.TRC_SYNC_SYNC_US = (if arg p 8 2 = 0 then 100 else arg p 8 2) ∧
      (∀ i < 32, t.rd u (Reg.TRC_FILT_VALID i) = if i < arg p 10 1 then 1 else 0) ∧
      (∀ i < 32, i < arg p 10 1 → t.rd u (Reg.TRC_FILT_SRC_FIRST i) = arg p (16 + 8 * i) 2 ∧
        t.rd u (Reg.TRC_FILT_SRC_LAST i) = arg p (18 + 8 * i) 2) ∧
      t.rd u Reg.TRC_STATUS_PHASE = phaseCirculate ∧ t.rd u Reg.TRC_STATUS_OWNER = p.part ∧ (t.fn u fidTrace).st = .running ∧
      t.ddr = s.ddr ∧ t.entity = s.entity ∧ t.hx = s.hx ∧ t.vx = s.vx)

/-- LOG_READ, LOG_MARK, SCRUB_RANGE, RETIRE, ATTEST, POLICY_LOAD and KEY_ROTATE (R112, R121 to R123, R128, R407 to R410, R419, R420).
RETIRE of an HTU cluster (R410): the physical cluster is RETIRED and kept so, a record names it, and the reply is OK; of an HTU memory
range it uses one spare.
LOG_MARK (R420) without a flush: a MARK record with the command's eight bytes is committed, and the reply gives its cursor; where it found
no room the cursor is a free value (log 61). -/
def Obligations.LogAndFirmwareCommandsComplete : Prop :=
  (
    ∀ (s : State) (u : UnitId) (m : Nat) (p : Packet),
      s.answers u m p (.logRead u m p) opLogRead (fun b =>
        (Prog.reply u m p.tag (if arg p 0 1 = 0 then b.readFirst u p else b.readLast u p)).run b) ∧
      s.answers u m p (.logMark u m p) opLogMark (fun b => (opLogMark.run u m p).run b) ∧
      s.answers u m p (.scrubRange u m p) opScrubRange (fun b =>
        let found := (b.dev u).weak.filter (inRange (arg p 0 1) (arg p 8 8) (arg p 16 8))
        let fixed := if arg p 0 1 = 5 then found.take (b.sparesLeft u 3) else found
        let c := b.modDev u fun d => { d with weak := d.weak.filter fun e => !fixed.contains e }
        (Prog.reply u m p.tag { status := stOk, result := fixed.length
                                detail := ((b.dev u).bad.filter (inRange (arg p 0 1) (arg p 8 8) (arg p 16 8))).length }).run
          (if arg p 0 1 = 5 then c.modDev u fun d =>
            { d with evr := { d.evr with remaps := d.evr.remaps ++ fixed.map fun e => (3, 5, e.2 / 4096) } } else c)) ∧
      s.answers u m p (.retire u m p) opRetire (fun b =>
        if b.isRetired (arg p 0 1) (arg p 8 8) = true then b.okay u m p else (opRetire.run u m p).run b) ∧
      s.answers u m p (.attest u m p) opAttest (fun b => (Prog.respond u m p.params fun bytes =>
        .reply u m p.tag { status := stOk, result := bytes.length, data := bytes }).run b) ∧
      s.answers u m p (.policyLoad u m p) opPolicyLoad (fun b => (Prog.policyPortion u m p).run b) ∧
      s.answers u m p (.keyRotate u m p) opKeyRotate (fun b =>
        let cert := (Config.rskCert u ((b.dev u).rsk + 1) (b.dev u).aliasCdi).take 2048
        ((Prog.event u 0x0804 (le 8 (Config.rskKeyId u ((b.dev u).rsk + 1)).toNat)).run
          (((Prog.each ((b.dev u).streams.filter (·.2.sig)) fun e => .closeChain u e.1).run b).modDev u fun d =>
            { d with rsk := (b.dev u).rsk + 1, rotT := some d.ticks })).okay u m p cert.length cert)) ∧
  (
    ∀ (s : State) (m : Nat) (p : Packet), arg p 0 1 = 7 → s.isRetired 7 (arg p 8 8) = false →
      (opRetire.run .htu m p).run s = ((Prog.event .htu 0x0603 p.params).run
        ((s.wr .htu (Reg.TAP_PHYS_STATE (arg p 8 8)) phRetired).modDev .htu fun d =>
          { d with evr := { d.evr with retired := d.evr.retired ++ [arg p 8 8] } })).okay .htu m p) ∧
  (
    ∀ (s : State) (u : UnitId) (m : Nat) (p : Packet), (arg p 8 1).testBit 0 = false →
      let e := s.newEvent u 0x0701 (p.params.take 8)
      let v := (s.dev u).evr
      let v' := v.commit e
      (v.staged.length < v'.staged.length → (opLogMark.run u m p).run s = ((Prog.commitEv u e).run s).okay u m p 0
        (cursorBytes (stagedCursor v'.staged (v'.staged.length - 1) v.nextSeq 16))) ∧
      (v'.staged.length ≤ v.staged.length → (opLogMark.run u m p).run s =
        ((Prog.commitEv u e).run { s with free := s.free + 1 }).okay u m p 0 (le 8 (Config.freeNat s.free))))

/-- What portions of POLICY_LOAD leave (R123): a portion that is not the last joins the assembly and answers the bytes that it holds; a last
portion of another length than announced drops its own bytes.
Signed segments and policy events (R122, R123, R125): a segment open for 10 ms is signed; a policy takes effect at its apply epoch and not
before; an assembly that times out is dropped; the stored policy is taken up again after a start.
A policy that takes effect (R119 to R122) is the policy in force: it waits no longer, its version shows, and POLICY_IN_FORCE reads 1.
Here a policy with no register entries, no collectors, no functions to start, no cluster assignment and no Sentinel settings, where none
was in force; the layout of a policy's sections is the model's (log 32). -/
def Obligations.PolicyIsAssembledAndApplied : Prop :=
  (
    ∀ (s : State) (u : UnitId) (m : Nat) (p : Packet),
      let total := if arg p 4 4 = 0 then arg p 0 4 else (((s.dev u).pol.asm.map fun a => a.2.1).getD 0)
      let bytes := (if arg p 4 4 = 0 then [] else ((s.dev u).pol.asm.map fun a => a.2.2).getD []) ++ p.params.drop 16
      ((arg p 8 1).testBit 0 = false → (Prog.policyPortion u m p).run s =
        (s.modDev u fun d => { d with pol := { d.pol with asm := some (m, total, bytes) } }).okay u m p bytes.length) ∧
      ((arg p 8 1).testBit 0 = true → bytes.length = total → ∀ a, s.policyFail u bytes = some a →
        (Prog.policyPortion u m p).run s = (Prog.reply u m p.tag a).run
          (s.modDev u fun d => { d with pol := { d.pol with asm := none } }))) ∧
  (
    ∀ (u : UnitId) (s : State), (s.dev u).inReset = false →
      (∀ sid st, sid < streamCount u → Sparse.find (s.dev u).streams sid = some st → exec (.segmentClose u sid) s = .next
        (if (if s.timev u && st.segLive then st.segTime + 10000000 ≤ s.ns u else st.segTick + 12500000 ≤ (s.dev u).ticks)
          then (Prog.closeChain u sid).run s else s)) ∧
      exec (.policyAssemblyTimeout u) s = .next (s.modDev u fun d => { d with pol := { d.pol with asm := none } }) ∧
      (s.gorseUp u = true → s.timev u = true → ∀ version ep b image, (s.dev u).pol.pend = some (version, ep, b, image) →
        exec (.policyApply u) s = .next ((Prog.settle u).run
          (if serialGe 32 (s.epoch u) ep = true then (Prog.applyPolicy u version ep b image).run s else s))) ∧
      ((s.dev u).pol.pend = none → exec (.policyApply u) s = .next ((Prog.settle u).run s)) ∧
      (s.gorseUp u = true → s.policy u = false → (s.dev u).pol.pend = none →
        (match u with
          | .htu => s.on .htu Reg.HTU_STATUS_MBX0_OPEN = true ∧ s.rd .htu Reg.HTU_STATUS_BOOT_FAIL = 0
          | .vta => s.on .vta Reg.VTA_STATUS_PCIE_OPEN = true ∧ s.rd .vta Reg.VTA_STATUS_BOOT_FAIL ≠ 5) →
        ∀ image body, (s.dev u).evr.policy = some image → s.policyContent u image = some body →
          exec (.policyStartApply u) s = .next ((Prog.settle u).run
            ((Prog.acceptPolicy u (fieldAt image 4 4) ((s.epoch u + 3) % 2 ^ 32) body image).run s)))) ∧
  (
    ∀ (u : UnitId) (s : State) (version ep : Nat) (b : PolicyBody) (image : List Byte), version < 2 ^ 32 → (s.dev u).pol.body = none →
      b.regs = [] → b.collectors = [] → b.startFns = [] → b.clusters = none → b.sentinel = none → b.svn = none →
      (s.dev u).colls = [] →
      let t := (Prog.applyPolicy u version ep b image).run s
      (t.dev u).pol.body = some b ∧ (t.dev u).pol.pend = none ∧ t.rd u Reg.SEC_POLICY_VER_VERSION = version ∧
        t.rd u Reg.SEC_STATE_POLICY_IN_FORCE = 1 ∧ t.policy u = true ∧ (t.dev u).evr.policy = some image)

/-- QUARANTINE, PROBATION, LEASE_RENEW, PORT_HOTPLUG and ABORT_JOB (R304 to R306, R311, R316, R399). -/
def Obligations.FleetCommandsComplete : Prop :=
  ∀ (s : State) (u : UnitId) (m : Nat) (p : Packet),
    s.answers .htu m p (.quarantine .htu m p) opQuarantine (fun b =>
      if arg p 4 1 = 1 then ((Prog.drain 4).run (b.wr .htu Reg.HTU_JOB_QUARANTINED 1)).okay .htu m p 1
      else (b.wr .htu Reg.HTU_JOB_QUARANTINED 0).okay .htu m p (b.on .htu Reg.HTU_JOB_QUARANTINED).toNat) ∧
    s.answers .vta m p (.quarantine .vta m p) opQuarantine (fun b =>
      let k := arg p 0 4 % 64
      let v := b.rd .vta (Reg.VTA_DIE_VERDICT k)
      if arg p 4 1 = 2 then
        if 3 ≤ v then ((Prog.setVerdict k vHealthy causeCommand 0).run (b.wr .vta (Reg.VTA_DIE_HS k) 0)).okay .vta m p 1
        else b.okay .vta m p
      else if v = vQuarantine then b.okay .vta m p
      else if b.budgetLeft = true then ((Prog.quarantine k causeCommand 0).run b).okay .vta m p 1
      else if p.roleN = roleFaultManager ∨ p.roleN = roleOperator then ((Prog.quarantine k causeCommand flExceeded).run b).okay .vta m p 1
      else ((Prog.spent k causeCommand).run b).okay .vta m p) ∧
    s.answers .htu m p (.probation .htu m p) opProbation (fun b => (Prog.probHtu m p).run b) ∧
    s.answers .vta m p (.probation .vta m p) opProbation (fun b =>
      let k := arg p 0 4 % 64
      let v := b.rd .vta (Reg.VTA_DIE_VERDICT k)
      if arg p 4 1 = 1 then
        if v < vProbation ∨ v = vDead then ((Prog.probation k causeCommand 0).run b).okay .vta m p 1 else b.okay .vta m p
      else if v = vProbation then ((Prog.healthy k causeCommand).run b).okay .vta m p 1 else b.okay .vta m p) ∧
    s.answers .htu m p (.leaseRenew .htu m p) opLeaseRenew (fun b => (Prog.forward .htu 0 0x92
      { p with params := p.params.take 8 ++ le 8 (2 ^ (b.dieId .htu % 64)), role := 6 } (some (m, p.tag))).run b) ∧
    s.answers .vta m p (.leaseRenew .vta m p) opLeaseRenew (fun b => (Prog.leaseVta p (Prog.reply .vta m p.tag)).run b) ∧
    s.answers u m p (.portHotplug u m p) opPortHotplug (fun b =>
      let k := targetInst p.target
      if arg p 0 1 = 1 then ((Prog.removePort u k).run b).okay u m p
      else if b.rd u (Reg.FUR_PORT_STATE k) = portUp then b.okay u m p
      else ((((Prog.setFn u (fidPort k) fun f => { f with st := .running }).run b).wr u (Reg.FUR_PORT_STATE k) portTraining).modDev u
        fun d => { d with ports := Sparse.mod {} d.ports k fun q => { q with refused := false, byed := false, add := some (m, p.tag) } })) ∧
    s.answers u m p (.abortJob u m p) opAbortJob (fun b =>
      if arg p 0 4 ≠ 0 ∧ arg p 0 4 = b.rd u (jobId u) ∧ b.jobLive u = true then
        ((Prog.endJob u (arg p 4 1) (arg p 8 4)).run ((Prog.cond (u == .vta && arg p 5 1 == 1)
          (.forwardBelow 0x94 p 5 (b.digestMask b.vx.jobMask) id)).run b)).okay u m p 1
      else b.okay u m p)

/-- A misaligned access (R10): a MISALIGNED record names it; a read returns all ones, and a write stores nothing. -/
def Obligations.MisalignedAccessIsRecorded : Prop :=
  ∀ (u : UnitId) (a : Agent) (off size : Nat) (s : State), (s.dev u).inReset = false →
    (exec (.misalignedAccess u a off size true) s = .next ((Prog.event u 0x0001 (accessPayload off a size true 0)).run s)) ∧
    (exec (.misalignedAccess u a off size false) s = .next
      (((Prog.event u 0x0001 (accessPayload off a size false 0)).run s).modDev u fun d => { d with bus := BitVec.allOnes 64 }))

/-- Writes of RW and W1C registers (R12, R74): MBX_IRQ_EN of mailbox 0 takes the value written; each 1 written to MBX_IRQ_STATUS clears its bit and
each 0 leaves it; a write of one register changes no other word.
A read of an RC register returns the value and clears it (R12, R14), here the four counters of MBX_ERR of mailbox 0; no other word changes.
A read of a GRO register (R12, R13): Gorse gets the value; any other agent gets zero, and a DENIED record names the register and the
agent. Here SEC_POLICY_VER. -/
def Obligations.RegisterAccessTypes : Prop :=
  (
    ∀ (u : UnitId) (a : Agent) (v : Word) (s : State), s.blockReady u 0x1000 = true →
      (∃ t : State, exec (.registerWrite u a 0x1028 false v) s = .next ((Prog.settle u).run t) ∧
        t.rd u (Reg.MBX_IRQ_EN_EN 0) = v.toNat % 4 ∧ t.rd u (Reg.MBX_ERR_FRAMING 0) = s.rd u (Reg.MBX_ERR_FRAMING 0) ∧
        t.rd u (Reg.MBX_ERR_EMPTY_READ 0) = s.rd u (Reg.MBX_ERR_EMPTY_READ 0) ∧
        ∀ w off, ¬ (w = u ∧ off = 0x1028) → t.word w off = s.word w off) ∧
      (∃ t : State, exec (.registerWrite u a 0x1024 false v) s = .next ((Prog.settle u).run t) ∧
        t.rd u (Reg.MBX_IRQ_STATUS_NOTIFY_REPLY 0) = (if v.getLsbD 0 then 0 else s.rd u (Reg.MBX_IRQ_STATUS_NOTIFY_REPLY 0)) ∧
        t.rd u (Reg.MBX_IRQ_STATUS_ERROR 0) = (if v.getLsbD 1 then 0 else s.rd u (Reg.MBX_IRQ_STATUS_ERROR 0)) ∧
        t.rd u (Reg.MBX_IRQ_EN_EN 0) = s.rd u (Reg.MBX_IRQ_EN_EN 0))) ∧
  (
    ∀ (u : UnitId) (a : Agent) (s : State), s.blockReady u 0x1000 = true →
      ∃ t : State, exec (.rcRead u a 0x102C false) s = .next t ∧
        (t.dev u).bus.toNat = s.rd u (Reg.MBX_ERR_FRAMING 0) + 256 * s.rd u (Reg.MBX_ERR_OVERFLOW 0)
          + 65536 * s.rd u (Reg.MBX_ERR_DUP_TAG 0) + 16777216 * s.rd u (Reg.MBX_ERR_EMPTY_READ 0) ∧
        (∀ f ∈ [Reg.MBX_ERR_FRAMING 0, Reg.MBX_ERR_OVERFLOW 0, Reg.MBX_ERR_DUP_TAG 0, Reg.MBX_ERR_EMPTY_READ 0], t.rd u f = 0) ∧
        t.rd u (Reg.MBX_IRQ_EN_EN 0) = s.rd u (Reg.MBX_IRQ_EN_EN 0) ∧ ∀ w off, ¬ (w = u ∧ off = 0x1028) → t.word w off = s.word w off) ∧
  (
    ∀ (u : UnitId) (s : State), s.blockReady u 0x80000 = true →
      (exec (.groRead u .gorse 0x80008 false) s = .next
        (s.modDev u fun d => { d with bus := BitVec.ofNat 64 (s.rd u Reg.SEC_POLICY_VER_VERSION) })) ∧
      (∀ a : Agent, a ≠ .gorse → exec (.groRead u a 0x80008 false) s = .next
        ((Prog.event u 0x0002 (accessPayload 0x80008 a 4 false 2)).run (s.modDev u fun d => { d with bus := 0 }))))

/-- A 64-bit register in halves (R11): a read of the low half latches the high half for its agent, whose next read of the high half gets
it; a low half written is held without effect, and the agent's high half then stores both at one instant, or stores alone where no low half is
held. The reads are those of TIM_INC, the writes of HTR_SVC.REPORT by Gorse; the held half is that of any 64-bit register.
A read of TIM_NOW (R162): the published time is returned, and its fraction is latched for the agent; no register changes. -/
def Obligations.WideRegistersInHalves : Prop :=
  (
    (∀ (u : UnitId) (a : Agent) (s : State), s.blockReady u 0x2018 = true →
      (∃ t : State, exec (.lowHalfRead u a 0x2018) s = .next t ∧ (t.dev u).bus.toNat = s.rd u Reg.TIM_INC_INC % 2 ^ 32 ∧
        ((t.dev u).hiLatch.find? fun e => e.1 == a && e.2.1 == 0x2018)
          = some (a, 0x2018, BitVec.ofNat 32 (s.rd u Reg.TIM_INC_INC / 2 ^ 32)) ∧ t.hregs = s.hregs ∧ t.vregs = s.vregs) ∧
      (∀ e, ((s.dev u).hiLatch.find? fun e => e.1 == a && e.2.1 == 0x2018) = some e →
        (((Prog.readReg u a 0x201C false).run s).dev u).bus = e.2.2.setWidth 64)) ∧
    (∀ (u : UnitId) (a : Agent) (off : Nat) (v : Half) (s : State), off % 8 = 0 → isWide u off = true → s.blockReady u off = true →
      exec (.lowHalfWrite u a off v) s = .next ((Prog.settle u).run (s.modDev u fun d =>
        { d with loHeld := (d.loHeld.filter fun e => !(e.1 == a)) ++ [(a, off, v)] }))) ∧
    (∀ (v : Half) (s : State), s.blockReady .vta 0x1002010 = true →
      ∃ t : State, exec (.highHalfWrite .vta .gorse 0x1002014 v) s = .next ((Prog.settle .vta).run t) ∧
        t.rd .vta (Reg.HTR_SVC_REPORT 0) = 2 ^ 32 * v.toNat + (match s.lowHeld .vta .gorse 0x1002010 with
          | some lo => lo.toNat
          | none => s.rd .vta (Reg.HTR_SVC_REPORT 0) % 2 ^ 32) ∧
        t.lowHeld .vta .gorse 0x1002010 = none ∧ ∀ w off, ¬ (w = .vta ∧ off = 0x1002010) → t.word w off = s.word w off)) ∧
  (
    ∀ (u : UnitId) (a : Agent) (s : State), s.blockReady u 0x2008 = true →
      (exec (.timNowRead u a true) s = .next (s.modDev u fun d => { d with
        bus := BitVec.ofNat 64 (s.rd u Reg.TIM_NOW_NS), fracs := (d.fracs.filter (·.1 != a)) ++ [(a, d.pubFrac)] })) ∧
      ∃ t : State, exec (.timNowRead u a false) s = .next t ∧ (t.dev u).bus.toNat = s.rd u Reg.TIM_NOW_NS % 2 ^ 32 ∧
        (t.dev u).fracs = ((s.dev u).fracs.filter (·.1 != a)) ++ [(a, (s.dev u).pubFrac)] ∧ t.hregs = s.hregs ∧ t.vregs = s.vregs)

/-- Writes that only some agents may make (R13, R55, R147, R363): Bracken commits no map and ends no halt, and only Gorse requests a clock
switch or sets SRC_PREF; anything else stores nothing, and a DENIED record says so.
SNT_REPLAY_POP, the HALT of a dump channel, SWITCH and SRC_PREF act where their agent may write (R147, R150, R254, R363). -/
def Obligations.RegisterActions : Prop :=
  (
    ∀ (u : UnitId) (a : Agent) (s : State),
      (s.blockReady .htu 0xA2000 = true → agentActs .htu a = .bracken → ∀ imm, exec (.mapCommit a imm) s = .next
        ((Prog.event .htu 0x0002 (accessPayload 0xA2000 a 4 true 4)).run ((Prog.dropLow .htu a).run s))) ∧
      (∀ c < 8, s.blockReady .htu (0x50800 + 32 * c) = true → agentActs .htu a = .bracken → exec (.trcDumpHalt a c) s = .next
        ((Prog.event .htu 0x0002 (accessPayload (0x50800 + 32 * c) a 4 true 4)).run ((Prog.dropLow .htu a).run s))) ∧
      (s.blockReady u 0x2000 = true → a ≠ .gorse →
        exec (.switch u a) s = .next ((Prog.event u 0x0002 (accessPayload 0x2000 a 4 true 1)).run ((Prog.dropLow u a).run s)) ∧
        ∀ v, exec (.srcPref u a v) s = .next ((Prog.event u 0x0002 (accessPayload 0x2000 a 4 true 1)).run ((Prog.dropLow u a).run s)))) ∧
  (
    (∀ (a : Agent) (s : State), s.blockReady .htu 0x30088 = true → ∃ t : State, exec (.sntReplayPop a) s = .next t ∧
      t.hx = { s.hx with replayQ := s.hx.replayQ.drop 1 } ∧
      t.h.bus.toNat = ((s.hx.replayQ.head?.map ReplayEnt.collId).getD 0).toNat) ∧
    (∀ (a : Agent) (c : Nat) (s₀ : State), let s := (Prog.dropLow .htu a).run s₀
      c < 8 → s.blockReady .htu (0x50800 + 32 * c) = true → agentActs .htu a ≠ .bracken →
      (s.rd .htu (Reg.TRC_DUMP_STATE c) ≠ chanHalted → exec (.trcDumpHalt a c) s₀ = .next s) ∧
      (s.rd .htu (Reg.TRC_DUMP_STATE c) = chanHalted → exec (.trcDumpHalt a c) s₀ = .next (Prog.startDumps.run
        (((s.wr .htu (Reg.TRC_DUMP_STATE c) chanIdle).wr .htu (Reg.TRC_DUMP_HALT c) 0).wr .htu (Reg.TRC_DUMP_CAUSE c) 0)))) ∧
    (∀ s₀ : State, let s := (Prog.dropLow .htu .gorse).run s₀
      s.blockReady .htu 0x2000 = true → exec (.switch .htu .gorse) s₀ = .next
      (if s.switchReady .htu (s.otherPort .htu) = true ∧ s.timePort .htu ≠ some (s.otherPort .htu) then
        s.modDev .htu fun d => { d with sw := some { target := s.otherPort .htu, since := d.ticks } } else s)) ∧
    (∀ s₀ : State, let s := (Prog.dropLow .vta .gorse).run s₀
      s.blockReady .vta 0x2000 = true → exec (.switch .vta .gorse) s₀ = .next
      (if s.switchReady .vta (s.otherPort .vta) = true ∧ s.timePort .vta ≠ some (s.otherPort .vta) then
        ((s.wr .vta (ptpPort (s.otherPort .vta - 64)) 5).wr .vta (ptpPort (65 - s.otherPort .vta)) 3).modDev .vta fun d =>
          { d with sw := some { target := s.otherPort .vta, moved := true } } else s)) ∧
    (∀ (u : UnitId) (v : BitVec 2) (s₀ : State), let s := (Prog.dropLow u .gorse).run s₀
      s.blockReady u 0x2000 = true →
      (s.rd u Reg.TIM_CTL_SRC_PREF = v.toNat → exec (.srcPref u .gorse v) s₀ = .next ((Prog.joinReady u).run s)) ∧
      (s.rd u Reg.TIM_CTL_SRC_PREF ≠ v.toNat → exec (.srcPref u .gorse v) s₀ = .next
        ((Prog.joinReady u).run ((Prog.setSrcPref u v.toNat).run s)))))

/-- A commit of the pending cluster map (R54, R55): the checks in order with their reasons; a map that passes is scheduled, or applied at once where the
commit is IMMEDIATE; a scheduled map is the one committed, and reads APPLIED once it has taken effect. -/
def Obligations.MapCommitChecksTheMap : Prop :=
  ∀ (a : Agent) (imm : Bool) (s₀ : State), let s := (Prog.dropLow .htu a).run s₀
  s.blockReady .htu 0xA2000 = true → agentActs .htu a ≠ .bracken →
    let apply := s.rd .htu Reg.TAP_MAP_EPOCH_APPLY_EPOCH
    let late := ¬ (serialGt 32 apply (s.epoch .htu) = true ∧ 2 ≤ serialDiff 32 apply (s.epoch .htu))
    let pend (n : Nat) : Nat := s.rd .htu (Reg.TAP_MAP_PEND_PHYS n)
    let bad := (List.range 256).find? fun n => s.mapTest n != 0
    let b := s.wr .htu Reg.TAP_MAP_CTL_IMMEDIATE imm.toNat
    let reject (r : Nat) := (b.wr .htu Reg.TAP_MAP_STATUS_STAT 3).wr .htu Reg.TAP_MAP_STATUS_REASON r
    (s.rd .htu Reg.TAP_MAP_STATUS_STAT = 1 → exec (.mapCommit a imm) s₀ = .next (b.wr .htu Reg.TAP_MAP_STATUS_REASON 6)) ∧
    (s.rd .htu Reg.TAP_MAP_STATUS_STAT ≠ 1 →
      (imm = true → s.h.colls ≠ [] → exec (.mapCommit a imm) s₀ = .next (reject 5)) ∧
      (imm = false → s.timev .htu = false → exec (.mapCommit a imm) s₀ = .next (reject 7)) ∧
      (imm = false → s.timev .htu = true → late → exec (.mapCommit a imm) s₀ = .next (reject 4)) ∧
      ((imm = true ∧ s.h.colls = []) ∨ (imm = false ∧ s.timev .htu = true ∧ ¬ late) →
        (∀ n, bad = some n → exec (.mapCommit a imm) s₀ = .next ((reject (s.mapTest n)).wr .htu Reg.TAP_MAP_STATUS_FIRST_BAD n)) ∧
        (bad = none → imm = false → exec (.mapCommit a imm) s₀ = .next
          (let c := (b.wr .htu Reg.TAP_MAP_STATUS_REASON 0).wr .htu Reg.TAP_MAP_STATUS_STAT 1
           { c with hx := { c.hx with mapNext := some ((List.range 256).map pend, apply) } })) ∧
        (bad = none → imm = true → exec (.mapCommit a imm) s₀ = .next
          (((Prog.mapApply pend).run (b.wr .htu Reg.TAP_MAP_STATUS_REASON 0)).wr .htu Reg.TAP_MAP_STATUS_STAT 2)))) ∧
    (∀ m at', s.hx.mapNext = some (m, at') → s.timev .htu = true → s.h.gated = false → serialGe 32 (s.epoch .htu) at' = true →
      exec .mapApply s = .next
        (let c := ((Prog.mapApply fun n => m.getD n 0).run s).wr .htu Reg.TAP_MAP_STATUS_STAT 2
         { c with hx := { c.hx with mapNext := none } }))

/-- HOST_RST, a loss of the core clock, and a fundamental reset (R15, R39, R64, R426): every register of the unit reads its reset value but the retained
flags of R345 and a written DDR_T; the unit's tables are those of Dev.afterReset and the flash is kept; the outputs go to
their safe states, a release under way being issued whole (R43, R44); and the other unit stays as it is. -/
def Obligations.ResetsClearOneUnit : Prop :=
  ∀ (powerUp : Bool) (s : State),
    (∃ t : State, exec (.hostRst powerUp) s = .next t ∧
      t.h = { Dev.afterReset powerUp s.h with out := s.h.out ++ (s.hx.rels.map fun r => Out.barrierRel r.rest)
        ++ ((List.range 2).filter (s.irqLine .htu)).map fun m => Out.irq m false } ∧ t.h.inReset = true ∧ t.h.mbx = [] ∧
      t.h.evr.pages = s.h.evr.pages ∧ t.hx.steps = [] ∧ t.v = s.v ∧ t.vregs = s.vregs ∧ t.vx = s.vx ∧ t.ddr = s.ddr ∧ t.entity = s.entity ∧
      ∀ off, (powerUp = false → off ≠ 0x40038 ∧ off ≠ 0x40040) → t.word .htu off = Reg.resetWord .htu off) ∧
    (∀ off, off = 0x40038 ∨ off = 0x40040 → ∃ t : State, exec (.hostRst false) s = .next t ∧ t.word .htu off = s.word .htu off) ∧
    (s.h.inReset = false → exec .coreClockLoss s = exec (.hostRst false) s) ∧
    (s.h.inReset = true → exec .coreClockLoss s = .next s) ∧
    (∃ t : State, exec (.fundamentalReset powerUp) s = .next t ∧ t.v = { Dev.afterReset powerUp s.v with
        out := s.v.out ++ (if s.irqLine .vta 8 then [Out.irq 8 false] else []) } ∧ t.v.inReset = true ∧ t.v.mbx = [] ∧
      t.v.evr.pages = s.v.evr.pages ∧ t.vx.tcam = [] ∧ t.entity = [] ∧ t.ddr = (if powerUp then [] else s.ddr) ∧
      t.h = s.h ∧ t.hregs = s.hregs ∧ t.hx = s.hx ∧
      (∀ off, off ≠ Reg.MEM_BCH_CFG_DDR_T.off → t.word .vta off = Reg.resetWord .vta off) ∧
      (powerUp = false → t.rd .vta Reg.MEM_BCH_CFG_DDR_T = s.rd .vta Reg.MEM_BCH_CFG_DDR_T))

/-- The start-up of an HTU out of reset (R62, R63): the steps reached are those before the one that fails, and BOOT_FAIL names it; a start
without a failure takes control of the outputs and opens mailbox 0; an unsigned patch, or one older than PATCH_SVN, fails step 5 (R109).
The start-up of a VTA out of reset (R428): with its reference and below its trip temperature it reaches the steps before the one that
fails; a start without a failure opens the recorder, the DDR5 and mailboxes 0 to 7; a patch that does not pass fails step 7 (R109). A held unit
does not start. -/
def Obligations.StartsReachTheirSteps : Prop :=
  (
    ∀ (b : BootRun) (s : State), s.h.inReset = true → ∃ t : State, exec (.htuStart b) s = .next t ∧ t.h.inReset = false ∧
      t.rd .htu Reg.HTU_STATUS_FUSES = 1 ∧
      (b.fail = 3 → t.rd .htu Reg.HTU_STATUS_BOOT_FAIL = 3 ∧ t.rd .htu Reg.HTU_STATUS_MEM_INIT = s.rd .htu Reg.HTU_STATUS_MEM_INIT) ∧
      (b.fail ≠ 3 → t.rd .htu Reg.HTU_STATUS_MEM_INIT = 1) ∧
      (b.fail = 1 ∨ b.fail = 2 → t.rd .htu Reg.HTU_STATUS_BOOT_FAIL = b.fail ∧
        t.rd .htu Reg.HTU_STATUS_GORSE_UP = s.rd .htu Reg.HTU_STATUS_GORSE_UP) ∧
      (b.fail = 4 → t.rd .htu Reg.HTU_STATUS_GORSE_UP = 1 ∧ t.rd .htu Reg.HTU_STATUS_BOOT_FAIL = 4 ∧
        t.rd .htu Reg.HTU_STATUS_RECORDER_OPEN = s.rd .htu Reg.HTU_STATUS_RECORDER_OPEN) ∧
      (b.fail = 5 ∨ (b.fail = 0 ∧ t.patchesOk .htu b = false) → t.rd .htu Reg.HTU_STATUS_RECORDER_OPEN = 1 ∧ t.rd .htu Reg.HTU_STATUS_BOOT_FAIL = 5 ∧
        t.rd .htu (Reg.MBX_STATUS_OPEN 0) = 1 ∧ t.rd .htu Reg.HTU_STATUS_BOUNDARY_LIVE = s.rd .htu Reg.HTU_STATUS_BOUNDARY_LIVE) ∧
      (b.fail = 0 → t.patchesOk .htu b = true → t.rd .htu Reg.HTU_STATUS_GORSE_UP = 1 ∧ t.rd .htu Reg.HTU_STATUS_RECORDER_OPEN = 1 ∧
        t.rd .htu Reg.HTU_STATUS_BOUNDARY_LIVE = 1 ∧ t.rd .htu (Reg.MBX_STATUS_OPEN 0) = 1 ∧ t.rd .htu (Reg.MBX_NEXT_SEQ_SEQ 0) = 0)) ∧
  (
    ∀ (b : BootRun) (s : State), s.v.inReset = true →
      (s.vx.refHeld = true ∨ s.vx.thermTrip = true → exec (.vtaStart b) s = .next s) ∧
      (s.vx.refHeld = false → s.vx.thermTrip = false → ∃ t : State, exec (.vtaStart b) s = .next t ∧ t.v.inReset = false ∧
        t.rd .vta Reg.VTA_STATUS_FUSES = 1 ∧
        (b.fail = 6 → t.rd .vta Reg.VTA_STATUS_BOOT_FAIL = 6) ∧ (b.fail = 3 → t.rd .vta Reg.VTA_STATUS_BOOT_FAIL = 3) ∧
        (b.fail = 0 → t.patchesOk .vta b = true → t.rd .vta Reg.VTA_STATUS_REF_LOCK = 1 ∧ t.rd .vta Reg.VTA_STATUS_MEM_INIT = 1 ∧ t.rd .vta Reg.VTA_STATUS_GORSE_UP = 1 ∧
          t.rd .vta Reg.VTA_STATUS_RECORDER_OPEN = 1 ∧ t.rd .vta Reg.VTA_STATUS_PCIE_OPEN = 1 ∧ t.rd .vta Reg.VTA_STATUS_DDR_READY = 1 ∧
          t.vx.pcieUp = true ∧ ∀ m < 8, t.rd .vta (Reg.MBX_STATUS_OPEN m) = 1 ∧ t.rd .vta (Reg.MBX_NEXT_SEQ_SEQ m) = 0) ∧
        (b.fail = 7 → t.patchesOk .vta b = true → t.rd .vta Reg.VTA_STATUS_BOOT_FAIL = 7 ∧ t.rd .vta Reg.VTA_STATUS_PCIE_OPEN = 1) ∧
        (b.fail = 5 ∨ (b.fail = 0 ∧ t.patchesOk .vta b = false) →
          t.rd .vta Reg.VTA_STATUS_BOOT_FAIL = 5 ∧ t.rd .vta Reg.VTA_STATUS_PCIE_OPEN = 1)))

/-- A Bracken fault or a missed watchdog (R105): the mailbox's commands reply ABORTED, its armed collectors go FAULTED, and the image runs again
only if this is its first fault of the power cycle; after a second one it does not start again until a reset. An image that does not run
has nothing to fault. -/
def Obligations.BrackenFaultsOnce : Prop :=
  ∀ (u : UnitId) (g : Nat) (s : State), g < brackenCount u → (s.dev u).inReset = false → s.gorseUp u = true →
    exec (.brackenWatchdog u g) s = exec (.brackenFault u g) s ∧
    ((s.brk u g).running = false → exec (.brackenFault u g) s = .next ((Prog.settle u).run s)) ∧
    ((s.brk u g).running = true → exec (.brackenFault u g) s = .next ((Prog.settle u).run
      ((Prog.modBrk u g fun b => { b with running := b.faults == 0, faults := b.faults + 1 }).run
        ((Prog.each ((s.dev u).colls.filter fun e => e.2.mbx == brackenMbx u && !e.2.gorse) fun e => .faultColl u e.1).run ((Prog.abortMbx u (brackenMbx u)).run s))))) ∧
    (∀ b : BootRun, 2 ≤ (s.brk u g).faults → ((Prog.startBrackens u b).run s).brk u g = s.brk u g) ∧
    ∀ powerUp, (Dev.afterReset powerUp (s.dev u)).brks = []

/-- A lockstep mismatch (R106): the Gorse pair is down, its registers say so and every mailbox is closed with its commands dropped; the
third of a power cycle stops the pair with BOOT_FAIL 0x01. A pair that is down has no mismatch. That a policy assembly ends with it is the
model's choice (log 24). -/
def Obligations.LockstepMismatchStopsGorse : Prop :=
  ∀ (u : UnitId) (s : State), (s.dev u).inReset = false →
    (s.gorseUp u = false → exec (.lockstepMismatch u) s = .next s) ∧
    (s.gorseUp u = true → ∃ t : State, exec (.lockstepMismatch u) s = .next t ∧ t.gorseUp u = false ∧ t.recorderOpen u = false ∧
      t.policy u = false ∧ t.rd u Reg.SEC_STATE_MISMATCHES = (s.rd u Reg.SEC_STATE_MISMATCHES + 1) % 256 ∧
      t.rd u Reg.SEC_STATE_RSK_READY = 0 ∧ (∀ m < mbxCount u, t.rd u (Reg.MBX_STATUS_OPEN m) = 0 ∧ (t.mb u m).outst = [] ∧
        (t.mb u m).held = [] ∧ (t.mb u m).words = [] ∧ (t.mb u m).bound = false) ∧ (t.dev u).pol.asm = none ∧ (t.dev u).evr.retLock = true ∧
      (s.rd u Reg.SEC_STATE_MISMATCHES + 1 = 3 → t.bootFail u = 1) ∧
      (s.rd u Reg.SEC_STATE_MISMATCHES + 1 ≠ 3 → t.bootFail u = s.bootFail u) ∧ t.ddr = s.ddr ∧ t.entity = s.entity)

/-- SPDM timeouts (R113, R114): a session whose heartbeat stops is unbound; a request without a response is sent again, at most three times,
then abandoned, and started again. The heartbeat period and what a message says are open constants of the model (log 30).
A command of an HTU towards its VTA (R114): only ATTEST and LEASE_RENEW with role PEER are served, everything else is DENIED; the answer
leaves on VC1. -/
def Obligations.SpdmSessionsAndPeers : Prop :=
  (
    (∀ (m : Nat) (s : State), m < 10 → s.v.inReset = false → s.gorseUp .vta = true →
      exec (.spdmHeartbeatTimeout m) s = .next (if (s.mb .vta m).bound = true ∧ s.beatLost m = true then (Prog.unbind .vta m).run s else s)) ∧
    ∀ (u : UnitId) (c : Nat) (s : State), (s.dev u).inReset = false → s.gorseUp u = true →
      (s.spdmAt u c = none → exec (.spdmRetryTimeout u c) s = .next (if u = .vta ∧ 64 ≤ c then (Prog.spdmGo u c 0).run s else s)) ∧
      ∀ step tries n, s.spdmAt u c = some (step, tries, n) →
        (spdmLast c ≤ step → exec (.spdmRetryTimeout u c) s = .next s) ∧
        (step < spdmLast c → tries < 3 → exec (.spdmRetryTimeout u c) s = .next ((Prog.spdmAgain u c step n).run
          (s.modDev u fun d => { d with spdm := Sparse.put d.spdm c (step, tries + 1, n) }))) ∧
        (step < spdmLast c → tries = 3 → exec (.spdmRetryTimeout u c) s = .next
          (s.modDev u fun d => { d with spdm := Sparse.put d.spdm c (0, 4, n) })) ∧
        (step < spdmLast c → 3 < tries → exec (.spdmRetryTimeout u c) s = .next ((Prog.spdmGo u c 0).run s))) ∧
  (
    ∀ (k : Nat) (opcode : BitVec 8) (p : Packet) (s : State), k < 64 → s.v.inReset = false → s.gorseUp .vta = true →
      let post (a : Ans) (t : State) := (Prog.sendPkt .vta k 1 (replyBytes opcode.toNat p.tag a)).run t
      (p.roleN ≠ rolePeer → exec (.peerAttest k opcode p) s = .next (post { status := stDenied } s)) ∧
      (p.roleN = rolePeer → opcode ≠ 0x80 → opcode ≠ 0x92 → exec (.peerAttest k opcode p) s = .next (post { status := stDenied } s)) ∧
      (p.roleN = rolePeer → opcode = 0x80 → fieldAt p.params 1 1 ≠ spdmChallenge →
        exec (.peerAttest k opcode p) s = .next (post { status := stOk
                                                        result := (s.spdmAnswer .vta s.v.spdmNo p.params).length
                                                        data := s.spdmAnswer .vta s.v.spdmNo p.params }
          (s.modDev .vta fun d => { d with spdmNo := d.spdmNo + 1 }))) ∧
      (p.roleN = rolePeer → opcode = 0x92 → opLeaseRenew.check s .vta 9 p = none → exec (.peerAttest k opcode p) s =
        .next ((Prog.leaseVta p fun a => .sendPkt .vta k 1 (replyBytes opcode.toNat p.tag a)).run s)))

/-- A DRAINING function whose work is done is STOPPED, its stream's open segment closes (R125), and its stop command replies OK (R91); one with work left, and one that does not
drain, are left alone. Here the functions other than the trace and the ports. -/
def Obligations.DrainedFunctionsStop : Prop :=
  ∀ (u : UnitId) (fid : Nat) (s : State), (s.dev u).inReset = false →
    ((s.fn u fid).st ≠ .draining ∨ s.workDone u fid = false → exec (.functionDrained u fid) s = .next ((Prog.settle u).run s)) ∧
    ((s.fn u fid).st = .draining → s.workDone u fid = true → fid / 4096 ≠ 4 → fid / 4096 ≠ 6 →
      exec (.functionDrained u fid) s = .next ((Prog.settle u).run ((Prog.drained u fid 0).run s))) ∧
    (fid / 4096 ≠ 1 → fid / 4096 ≠ 3 → (Prog.drained u fid 0).run s = (Prog.answer u (s.fn u fid).stopper { status := stOk }).run
      ((Prog.cond (u == .htu && fid == fidPower)
          (.both (.each groups fun g => .wr .htu (Reg.PWR_GRP_CAP_IDX g) 15) .sequence)).run
        ((Prog.opt (s.fnStream u fid) fun sid => .both (.flushLoss u sid) (.closeChain u sid)).run
          ((Prog.setFn u fid fun f => { f with st := .stopped, stopper := none, disarm := false }).run s)))) ∧
    ((s.fn u fid).st ≠ .draining ∨ (s.fn u fid).limit = 0 → exec (.drainLimitExpiry u fid) s = .next ((Prog.settle u).run s)) ∧
    ((s.fn u fid).st = .draining → (s.fn u fid).limit ≠ 0 → s.workDone u fid = true →
      exec (.drainLimitExpiry u fid) s = exec (.functionDrained u fid) s) ∧
    ((s.fn u fid).st = .draining → (s.fn u fid).limit ≠ 0 → s.workDone u fid = false → fid / 4096 = 1 →
      exec (.drainLimitExpiry u fid) s = .next ((Prog.settle u).run ((Prog.discardColl u (fid % 4096) (.drained u fid)).run s)))

/-- The VTA's reference (R153, R425): its loss shows in VTA_CLK and stops the time source; ten milliseconds later the unit is held in reset
with ALERT_N asserted; its return ends either.
PERST_N and the PCIe link (R427, R432): a link that goes down empties and closes mailboxes 0 to 7, discards the replies of the commands
outstanding on them, ends their sessions, and clears PCIE_OPEN; it leaves mailboxes 8 and 9. A link that comes up opens the
eight again where the unit has started that far. -/
def Obligations.ReferenceAndPcieEvents : Prop :=
  (
    ∀ s : State,
      (s.v.inReset = false → s.on .vta Reg.VTA_CLK_REF_LOST = true → exec .referenceLoss s = .next s) ∧
      (s.v.inReset = false → s.on .vta Reg.VTA_CLK_REF_LOST = false → ∃ t : State, exec .referenceLoss s = .next t ∧
        t.rd .vta Reg.VTA_CLK_REF_LOST = 1 ∧ t.rd .vta Reg.VTA_CLK_PLL_RDY % 2 = 0 ∧ t.rd .vta Reg.TIM_STATUS_PLL_A_RDY = 0 ∧
        t.hregs = s.hregs ∧ t.h = s.h ∧ t.hx = s.hx ∧ t.ddr = s.ddr) ∧
      (s.v.inReset = false → s.on .vta Reg.VTA_CLK_REF_LOST = false → exec .refLost s = .next s) ∧
      (s.v.inReset = false → s.on .vta Reg.VTA_CLK_REF_LOST = true → ∃ t : State, exec .refLost s = .next t ∧ t.v.inReset = true ∧
        t.vx.refHeld = true ∧ t.vx.alert = true ∧ t.vx.selfRef = s.on .vta Reg.VTA_STATUS_DDR_READY ∧ t.ddr = s.ddr ∧ t.entity = [] ∧
        t.hregs = s.hregs ∧ t.h = s.h ∧ t.hx = s.hx) ∧
      (s.vx.refHeld = true → exec .referenceReturn s = .next { s with vx := { s.vx with refHeld := false, alert := false } }) ∧
      (s.vx.refHeld = false → s.v.inReset = false → s.on .vta Reg.VTA_CLK_REF_LOST = true → ∃ t : State,
        exec .referenceReturn s = .next t ∧ t.rd .vta Reg.VTA_CLK_REF_LOST = 0 ∧ t.rd .vta Reg.VTA_CLK_PLL_RDY % 2 = 1 ∧
        t.rd .vta Reg.TIM_STATUS_PLL_A_RDY = 1)) ∧
  (
    ∀ s : State, s.v.inReset = false →
      exec .perst s = exec .pcieLinkDown s ∧
      (∃ t : State, exec .pcieLinkDown s = .next t ∧ t.vx = { s.vx with pcieUp := false } ∧ t.on .vta Reg.VTA_STATUS_PCIE_OPEN = false ∧
        (∀ m < 8, t.rd .vta (Reg.MBX_STATUS_OPEN m) = 0 ∧ (t.mb .vta m).waiting = [] ∧ (t.mb .vta m).replies = [] ∧ (t.mb .vta m).words = [] ∧
          (t.mb .vta m).bound = false ∧ (t.mb .vta m).outst = (s.mb .vta m).outst.map fun o => { o with discard := true }) ∧
        (∀ m, 8 ≤ m → t.mb .vta m = s.mb .vta m) ∧ t.ddr = s.ddr ∧ t.entity = s.entity ∧ t.h = s.h ∧ t.hregs = s.hregs) ∧
      (∃ t : State, exec .pcieLinkUp s = .next t ∧ t.vx.pcieUp = true ∧ t.ddr = s.ddr ∧ t.h = s.h ∧ t.hregs = s.hregs ∧
        (s.gorseUp .vta = true → s.recorderOpen .vta = true → s.on .vta Reg.SEC_STATE_UDS_LOCK = true →
          s.rd .vta Reg.VTA_STATUS_BOOT_FAIL = 0 → t.on .vta Reg.VTA_STATUS_PCIE_OPEN = true ∧
            ∀ m < 8, t.rd .vta (Reg.MBX_STATUS_OPEN m) = 1 ∧ t.rd .vta (Reg.MBX_NEXT_SEQ_SEQ m) = 0)))

/-- Temperatures of the VTA (R433, R442): TJ_MAX takes the hottest code; throttling starts at 656, service stops at 696 and both end below
636; at 736 the unit trips into reset. DDR5 refresh doubles above 85 °C.
A gate-control list entry (R436): the gates of the uplink take the entry's states, and the records that they admit leave; a list that
closes TC6 or TC7, has more than 16 entries, or whose base time is to come, is not in force. -/
def Obligations.TemperaturesAndGates : Prop :=
  (
    ∀ s : State, s.v.inReset = false →
      (∀ codes : List (BitVec 10), ∃ t : State, exec (.thermalSample codes) s = .next t ∧
        (let hot := codes.foldl (fun n c => max n c.toNat) 0
        t.rd .vta Reg.VTA_THERM_TJ_MAX = hot ∧
        (656 ≤ hot → t.on .vta Reg.VTA_THERM_THROTTLE = true) ∧
        (656 ≤ hot → s.on .vta Reg.VTA_THERM_THROTTLE = false →
          t.rd .vta Reg.VTA_THERM_EVENTS = min 255 (s.rd .vta Reg.VTA_THERM_EVENTS + 1)) ∧
        (696 ≤ hot → t.on .vta Reg.VTA_THERM_STOPPED = true) ∧
        (hot < 636 → t.on .vta Reg.VTA_THERM_THROTTLE = false ∧ t.on .vta Reg.VTA_THERM_STOPPED = false) ∧
        (636 ≤ hot → hot < 656 → t.on .vta Reg.VTA_THERM_THROTTLE = s.on .vta Reg.VTA_THERM_THROTTLE) ∧
        (636 ≤ hot → hot < 696 → t.on .vta Reg.VTA_THERM_STOPPED = s.on .vta Reg.VTA_THERM_STOPPED) ∧
        (t.vx.thermTrip = true ∧ t.v.inReset = true ↔ 736 ≤ hot ∨ (s.vx.thermTrip = true ∧ t.v.inReset = true)) ∧
        t.hregs = s.hregs ∧ t.ddr = s.ddr ∧ t.entity = s.entity)) ∧
      ∀ c : Int, exec (.deviceTemperature c) s = .next { s with vx := { s.vx with refresh2 := decide (85 < c) } }) ∧
  (
    ∀ (k entry : Nat) (s : State), k < 2 → s.v.inReset = false →
      (∀ b l q, s.polBody .vta = some b → (b.qbv.find? fun e => e.1 == k && qbvOk e.2 && e.2.base ≤ s.ns .vta) = some (k, l) →
        l.entries[entry]? = some q →
        exec (.controlListEntry k entry) s =
          .next (Prog.uplink.run { s with vx := { s.vx with qbvNow := Sparse.put s.vx.qbvNow k q.gates } })) ∧
      (s.polBody .vta = none → exec (.controlListEntry k entry) s = .next s))

/-- A memory error (R404, R405): it is counted and its address kept, one record names it, and the place is marked weak or bad; a patrol logs its errors
one by one and rewrites nothing. An error that only the patrol found touches no reader.
What an uncorrectable word does to its reader (R405): Gorse stops, Bracken traps, a command answers MEDIA_ERROR with the address, a register read
returns all ones, Sentinel's step contexts fault it, and a partial of an HTU is marked (log 137). -/
def Obligations.MemoryErrorsReachTheirReaders : Prop :=
  (
    ∀ (u : UnitId) (r off bits : Nat) (s : State), inRegion u r off = true → (s.dev u).inReset = false →
      (exec (.memCe u r off bits) s = .next (((Prog.event u 0x0601
          (memPayload r (if (r = 5 ∨ r = 11) ∧ s.bchT u r < 2 * bits then 1 else 0) bits off)).run
            ((s.wr u (Reg.MEM_REGION_CE r) (satAdd (Reg.MEM_REGION_CE r).width (s.rd u (Reg.MEM_REGION_CE r)) 1)).wr u
              (Reg.MEM_REGION_LAST_CE r) off)).modDev u fun d =>
        { d with weak := d.weak.filter (· != (r, granuleOf u r off)) ++ [(r, granuleOf u r off)] })) ∧
      (∀ reader, exec (.memUe u r off bits reader) s = .next ((Prog.settle u).run ((Prog.memReader u off reader).run
        (((Prog.event u 0x0602 (memPayload r 0 bits off)).run
            ((s.wr u (Reg.MEM_REGION_UE r) (satAdd (Reg.MEM_REGION_UE r).width (s.rd u (Reg.MEM_REGION_UE r)) 1)).wr u
              (Reg.MEM_REGION_LAST_UE r) off)).modDev u fun d =>
          { d with bad := d.bad.filter (· != (r, granuleOf u r off)) ++ [(r, granuleOf u r off)] })))) ∧
      (∀ t : State, (Prog.memReader u off .patrol).run t = t) ∧
      exec (.patrol u r [(off, bits)] []) s = (match exec (.memCe u r off bits) s with
        | .next t => .next ((Prog.settle u).run t)
        | o => o) ∧
      exec (.patrol u r [] [(off, bits)]) s = exec (.memUe u r off bits .patrol) s) ∧
  (
    ∀ (u : UnitId) (off : Nat) (s : State),
      (Prog.memReader u off .gorse).run s = (Prog.lockstep u).run s ∧
      (∀ g, (Prog.memReader u off (.brackenFetch g)).run s = (Prog.brackenTrap u g).run s) ∧
      (∀ m tag, (Prog.memReader u off (.command m tag)).run s =
        (Prog.reply u m (BitVec.ofNat 16 tag) { status := stMedia, detail := off }).run s) ∧
      (Prog.memReader u off .register).run s = s.modDev u (fun d => { d with bus := BitVec.allOnes 64 }) ∧
      ((s.fn .htu fidSentinel).st = .running ∨ (s.fn .htu fidSentinel).st = .draining → (Prog.memReader .htu off .stepContext).run s =
        (Prog.faultFn .htu fidSentinel).run (Prog.sntFaulted.run s)) ∧
      (∀ l k ep, (Prog.memReader .htu off (.mergeBuffer l k ep)).run s = (Prog.partialMedia k ep).run s))

/-- The folding of event records (R415): the first event of its kind is committed; a repeat within a second opens a slot while fewer than 16 stand; a
repeat of an open slot only counts there; a slot that has been quiet for more than a second commits its copy and closes first. -/
def Obligations.EventsAreFolded : Prop :=
  ∀ (u : UnitId) (typ : Nat) (pl : List Byte) (s₀ : State),
    let stale (f : Fold) : Bool := f.first.same typ pl && decide (f.tick + ticksPerS < (s₀.dev u).ticks)
    let s : State := match (s₀.dev u).evr.slots.find? stale with
      | some f => ((Prog.commitEv u f.copy).run s₀).modDev u fun d =>
        { d with evr := { d.evr with slots := d.evr.slots.filter fun g => !g.first.same typ pl } }
      | none => s₀
    let v := (s.dev u).evr
    let now := (s.dev u).ticks
    let latestT := if s.timev u then s.ns u else 0
    (v.slots.any (fun f => f.first.same typ pl) = true → (Prog.event u typ pl).run s₀ = s.modDev u fun d => { d with evr := { d.evr with
      slots := d.evr.slots.map fun f => if f.first.same typ pl then
        { f with latest := pl, latestT := latestT, tick := now, count := f.count + 1 } else f } }) ∧
    (v.slots.any (fun f => f.first.same typ pl) = false →
      (∀ first t0, v.recent.find? (fun r => r.1.same typ pl && decide (now ≤ r.2 + ticksPerS)) = some (first, t0) → v.slots.length < 16 →
        (Prog.event u typ pl).run s₀ = s.modDev u fun d => { d with evr := { d.evr with
          slots := d.evr.slots ++ [{ first, latest := pl, latestT := latestT, tick := now, count := 1 }]
          recent := d.evr.recent.filter fun r => !r.1.same typ pl } }) ∧
      (v.recent.find? (fun r => r.1.same typ pl && decide (now ≤ r.2 + ticksPerS)) = none →
        (Prog.event u typ pl).run s₀ = ((Prog.commitEv u (s.newEvent u typ pl)).run s).modDev u fun d => { d with evr := { d.evr with
          recent := (d.evr.recent.filter fun r => !r.1.same typ pl && decide (now ≤ r.2 + ticksPerS))
            ++ [(s.newEvent u typ pl, now)] } }))

/-- FOLD_CLOSE, FOLD_COMMIT, PAGE_CLOSE and JOURNAL_ENTRY (R415, R416, R418): a quiet slot commits its copy and closes, a busy one commits and stays;
an open recorder with program credit and no brownout hold programs its page; the journal keeps HOURS.
A record committed to the recorder (R416): where it fits, it joins the staging buffer behind a LOSS-OF-RECORDS entry for records dropped before, and
a copy of at most 256 bytes joins the first area until that holds 4,096; where it does not fit it is dropped and counted, for a key record at 64 KiB
and for any other at 60 KiB. -/
def Obligations.RecorderKeepsItsRecords : Prop :=
  (
    ∀ (u : UnitId) (s : State), (s.dev u).inReset = false →
      (∀ i < 16, ∀ f, (s.dev u).evr.slots[i]? = some f →
        (f.tick + ticksPerS ≤ (s.dev u).ticks → exec (.foldClose u i) s = .next (((Prog.commitEv u f.copy).run s).modDev u fun d =>
          { d with evr := { d.evr with slots := d.evr.slots.eraseIdx i } })) ∧
        ((s.dev u).ticks < f.tick + ticksPerS → exec (.foldClose u i) s = .next s) ∧
        exec (.foldCommit u i) s = .next ((Prog.commitEv u f.copy).run s)) ∧
      (∀ i < 16, (s.dev u).evr.slots[i]? = none → exec (.foldClose u i) s = .next s ∧ exec (.foldCommit u i) s = .next s) ∧
      exec (.pageClose u) s = .next ((Prog.programPage u).run s) ∧
      (s.recorderOpen u = true → s.on u Reg.PWR_STATUS_HOLD = false → (s.dev u).evr.staged ≠ [] → s.on u Reg.EVR_STATUS_BUCKET = true →
        (Prog.refill u).run s = s → (Prog.programPage u).run s =
          (s.wr u Reg.EVR_STATUS_BUCKET (s.rd u Reg.EVR_STATUS_BUCKET - 1)).modDev u (Dev.programOpen u)) ∧
      (∀ d : Dev, d.evr.staged ≠ [] → Dev.programOpen u d = { d with
        evr := d.evr.programOpen u, bad := d.bad.filter (· != (5, 4096 * pageSector u d.evr.nextSeq)) }) ∧
      exec (.journalEntry u) s = .next (s.modDev u fun d => { d with evr := { d.evr with jHours := s.hours u } })) ∧
  (
    ∀ (v : Evr) (e : EvRec), v.dropped = 0 →
      (v.stagedBytes + e.size ≤ (if e.keyType then 65536 else 61440) →
        v.commit e = { v with staged := v.staged ++ [e], firstArea := (v.firstArea ++ [e.cut256]).take 4096 }) ∧
      ((if e.keyType then 65536 else 61440) < v.stagedBytes + e.size → v.commit e = { v with dropped := 1 }) ∧
      (16 + (if e.ext.isSome then 16 else 0) ≤ 256 → e.cut256.size ≤ 256))

/-- Silent and Fallow stations (R45, R48, R174): a station that is not SILENT writes a heartbeat into an empty FIFO, which the hedge network
takes unless the station is stalled (its busy cycles are a free value, log 134); ten microseconds of silence
make an ACTIVE station that is not in Fallow SILENT, and words make it ACTIVE again and bring what its FIFO holds; a rail that falls puts the station in Fallow, ends its lane's tiles UNCHECKED (R38, R230),
and one that returns adds the interval (in ticks of 0.8 ns, rounded down, without time: log 125). What the lane's generator holds after Fallow is a free value (log 6). -/
def Obligations.StationsFallSilentAndFallow : Prop :=
  ∀ (p : Nat) (s : State), p < 272 → s.h.inReset = false →
    let n := s.rd .htu (Reg.TAP_PHYS_LOGICAL p)
    (s.rd .htu (Reg.TAP_PHYS_STATE p) = phSilent ∨ (s.station p).out ≠ [] → exec (.heartbeat p) s = .next s) ∧
    (s.rd .htu (Reg.TAP_PHYS_STATE p) ≠ phSilent → (s.station p).out = [] → ∃ t : State, exec (.heartbeat p) s = .next t ∧ t.h = s.h ∧
      (t.station p).out = (if (s.station p).stalled then [.heartbeat] else []) ∧
      ((s.station p).stalled = false → t.rd .htu (Reg.TAP_DIE_CNT_COUNT 7)
        = (s.rd .htu (Reg.TAP_DIE_CNT_COUNT 7) + Config.freeNat s.free) % 2 ^ 64) ∧
      (∀ off, off ≠ (Reg.TAP_DIE_CNT_COUNT 7).off ∨ (s.station p).stalled = true → t.word .htu off = s.word .htu off) ∧
      ∀ q, q ≠ p → t.station q = s.station q) ∧
    (s.rd .htu (Reg.TAP_PHYS_STATE p) ≠ phActive ∨ (s.station p).fallow = true → exec (.clusterSilent p) s = .next s) ∧
    (s.rd .htu (Reg.TAP_PHYS_STATE p) = phActive → (s.station p).fallow = false → ∃ t : State, exec (.clusterSilent p) s = .next t ∧
      t.rd .htu (Reg.TAP_PHYS_STATE p) = phSilent ∧ t.rd .htu (Reg.TAP_PHYS_LOGICAL p) = n ∧ (t.station p).stalled = true ∧
      t.rd .htu (Reg.TAP_CLU_FALLOW_SILENT n) = (s.rd .htu (Reg.TAP_CLU_FALLOW_SILENT n) + 1) % 2 ^ 32 ∧
      t.rd .htu (Reg.TAP_CLU_STATE_ABSENT n) = (t.absent n).toNat ∧
      ∀ off, off ≠ 0xa0000 + 8 * p → off ≠ 0x10800 + 8 * n → off ≠ 0x11008 + 16 * n → off ≠ Reg.EVR_STATUS_BUCKET.off →
        t.word .htu off = s.word .htu off) ∧
    (s.rd .htu (Reg.TAP_PHYS_STATE p) ≠ phSilent → exec (.clusterResumed p) s = .next s) ∧
    (s.rd .htu (Reg.TAP_PHYS_STATE p) = phSilent → exec (.clusterResumed p) s = .next
      ((Prog.event .htu 0x0A02 (s.silentPayload p)).run ((Prog.showAbsent n).run ((Prog.takeWords p).run
        ((Prog.modStation p fun t => { t with stalled := false, inq := [] }).run (s.wr .htu (Reg.TAP_PHYS_STATE p) phActive)))))) ∧
    (s.rd .htu (Reg.TAP_PHYS_STATE p) = phSilent → (s.station p).out = [] → ∃ t : State, exec (.clusterResumed p) s = .next t ∧
      t.rd .htu (Reg.TAP_PHYS_STATE p) = phActive ∧ (t.station p).stalled = false ∧ (t.station p).out = [] ∧
      t.rd .htu (Reg.TAP_CLU_STATE_ABSENT n) = (t.absent n).toNat ∧
      ∀ off, off ≠ 0xa0000 + 8 * p → off ≠ 0x10800 + 8 * n → off ≠ Reg.EVR_STATUS_BUCKET.off → t.word .htu off = s.word .htu off) ∧
    ((s.station p).fallow = true → exec (.fallowEntry p) s = .next s) ∧
    ((s.station p).fallow = false → ∃ t : State, exec (.fallowEntry p) s = .next t ∧ (t.station p).fallow = true ∧
      (t.station p).oldSlices = (s.station p).slices ∧ (t.lane p).tiles = [] ∧
      (t.lane p).out.length = (s.lane p).out.length + (if (s.lane p).given then (s.lane p).tiles.drop 1 else (s.lane p).tiles).length ∧
      (s.serves p = true → t.rd .htu (Reg.TAP_CLU_STATE_FALLOW n) = 1 ∧
        t.rd .htu (Reg.TAP_CLU_FALLOW_ENTRIES n) = (s.rd .htu (Reg.TAP_CLU_FALLOW_ENTRIES n) + 1) % 2 ^ 32)) ∧
    ((s.station p).fallow = false → exec (.fallowExit p) s = .next s) ∧
    ((s.station p).fallow = true → ∃ t : State, exec (.fallowExit p) s = .next t ∧ (t.station p).fallow = false ∧
      (s.serves p = true → t.rd .htu (Reg.TAP_CLU_STATE_FALLOW n) = 0 ∧ t.rd .htu (Reg.TAP_CLU_FALLOW_FALLOW_NS n)
        = (s.rd .htu (Reg.TAP_CLU_FALLOW_FALLOW_NS n) + (if (s.station p).fallowV = true ∧ s.timev .htu = true
            then s.ns .htu - (s.station p).fallowT else (s.h.ticks - (s.station p).fallowTick) * 4 / 5)) % 2 ^ 64))

/-- One cluster-clock edge, a command boundary, the background scan and an ID word (R165, R166, R169, R171, R172): each slice counts by one where
its event occurs; a boundary ends the counts of a command and gives the next its ID; the scan carries a slice's advance since the last
reading into its accumulator; a trace word goes to the recorder, or waits in the FIFO of a stalled station while it has four free entries. -/
def Obligations.SlicesCountEdges : Prop :=
  ∀ (p : Nat) (s : State), p < 272 → s.h.inReset = false →
    let n := s.rd .htu (Reg.TAP_PHYS_LOGICAL p)
    let st := s.station p
    (∀ e : EdgeIn, st.fallow = true → exec (.clusterClockEdge p e) s = .next s) ∧
    (∀ e : EdgeIn, st.fallow = false → s.serves p = false → ∃ t : State, exec (.clusterClockEdge p e) s = .next t ∧
      t.hregs = s.hregs ∧ t.h = s.h ∧ t.station p = { st with prev := e.tap }) ∧
    (∀ e : EdgeIn, st.fallow = false → s.serves p = true → ∃ t : State, exec (.clusterClockEdge p e) s = .next t ∧
      t.hregs = s.hregs ∧ t.h = s.h ∧ (t.station p).oldSlices = st.slices ∧ (t.station p).prev = e.tap ∧
      (∀ sl < 16, Sparse.get 0 (t.station p).slices sl = Sparse.get 0 st.slices sl
        + (if eventCounts (s.rd .htu (Reg.TAP_SLICE_CFG_EVENT n sl)) e st.prev false st.fresh then 1 else 0)) ∧
      (∀ q, q ≠ p → t.station q = s.station q) ∧
      (e.op = none → e.res = none → t.hx.lanes = s.hx.lanes) ∧
      ∀ o y, e.op = some o → e.res = none → (s.lane p).tiles = [y] → (s.lane p).taking = true → (t.lane p).tiles = [y.operand o]) ∧
    (s.on .htu Reg.TAP_CMD_CFG_CMD_EN = false ∨ s.serves p = false ∨ st.fallow = true → exec (.commandBoundary p) s = .next s) ∧
    (s.on .htu Reg.TAP_CMD_CFG_CMD_EN = true → s.serves p = true → st.fallow = false → ∃ t : State,
      exec (.commandBoundary p) s = .next t ∧ t.h = s.h ∧
      t.rd .htu (Reg.TAP_CLU_STATE_CMD_ID n) = (if s.on .htu Reg.TAP_CMD_CFG_ID_SRC then st.idWord.toNat
        else s.rd .htu (Reg.TAP_CLU_STATE_CMD_ID n) + 1) % 2 ^ 32 ∧
      t.station p = { st with oldCmds := st.cmds, cmds := [], fresh := true
                              oldId := BitVec.ofNat 32 (s.rd .htu (Reg.TAP_CLU_STATE_CMD_ID n)) } ∧
      ∀ off, off ≠ 0x10800 + 8 * n → t.word .htu off = s.word .htu off) ∧
    (∀ sl < 16,
      (s.rd .htu (Reg.TAP_PHYS_STATE p) ≠ phActive → exec (.backgroundScan p sl) s = .next s) ∧
      (s.rd .htu (Reg.TAP_PHYS_STATE p) = phActive → ∃ t : State, exec (.backgroundScan p sl) s = .next t ∧
        t.rd .htu (Reg.TAP_ACC_ACC n sl) = (s.rd .htu (Reg.TAP_ACC_ACC n sl)
          + (Sparse.get 0 st.oldSlices sl - Sparse.get 0 s.hx.last (16 * n + sl)).toNat) % 2 ^ 64 ∧
        Sparse.get 0 t.hx.last (16 * n + sl) = Sparse.get 0 st.oldSlices sl ∧ t.hx.stations = s.hx.stations ∧
        ∀ off, off ≠ 0x18000 + 128 * n + 8 * sl → off ≠ (Reg.TAP_DIE_CNT_COUNT 7).off → t.word .htu off = s.word .htu off)) ∧
    (∀ (tag : BitVec 8) (w : Word), st.fallow = true ∨ s.rd .htu (Reg.TAP_PHYS_STATE p) = phRetired →
      exec (.trcSrcWord p tag w) s = .next s) ∧
    (∀ (tag : BitVec 8) (w : Word), st.fallow = false → s.rd .htu (Reg.TAP_PHYS_STATE p) ≠ phRetired →
      s.serves p = true → s.owner n = s.rd .htu Reg.TRC_STATUS_OWNER →
      let b := (Prog.cond (tag.toNat == s.rd .htu Reg.TAP_CMD_CFG_ID_TAG) (.modStation p fun t => { t with idWord := w.setWidth 32 })).run s
      exec (.trcSrcWord p tag w) s = .next (if 12 < st.out.length then (Prog.loseWord .htu n 1).run b
        else if st.stalled = true then (Prog.modStation p fun t => { t with out := t.out ++ [.trace tag w] }).run b
        else (Prog.traceWord p tag w).run (Prog.hedgeBusy.run b)))

/-- The pending cluster map, a pending partition change, and the estimate of energy (R54, R119, R168, R178, R179): a map that passed its tests
makes each moved cluster's new station ACTIVE; pending clusters take their partition with their partition slices reset; the energies of all
clusters join the die's and their partitions' accumulators once an epoch, the parts below one microjoule kept. -/
def Obligations.EpochWorkOfTheDie : Prop :=
  ∀ s : State, s.h.inReset = false →
    (s.hx.mapNext = none → exec .mapApply s = .next s) ∧
    (∀ m apply, s.hx.mapNext = some (m, apply) →
      (s.timev .htu = false ∨ s.h.gated = true ∨ serialGe 32 (s.epoch .htu) apply = false → exec .mapApply s = .next s) ∧
      (s.timev .htu = true → s.h.gated = false → serialGe 32 (s.epoch .htu) apply = true →
        (∀ n < 256, m.getD n 0 / 17 = n / 16) → (∀ n < 256, ∀ k < 256, m.getD n 0 = m.getD k 0 → n = k) →
        ∃ t : State, exec .mapApply s = .next t ∧ t.rd .htu Reg.TAP_MAP_STATUS_STAT = 2 ∧ t.hx.mapNext = none ∧
          ∀ n < 256, s.physOf n ≠ m.getD n 0 →
            t.rd .htu (Reg.TAP_PHYS_STATE (m.getD n 0)) = phActive ∧ t.rd .htu (Reg.TAP_PHYS_LOGICAL (m.getD n 0)) = n)) ∧
    (s.timev .htu = false ∨ s.h.gated = true ∨ serialGe 32 (s.epoch .htu) (s.rd .htu Reg.SEC_PART_EPOCH_PEND_EPOCH) = false →
      exec .partitionChange s = .next s) ∧
    (s.timev .htu = true → s.h.gated = false → serialGe 32 (s.epoch .htu) (s.rd .htu Reg.SEC_PART_EPOCH_PEND_EPOCH) = true →
      ∃ t : State, exec .partitionChange s = .next t ∧ ∀ n < 256,
        t.rd .htu (Reg.SEC_CLUSTER_PART_PART n) = (if s.on .htu (Reg.SEC_CLUSTER_PART_PEND_VALID n) then
          s.rd .htu (Reg.SEC_CLUSTER_PART_PEND_PART n) else s.owner n) ∧ t.rd .htu (Reg.SEC_CLUSTER_PART_PEND_VALID n) = 0 ∧
        (s.on .htu (Reg.SEC_CLUSTER_PART_PEND_VALID n) = true → ∀ sl, 8 ≤ sl → sl < 16 →
          t.rd .htu (Reg.TAP_SLICE_CFG_EVENT n sl) = 0xFF ∧ t.rd .htu (Reg.TAP_ACC_ACC n sl) = 0)) ∧
    (s.estimateDue = false → exec .energyEstimate s = .next s) ∧
    (s.estimateDue = true → ∃ t : State, exec .energyEstimate s = .next t ∧ t.h = s.h ∧
      (Sparse.get 0 s.hx.fracE 2048 < 10 ^ 9 → t.rd .htu Reg.TAP_EN_DIE_UJ = (s.rd .htu Reg.TAP_EN_DIE_UJ
        + (Sparse.get 0 s.hx.fracE 2048 + ((List.range 256).map s.clusterEnergy).sum) / 10 ^ 9) % 2 ^ 64) ∧
      ∀ q < 256, Sparse.get 0 s.hx.fracE (8 * q + 7) < 10 ^ 9 →
        t.rd .htu (Reg.TAP_EN_PART_UJ q) = (s.rd .htu (Reg.TAP_EN_PART_UJ q) + (Sparse.get 0 s.hx.fracE (8 * q + 7)
          + (((List.range 256).filter fun n => s.owner n == q).map s.clusterEnergy).sum) / 10 ^ 9) % 2 ^ 64)

/-- Captures and arm times (R49, R143, R154, R183, R186): the entries of an instant that is due capture together and reply; without fleet time they
reply DEADLINE_PASSED; a periodic instant captures, joins another capture of its epoch, or is skipped and counted; an arm time sets its collector RUNNING; a sweep writes its
records and replies 80.
A pulse generator's firing (R154, R157, R158): not before its instant; without fleet time its firings are skipped; else a destination that can
act does, FIRED counts it, the first firing answers PULSE_PROGRAM, and the last one leaves the generator idle. -/
def Obligations.InstantsAreActedOn : Prop :=
  (
    ∀ (u : UnitId) (t : Nat) (s : State), (s.dev u).inReset = false →
      let mine := (s.captureEntries u t).filter fun e => match e.kind with
        | .sweep _ => false
        | _ => true
      let pers := (s.dev u).sched.filter fun e => e.t == t && s.due u t && (match e.kind with
        | .periodic _ _ => true
        | _ => false)
      let joins := (s.dev u).sched.any fun e => e.t / 1000 == t / 1000 && e.kind.captures && (match e.kind with
        | .periodic _ _ => false
        | _ => true)
      let sweep := s.h.sched.find? fun e => match e.kind with
        | .sweep _ => true
        | _ => false
      (mine = [] ∨ s.due u t = false → exec (.capture u t) s = .next ((Prog.settle u).run s)) ∧
      (mine ≠ [] → s.due u t = true → s.timev u = true → exec (.capture u t) s = .next ((Prog.settle u).run
        ((Prog.each mine (Prog.captured u t)).run ((Prog.each mine (Prog.unschedule u)).run ((Prog.captureAt u t).run s))))) ∧
      (mine ≠ [] → s.due u t = true → s.timev u = false → exec (.capture u t) s = .next ((Prog.settle u).run
        ((Prog.each mine fun e => .both (.unschedule u e) (.answer u e.cmd { status := stDeadline })).run s))) ∧
      (pers = [] → exec (.periodicCapture u t) s = .next ((Prog.settle u).run s)) ∧
      (pers ≠ [] → s.timev u = false → exec (.periodicCapture u t) s =
        .next ((Prog.settle u).run ((Prog.each pers (Prog.skipPeriod u)).run s))) ∧
      (pers ≠ [] → s.timev u = true → joins = true → exec (.periodicCapture u t) s = .next ((Prog.settle u).run s)) ∧
      (pers ≠ [] → s.timev u = true → joins = false →
        s.past u t = true ∨ s.nearOther u t = true ∨ (s.dev u).taken.any (fun x => x / 1000 == t / 1000) = true →
        exec (.periodicCapture u t) s = .next ((Prog.settle u).run ((Prog.each pers (Prog.skipPeriod u)).run s))) ∧
      (pers ≠ [] → s.timev u = true → joins = false → s.past u t = false → s.nearOther u t = false →
        (s.dev u).taken.any (fun x => x / 1000 == t / 1000) = false →
        exec (.periodicCapture u t) s = .next ((Prog.settle u).run ((Prog.captureAt u t).run s))) ∧
      (∀ c, ((s.dev u).sched.find? fun e => e.kind == .armTime c && s.due u e.t) = none →
        exec (.armTime u c) s = .next ((Prog.settle u).run s)) ∧
      (∀ c e k, ((s.dev u).sched.find? fun e => e.kind == .armTime c && s.due u e.t) = some e → s.coll u c = some k → s.timev u = true →
        laneCount u k.sels = 0 → ∃ b : State, exec (.armTime u c) s = .next ((Prog.settle u).run ((Prog.showBudget u).run
          ((Prog.answer u e.cmd { status := stOk, result := k.stream }).run b))) ∧ (b.fn u (fidCollector c)).st = .running ∧
          (b.dev u).sched = (s.dev u).sched.filter (· != e) ∧ b.rd u Reg.TIM_HIGH_WATER_NS = max (s.rd u Reg.TIM_HIGH_WATER_NS) e.t % 2 ^ 64) ∧
      (∀ c e k, ((s.dev u).sched.find? fun e => e.kind == .armTime c && s.due u e.t) = some e → s.coll u c = some k → s.timev u = false →
        exec (.armTime u c) s = .next ((Prog.settle u).run (if k.gorse then s else (Prog.unarm u c).run
          ((Prog.answer u e.cmd { status := stDeadline }).run ((Prog.unschedule u e).run s))))) ∧
      (u = .htu → sweep = none → s.hx.sweep = none → exec .sweepCapture s = .next ((Prog.settle .htu).run s)) ∧
      (u = .htu → ∀ m tag sid, s.hx.sweep = some (m, tag, sid) → sweep = none → s.timev .htu = false →
        exec .sweepCapture s = .next ((Prog.settle .htu).run ((Prog.reply .htu m tag { status := stOk, result := 80 }).run
          ((Prog.htu fun x => { x with sweep := none }).run ((Prog.sweepRecords sid (s.ns .htu)).run
            ((Prog.each (List.range 256) Prog.carryAll).run (Prog.hedgeBusy.run s))))))) ∧
      (u = .htu → ∀ e, sweep = some e → s.due .htu e.t = true → s.timev .htu = true → s.h.taken.contains e.t = false →
        (s.captureEntries .htu e.t).any (· != e) = false → exec .sweepCapture s = .next ((Prog.settle .htu).run
          ((Prog.sweepDone e.t).run ((Prog.captureAt .htu e.t).run ((Prog.unschedule .htu e).run s))))) ∧
      (u = .htu → ∀ e, sweep = some e → s.due .htu e.t = false → exec .sweepCapture s = .next ((Prog.settle .htu).run s))) ∧
  (
    ∀ (u : UnitId) (g : Nat) (s : State), g < genCount u → (s.dev u).inReset = false →
      (Sparse.find (s.dev u).gens g = none → exec (.pulseFiring u g) s = .next ((Prog.settle u).run s)) ∧
      ∀ k, Sparse.find (s.dev u).gens g = some k →
        (s.genDue u g k = false → exec (.pulseFiring u g) s = .next ((Prog.settle u).run s)) ∧
        (s.genDue u g k = true → s.timev u = false →
          exec (.pulseFiring u g) s = .next ((Prog.settle u).run ((Prog.skipFirings u g (s.genInstant u g k + 1)).run s))) ∧
        (s.genDue u g k = true → s.timev u = true → s.rd u (Reg.TIM_PULSE_DEST g) = 4 → s.rd u (Reg.TIM_PULSE_COUNT g) = 1 →
          k.tag = none → ∃ t : State, exec (.pulseFiring u g) s = .next ((Prog.settle u).run t) ∧
            t.rd u (Reg.TIM_PULSE_FIRED g) = (s.rd u (Reg.TIM_PULSE_FIRED g) + 1) % 2 ^ 32 ∧ t.rd u (Reg.TIM_PULSE_STATE g) = genIdle ∧
            t.rd u (Reg.TIM_PULSE_COUNT g) = 0 ∧ t.rd u (Reg.TIM_PULSE_NEXT g) = 0 ∧ Sparse.find (t.dev u).gens g = none ∧
            (t.dev u).out = (s.dev u).out ++ [.pps g] ∧
            t.rd u Reg.TIM_HIGH_WATER_NS = max (s.rd u Reg.TIM_HIGH_WATER_NS) (s.rd u (Reg.TIM_PULSE_NEXT g))))

/-- Trace rows and dump units (R353, R354, R358, R361 to R363): the end of the post window holds the buffer; a readout that has no stream or a
raised ladder level waits; a dump's unit whose first transfer lies outside its window ends it ABORTED, one that finds no room, engine or turn
waits, and one that is whole reads its bytes and advances DONE; a channel without a dump, and one in the safe state, has no unit. -/
def Obligations.TraceAndDumpRows : Prop :=
  ∀ (u : UnitId) (s : State), (s.dev u).inReset = false →
    (s.rd u Reg.TRC_STATUS_PHASE ≠ phasePost → exec (.postUsExpiry u) s = .next ((Prog.settle u).run s)) ∧
    (s.rd u Reg.TRC_STATUS_PHASE = phasePost → ∃ t : State, exec (.postUsExpiry u) s = .next ((Prog.settle u).run t) ∧
      t.rd u Reg.TRC_STATUS_PHASE = phaseHeld ∧ (t.dev u).trace.queued = true ∧ (t.dev u).trace.cur = none ∧
      (t.dev u).trace.chunks = (s.dev u).trace.chunks) ∧
    (s.rd u Reg.TRC_STATUS_PHASE ≠ phaseHeld ∨ (s.dev u).trace.queued = false ∨ s.ladder u ≠ 0
      ∨ s.on u (Reg.TRC_STREAM_VALID (s.rd u Reg.TRC_STATUS_OWNER)) = false →
      exec (.readoutComplete u) s = .next ((Prog.settle u).run s)) ∧
    (s.rd u Reg.TRC_STATUS_PHASE = phaseHeld → (s.dev u).trace.queued = true → s.ladder u = 0 →
      s.on u (Reg.TRC_STREAM_VALID (s.rd u Reg.TRC_STATUS_OWNER)) = true → (s.dev u).trace.chunks = [] → (s.dev u).trace.post = [] →
      (s.fn u fidTrace).st ≠ .draining → s.on u Reg.TRC_CFG_REARM = true →
      ∃ t : State, exec (.readoutComplete u) s = .next ((Prog.settle u).run t) ∧ t.rd u Reg.TRC_STATUS_PHASE = phaseCirculate ∧
        (t.dev u).trace.queued = false ∧ (t.dev u).trace.nextNo = (s.dev u).trace.nextNo) ∧
    exec (.traceSync u) s = .next ((Prog.syncAll u).run s) ∧
    (u = .vta → (Prog.syncAll u).run s = s) ∧
    ∀ (c : Nat) (data : List Byte) (poisoned : Bool), u = .htu → c < 8 →
      (s.dumpOn c = none ∨ s.ladder .htu ≠ 0 ∨ s.live = false → exec (.dumpUnit c data poisoned) s = .next ((Prog.settle .htu).run s)) ∧
      ∀ d, s.dumpOn c = some d → s.ladder .htu = 0 → s.live = true →
        let n := min (s.unitBytes .htu) (d.len - d.done)
        let turn := s.h.lastTrace || !(s.readsOut .htu && s.on .htu Reg.TRC_CFG_COMPRESS)
        let reads := (hdmaSplit n (d.addr + d.done) n).takeWhile fun x => s.inWindow d.part x.1 x.2
        let got := (reads.map (·.2)).sum
        (s.unitStarts .htu d.comp turn n = false → exec (.dumpUnit c data poisoned) s = .next ((Prog.settle .htu).run
          (s.modDev .htu fun e => { e with dumpWaits := e.dumpWaits || d.comp }))) ∧
        (s.unitStarts .htu d.comp turn n = true → got = 0 → 0 < n → exec (.dumpUnit c data poisoned) s = .next ((Prog.settle .htu).run
          ((Prog.dumpEnd c d stAborted haltWindow).run (((Prog.modDump d.cmd fun _ => d).run ((Prog.each reads fun x => .send .htu
            (.hdmaRead x.1 x.2)).run (s.modDev .htu fun e => { e with dumpWaits := false, lastTrace := e.lastTrace && !d.comp }))).wr .htu
              (Reg.TRC_DUMP_DONE c) d.done)))) ∧
        (s.unitStarts .htu d.comp turn n = true → got = n → d.comp = false → 0 < n → d.done + n < d.len →
          s.on .htu (Reg.TRC_STREAM_VALID d.part) = false → ∃ t : State,
          exec (.dumpUnit c data false) s = .next ((Prog.settle .htu).run t) ∧ t.h.out = s.h.out ++ reads.map (fun x => Out.hdmaRead x.1 x.2) ∧
            t.rd .htu (Reg.TRC_DUMP_DONE c) = (d.done + n) % 2 ^ 64 ∧ t.rd .htu (Reg.TRC_DUMP_STATE c) = s.rd .htu (Reg.TRC_DUMP_STATE c) ∧
            ∀ off, off ≠ 0x50810 + 32 * c → t.word .htu off = s.word .htu off)

/-- A tile in its lane (R225, R226, R230, R232, R237): TILE_FIRST adds it, drawn for checking by the mode and the lane's generator; RES_LAST gives its
verdict and takes it out; TILE_VERDICT enters the oldest verdict in its step. A station in Fallow has no tiles.
The verdict of a tile in order (R230): not drawn, of an unknown format or in a bad lane it is UNCHECKED; a NaN among its operands is NAN; a NaN in its
result FAILs; an infinity of the sums is RANGE; an infinite result FAILs; else its distance decides against the tolerance (R229). -/
def Obligations.TilesPassThroughTheirLane : Prop :=
  (
    ∀ (n : Nat) (s : State), n < 272 → s.h.inReset = false →
      (∀ fmt, (s.station n).fallow = true → exec (.tileFirst n fmt) s = .next s) ∧
      (∀ fmt, (s.station n).fallow = false → ∃ t : State, ∃ y : Tile, exec (.tileFirst n fmt) s = .next t ∧
        (t.lane n).tiles = (s.lane n).tiles ++ [y] ∧ y.fmt = fmt ∧ y.k = 0 ∧ y.opNan = false ∧
        (y.checked = true ↔ s.tileMode = modeGated
          ∨ (s.tileMode = modeSampled ∧ (laneStep (s.lane n)).w.toNat % 2 ^ s.rd .htu Reg.SNT_MODE_RATE_LOG2 = 0)) ∧
        (t.lane n).taking = true ∧ (t.lane n).out = (s.lane n).out ∧ t.hregs = s.hregs ∧ t.hx.stations = s.hx.stations ∧
        ∀ m, m ≠ n → t.lane m = s.lane m) ∧
      ((s.station n).fallow = true → exec (.resLast n) s = .next s) ∧
      (∀ y ys, (s.station n).fallow = false → (s.lane n).tiles = y :: ys → ∃ t : State, exec (.resLast n) s = .next t ∧
        (t.lane n).tiles = ys ∧ (t.lane n).given = false ∧ (t.lane n).row = 0 ∧ (t.lane n).zs = [] ∧ t.hregs = s.hregs ∧ t.h = s.h ∧
        (t.lane n).out = (s.lane n).out ++ (if (s.lane n).given then [] else
          [{ s.tileResult n (s.lane n) y s.tileMode with ctx := s.openCtx.map (·.no) }])) ∧
      ((s.lane n).out = [] → exec (.tileVerdict n) s = .next ((Prog.settle .htu).run s)) ∧
      (∀ v vs, (s.lane n).out = v :: vs → v.ctx = none → exec (.tileVerdict n) s = .next ((Prog.settle .htu).run s)) ∧
      (∀ v vs no, (s.lane n).out = v :: vs → v.ctx = some no →
        let b := (Prog.modLane n fun l => { l with out := l.out.drop 1 }).run s
        (s.ctxNo no = none → exec (.tileVerdict n) s = .next ((Prog.settle .htu).run b)) ∧
        ∀ c, s.ctxNo no = some c → c.st = .opened ∨ c.st = .closing →
          (v.digest = none → exec (.tileVerdict n) s = .next ((Prog.settle .htu).run ((Prog.tryFinal no).run
            ((Prog.enterVerdict no n v none true).run b)))) ∧
          ∀ d, v.digest = some d → c.mode = modeDual → exec (.tileVerdict n) s = .next ((Prog.settle .htu).run ((Prog.tryFinal no).run
            ((Prog.dualVerdict no n v d).run b))))) ∧
  (
    ∀ (s : State) (n : Nat) (l : Lane) (y : Tile) (mode : Nat), mode = modeSampled ∨ mode = modeGated →
      let v := s.tileResult n l y mode
      (y.checked = false → v.verdict = vUnchecked ∧ v.cause = causeNotSampled) ∧
      (y.checked = true → 4 < y.fmt.toNat → v.verdict = vUnchecked ∧ v.cause = causeFormat) ∧
      (y.checked = true → y.fmt.toNat ≤ 4 → s.rd .htu (Reg.SNT_LANE_STATE n) = 1 → v.verdict = vUnchecked ∧ v.cause = causeLane) ∧
      (y.checked = true → y.fmt.toNat ≤ 4 → s.rd .htu (Reg.SNT_LANE_STATE n) ≠ 1 →
        (y.opNan = true → v.verdict = vNan) ∧
        (y.opNan = false →
          (l.cNan = true → v.verdict = vFail ∧ v.cause = causeNan) ∧
          (l.cNan = false → l.cInfFree = true ∨ y.y.any (fun x => !fpFinite x) = true → v.verdict = vRange) ∧
          (l.cNan = false → l.cInfFree = false → y.y.any (fun x => !fpFinite x) = false →
            (l.cInf = true → v.verdict = vFail ∧ v.cause = causeInf) ∧
            (l.cInf = false → v.maxD = (fpArgMax (List.zipWith fpDist l.zs y.y)).2 ∧
              (fpGt v.maxD v.tau = true → v.verdict = vFail ∧ v.cause = causeMismatch ∧ v.near = false) ∧
              (fpGt v.maxD v.tau = false → v.verdict = vPass))))) ∧
      v.k = y.k ∧ v.time = s.ns .htu)

/-- Steps and barriers (R40, R42 to R44, R213, R237, R238, R240, R242, R261): in reset and before BOUNDARY_LIVE a STEP_OPEN pulse is answered clean and BARRIER_DONE releases
every group; a step that opens with no other in hand is OPEN and clean, and the newest; a due STEP_OPEN command opens its step; a station's barrier edge is
its arrival; DRAIN_ACK drains. -/
def Obligations.StepsOpenAndArrive : Prop :=
  (∀ s : State, s.h.inReset = true → s.live = false →
    (∀ step, exec (.stepOpenPulse step) s = .next ((Prog.send .htu (.stepClean true)).run
      { s with hx := { s.hx with stepClean := true, stepCleanValid := true } })) ∧
    exec .barrierDone s = .next ((Prog.send .htu (.barrierRel 0xFFFF)).run s)) ∧
  ∀ s : State, s.h.inReset = false →
    (∀ step, s.live = false → ∃ t : State, exec (.stepOpenPulse step) s = .next ((Prog.settle .htu).run t) ∧
      t.hx = { s.hx with stepClean := true, stepCleanValid := true } ∧ t.h.out = s.h.out ++ [.stepClean true] ∧
      t.rd .htu (Reg.TAP_DIE_CNT_COUNT 12) = (s.rd .htu (Reg.TAP_DIE_CNT_COUNT 12) + 1) % 2 ^ 64) ∧
    (∀ step, s.live = true → exec (.stepOpenPulse step) s = .next ((Prog.settle .htu).run
      (let b := s.wr .htu (Reg.TAP_DIE_CNT_COUNT 12) (s.rd .htu (Reg.TAP_DIE_CNT_COUNT 12) + 1)
      if s.on .htu Reg.SNT_MODE_STEP_SRC then b else (Prog.openStep step).run b))) ∧
    (∀ step, s.hx.steps = [] → s.on .htu Reg.SHF_BAR_CFG_BAR_EN = false → ∃ c : StepCtx,
      ((Prog.openStep step).run s).hx.steps = [c] ∧ c.step = step ∧ c.no = s.hx.stepNo + 1 ∧ c.st = .opened ∧ c.clean = true ∧
      c.replays = 0 ∧ c.need = [] ∧ c.arrived = false ∧ ((Prog.openStep step).run s).hx.stepNo = s.hx.stepNo + 1 ∧
      ((Prog.openStep step).run s).hx.stepCleanValid = false ∧
      ((Prog.openStep step).run s).rd .htu Reg.SNT_STATUS_STEP = step.toNat) ∧
    (∀ due, due = (s.h.sched.find? fun e => s.due .htu e.t && (match e.kind with
        | .step _ => true
        | _ => false)) →
      (due = none → exec .stepStartTime s = .next ((Prog.settle .htu).run s)) ∧
      ∀ e n, due = some e → e.kind = .step n → exec .stepStartTime s = .next ((Prog.settle .htu).run
        (if s.timev .htu then (Prog.answer .htu e.cmd { status := stOk }).run ((Prog.openStep n).run
          ((Prog.acted .htu e.t).run ((Prog.unschedule .htu e).run s)))
        else (Prog.answer .htu e.cmd { status := stDeadline }).run ((Prog.unschedule .htu e).run s)))) ∧
    (s.live = false → exec .barrierDone s = .next ((Prog.settle .htu).run (s.modDev .htu fun d => { d with out := d.out ++ [.barrierRel 0xFFFF] }))) ∧
    (s.live = true → s.on .htu Reg.SNT_MODE_STEP_SRC = true ∨ s.on .htu Reg.SHF_BAR_CFG_BAR_EN = true →
      exec .barrierDone s = .next ((Prog.settle .htu).run s)) ∧
    (s.live = true → s.on .htu Reg.SNT_MODE_STEP_SRC = false → s.on .htu Reg.SHF_BAR_CFG_BAR_EN = false →
      (s.openCtx = none → exec .barrierDone s = .next ((Prog.settle .htu).run ((Prog.release 0).run s))) ∧
      ∀ c, s.openCtx = some c → exec .barrierDone s = .next ((Prog.settle .htu).run ((Prog.closeStep c.no).run
        (let b := (Prog.modCtx c.no fun c => { c with done := true }).run s
        if c.mode < modeGated then (Prog.releaseStep c.no true).run b else b)))) ∧
    (∀ n < 272, (∀ c ∈ s.hx.steps, c.need.contains n = false) → exec (.barrierArrival n) s = .next ((Prog.settle .htu).run s)) ∧
    (∀ n < 272, ∀ c, s.hx.steps = [c] → c.need.contains n = true → c.need ≠ [n] →
      exec (.barrierArrival n) s = .next ((Prog.settle .htu).run
        { s with hx := { s.hx with steps := [{ c with need := c.need.filter (· != n) }] } })) ∧
    (s.hx.drainReq = false ∨ s.hx.drainAcked = true → exec .drainAck s = .next ((Prog.settle .htu).run s)) ∧
    (s.hx.drainReq = true → s.hx.drainAcked = false → s.hx.steps = [] → ∃ t : State,
      exec .drainAck s = .next ((Prog.settle .htu).run t) ∧ t.hx = { s.hx with drainReq := false, drainAcked := true } ∧
      t.rd .htu Reg.SNT_STATUS_DRAINED = 1 ∧
      ∀ off, off ≠ Reg.SNT_STATUS_DRAINED.off → off ≠ Reg.EVR_STATUS_BUCKET.off → t.word .htu off = s.word .htu off) ∧
    exec (.ackFall .drain) s = .next { s with hx := { s.hx with drainAcked := false } } ∧
    ((∀ h, s.hx.hs = some h → h.acked = false) → exec (.ackFall .cap) s = .next s) ∧
    (∀ h, s.hx.hs = some h → h.acked = true →
      exec (.ackFall .cap) s = .next (Prog.sequence.run { s with hx := { s.hx with hs := none } }))

/-- Words of the link adders and of the window snoop (R41, R175, R251 to R256, R349): a word of a link adder is a trace word; a word that finds its FIFO full is dropped and counted; an exponent notice
counts, and so does an overflow; the first poison of the die is kept, with its place; a snooped word counts 64 bytes and joins its tensor's digest,
and a dropped one invalidates it. A word of a reserved KIND does nothing else. -/
def Obligations.LinkAndWindowWords : Prop :=
  ∀ s : State, s.h.inReset = false →
    (∀ port < 8, ∀ w : BitVec 128,
      exec (.laddExcWord port w true) s = .next ((Prog.dropWord port 4).run s) ∧
      (let b := (Prog.traceData .htu 0x103 0 (w.setWidth 64)).run s;
        (w.toNat % 16 = 1 → exec (.laddExcWord port w false) s =
          .next (b.wr .htu (Reg.TAP_DIE_CNT_COUNT 0) (b.rd .htu (Reg.TAP_DIE_CNT_COUNT 0) + 1))) ∧
        (w.toNat % 16 = 0 ∨ 4 < w.toNat % 16 → exec (.laddExcWord port w false) s =
          .next { b with hx := { b.hx with laddBad := b.hx.laddBad + 1 } })) ∧
      (w.toNat % 16 = 4 → s.on .htu Reg.SNT_STREAM_VALID = false → ∃ t : State, exec (.laddExcWord port w false) s = .next t ∧
        t.rd .htu (Reg.TAP_DIE_CNT_COUNT 1) = (s.rd .htu (Reg.TAP_DIE_CNT_COUNT 1) + 1) % 2 ^ 64) ∧
      (w.toNat % 16 = 2 ∨ w.toNat % 16 = 3 → s.on .htu Reg.SNT_POISON_VALID = false → s.on .htu Reg.SNT_STREAM_VALID = false →
        ∃ t : State, exec (.laddExcWord port w false) s = .next t ∧
          t.rd .htu (Reg.TAP_DIE_CNT_COUNT 0) = (s.rd .htu (Reg.TAP_DIE_CNT_COUNT 0) + 1) % 2 ^ 64 ∧
          t.rd .htu Reg.SNT_POISON_VALID = 1 ∧ t.rd .htu Reg.SNT_POISON_HERE = 1 ∧
          t.rd .htu Reg.SNT_POISON_ORIGIN = s.dieId .htu % 2 ^ 17 ∧ t.rd .htu Reg.SNT_POISON_COLL_ID = w.toNat / 2 ^ 64 % 2 ^ 32 ∧
          t.rd .htu Reg.SNT_POISON_BLOCK = w.toNat / 2 ^ 96 % 2 ^ 16)) ∧
    (∀ (tag : BitVec 16) (w : BitVec 512) (last : Bool),
      let b := s.wr .htu (Reg.TAP_DIE_CNT_COUNT 2) (s.rd .htu (Reg.TAP_DIE_CNT_COUNT 2) + 64)
      (exec (.winSnoopWord tag w last true) s = .next (
        let d := (Prog.dropWord 8 3).run s
        let d := if s.hx.overTags.contains tag.toNat then d else (Prog.digOpen tag.toNat Prog.digInvalid).run d
        if last then { d with hx := { d.hx with overTags := d.hx.overTags.filter (· != tag.toNat) } } else d)) ∧
      (∀ e go, s.digEntry tag.toNat 1 = some e → s.digTake tag.toNat ≠ none → (Prog.digOpen tag.toNat go).run s = (go e).run s) ∧
      (s.hx.overTags.contains tag.toNat = true → exec (.winSnoopWord tag w last false) s = .next
        (if last then { b with hx := { b.hx with overTags := b.hx.overTags.filter (· != tag.toNat) } } else b)) ∧
      (∀ e < 64, s.hx.overTags.contains tag.toNat = false → s.digEntry tag.toNat 1 = some e →
        ∃ t : State, exec (.winSnoopWord tag w last false) s = .next t ∧
          t.rd .htu (Reg.TAP_DIE_CNT_COUNT 2) = (s.rd .htu (Reg.TAP_DIE_CNT_COUNT 2) + 64) % 2 ^ 64 ∧
          t.rd .htu (Reg.SNT_DIGEST_LENGTH e) = (s.rd .htu (Reg.SNT_DIGEST_LENGTH e) + 64) % 2 ^ 64 ∧
          (last = true → t.rd .htu (Reg.SNT_DIGEST_STATE e) = 2) ∧
          (last = false → t.rd .htu (Reg.SNT_DIGEST_STATE e) = s.rd .htu (Reg.SNT_DIGEST_STATE e) ∧
            Sparse.get 0 t.hx.digests e = digestWord s.digestKey (Sparse.get 0 s.hx.digests e) w)))

/-- The voltage-frequency sequencer (R42, R325 to R329): CAP_ACK, HANDSHAKE_LATE, SETTLE, TRIM_REQUEST and AGE_MON_DONE complete in every state out of reset.
An acknowledged SET_F or SET_V moves its group by one entry and shows it, and HOLD and RELEASE are acknowledged; a handshake that is late is
reported once; the settled raise goes on; a trim request asks the monitor only at its reference entry, and its answer joins the sixteen
latest and sets the trimmed frequency. -/
def Obligations.SequencerRowsComplete : Prop :=
  ∀ s : State, s.h.inReset = false →
    (∀ slow, s.hx.hs = none → exec (.capAck slow) s = .next s) ∧
    (∀ slow h, s.hx.hs = some h → h.acked = true → exec (.capAck slow) s = .next s) ∧
    (∀ slow h, s.hx.hs = some h → h.acked = false →
      let c := if slow then s.wr .htu Reg.PWR_STATUS_ACK_SLOW
        (satAdd Reg.PWR_STATUS_ACK_SLOW.width (s.rd .htu Reg.PWR_STATUS_ACK_SLOW) 1) else s
      let b : State := { c with hx := { s.hx with hs := some { h with acked := true } } }
      (∀ g d, h.op = .setF g d → exec (.capAck slow) s = .next (Prog.markCap.run
        ((Prog.cond (b.on .htu Reg.PWR_CTL_STEP_REC) (.powerRec .htu 0x72
            (le 1 g ++ le 1 (b.fIdx g) ++ le 1 (stepIdx (b.fIdx g) d) ++ le 1 (b.vIdx g) ++ zeros 4))).run
          ((Prog.traceData .htu 0x101 0
              (BitVec.ofNat 64 (g + 2 ^ 8 * b.fIdx g + 2 ^ 16 * stepIdx (b.fIdx g) d + 2 ^ 24 * b.vIdx g))).run
            (let f := (b.wr .htu (Reg.PWR_GRP_F_IDX g) (stepIdx (b.fIdx g) d)).wr .htu (Reg.PWR_GRP_LAST_F_NS g) (b.ns .htu)
             { f with hx := { f.hx with
                fGauge := Sparse.set 0 f.hx.fGauge g (b.rd .htu (Reg.PWR_VF_MHZ (stepIdx (b.fIdx g) d))) } }))))) ∧
      (∀ g d, h.op = .setV g d → exec (.capAck slow) s = .next (Prog.markCap.run
        (let f := b.wr .htu (Reg.PWR_GRP_V_IDX g) (stepIdx (b.vIdx g) d)
         { f with hx := { f.hx with
            vGauge := Sparse.set 0 f.hx.vGauge g (b.rd .htu (Reg.PWR_VF_MV (stepIdx (b.vIdx g) d)))
            settling := if d = 1 then some g else f.hx.settling } }))) ∧
      (h.op = .hold ∨ h.op = .release → exec (.capAck slow) s = .next (Prog.markCap.run b))) ∧
    (∀ h g d, s.hx.hs = some h → h.acked = false → h.op = .setF g d → g < 16 → s.on .htu Reg.PWR_CTL_STEP_REC = false →
      ∃ t : State, exec (.capAck false) s = .next t ∧ t.rd .htu (Reg.PWR_GRP_F_IDX g) = stepIdx (s.fIdx g) d % 16 ∧
        t.rd .htu (Reg.PWR_GRP_LAST_F_NS g) = s.ns .htu ∧ t.hx.hs = some { h with acked := true } ∧
        Sparse.get 0 t.hx.fGauge g = s.rd .htu (Reg.PWR_VF_MHZ (stepIdx (s.fIdx g) d)) ∧
        t.rd .htu (Reg.PWR_GRP_V_IDX g) = s.vIdx g ∧ t.rd .htu Reg.PWR_STATUS_ACK_SLOW = s.rd .htu Reg.PWR_STATUS_ACK_SLOW ∧
        ∀ off, off ≠ 0x40200 + 32 * g → off ≠ 0x40210 + 32 * g → off / 65536 ≠ 5 → t.word .htu off = s.word .htu off) ∧
    (∀ h g d, s.hx.hs = some h → h.acked = false → h.op = .setV g d → g < 16 → ∃ t : State, exec (.capAck true) s = .next t ∧
      t.rd .htu (Reg.PWR_GRP_V_IDX g) = stepIdx (s.vIdx g) d % 16 ∧ t.rd .htu (Reg.PWR_GRP_F_IDX g) = s.fIdx g ∧
      t.hx.settling = (if d = 1 then some g else s.hx.settling) ∧ t.hx.hs = some { h with acked := true } ∧
      t.rd .htu Reg.PWR_STATUS_ACK_SLOW = min 255 (s.rd .htu Reg.PWR_STATUS_ACK_SLOW + 1)) ∧
    (s.hx.hs = none → exec (.handshakeLate .cap) s = .next s) ∧
    (∀ h, s.hx.hs = some h → h.late = true → exec (.handshakeLate .cap) s = .next s) ∧
    (∀ h, s.hx.hs = some h → h.late = false → exec (.handshakeLate .cap) s = .next
      ((Prog.event .htu 0x0004 (le 1 2 ++ le 1 (if h.acked then 2 else 1) ++ zeros 6)).run
        { s with hx := { s.hx with hs := some { h with late := true } } })) ∧
    exec (.handshakeLate .drain) s = .next (if (s.hx.drainReq = true ∨ s.hx.drainAcked = true) ∧ s.hx.drainLate = false then
      (Prog.event .htu 0x0004 (le 1 1 ++ le 1 (if s.hx.drainAcked then 2 else 1) ++ zeros 6)).run
        { s with hx := { s.hx with drainLate := true } } else s) ∧
    (s.hx.settling = none → exec .settle s = .next s) ∧
    (∀ g, s.hx.settling = some g → exec .settle s = .next (Prog.sequence.run { s with hx := { s.hx with
      settling := none
      seqQ := if s.fIdx g < s.target g ∧ s.fIdx g < s.vIdx g then s.hx.seqQ ++ [.setF g 1] else s.hx.seqQ } })) ∧
    ∀ g < 16,
      exec (.trimRequest g) s = .next (if s.on .htu Reg.PWR_TRIM_TRIM_EN = true ∧ s.vIdx g = s.rd .htu Reg.PWR_TRIM_REF_IDX then
        s.modDev .htu fun d => { d with out := d.out ++ [.ageReq g] } else s) ∧
      ∀ count : BitVec 24, ∃ t : State, exec (.ageMonDone g count) s = .next t ∧
        let last := (count :: (Sparse.find s.hx.age g).getD []).take 16
        Sparse.find t.hx.age g = some last ∧ t.rd .htu (Reg.PWR_GRP_AGE_MIN g) = last.foldl (fun m c => min m c.toNat) (2 ^ 24 - 1) ∧
        (s.on .htu Reg.PWR_TRIM_TRIM_EN = true → t.rd .htu (Reg.PWR_GRP_TRIM_MHZ g) = trimMhz (s.rd .htu (Reg.PWR_GRP_FMAX_FUSE g))
          (last.foldl (fun m c => min m c.toNat) (2 ^ 24 - 1)) (s.rd .htu (Reg.PWR_GRP_AGE_BASE g)) (s.rd .htu Reg.PWR_TRIM_GUARD)
            % 2 ^ (Reg.PWR_GRP_TRIM_MHZ g).width) ∧
        (s.on .htu Reg.PWR_TRIM_TRIM_EN = false → t.h = s.h ∧ ∀ off, off ≠ 0x40208 + 32 * g → t.word .htu off = s.word .htu off)

/-- Power and thermal control (R330 to R335, R338): CONTROL_PERIOD, DEFER_EXPIRED, THERM_STALE and THERM_UPDATE complete in every state out of reset, each
with the whole of its effect. A control period measures the power and shows ALLOW; while the power function does not run every
group is uncapped; a deferral that expires is counted; missing sensors are reported once, and a strobe delivers them. That
COLLECTIVE_IDLE is a free value is the model's (log 6), and so is a power that no whole number of mW gives. -/
def Obligations.PowerControlRowsComplete : Prop :=
  ∀ s : State, s.h.inReset = false →
    (s.live = false → exec .controlPeriod s = .next ((Prog.settle .htu).run s)) ∧
    (s.live = true →
      let us := s.rd .htu Reg.PWR_CTRL_CFG_CTRL_US
      let num := 1000 * (s.rd .htu Reg.TAP_EN_DIE_UJ + 2 ^ 64 - s.hx.pmBase) % (1000 * 2 ^ 64)
      let idle := Config.freeNat s.free % 2 == 1
      let b : State := { s with free := s.free + 1, hx := { s.hx with idle := idle, pmBase := s.rd .htu Reg.TAP_EN_DIE_UJ } }
      let c := ((b.wr .htu Reg.PWR_MEAS_PM_MW
        (if us = 0 ∨ num % us = 0 then num / us else num / us + (Config.powerRound num us).toNat)).wr .htu
          Reg.PWR_MEAS_ALLOW_MW s.allow).wr .htu Reg.PWR_STATUS_DEFERRED 0
      let d := (Prog.each groups (Prog.thermGroup idle)).run (Prog.powerControl.run c)
      exec .controlPeriod s = .next ((Prog.settle .htu).run (Prog.sequence.run (Prog.budgetDone.run (Prog.markCap.run (Prog.showThermal.run
        { d with hx := { d.hx with pmClus := [] } })))))) ∧
    (s.live = true → s.on .htu Reg.PWR_CTL_VALID = false → ∃ t : State, exec .controlPeriod s = .next ((Prog.settle .htu).run t) ∧
      t.rd .htu Reg.PWR_MEAS_ALLOW_MW = s.allow % 2 ^ 32 ∧ t.hx.pmBase = s.rd .htu Reg.TAP_EN_DIE_UJ ∧ t.hx.pmClus = [] ∧
      (s.rd .htu Reg.PWR_CTRL_CFG_CTRL_US ≠ 0 → s.hx.pmBase ≤ s.rd .htu Reg.TAP_EN_DIE_UJ →
        1000 * (s.rd .htu Reg.TAP_EN_DIE_UJ - s.hx.pmBase) % s.rd .htu Reg.PWR_CTRL_CFG_CTRL_US = 0 →
        t.rd .htu Reg.PWR_MEAS_PM_MW
          = 1000 * (s.rd .htu Reg.TAP_EN_DIE_UJ - s.hx.pmBase) / s.rd .htu Reg.PWR_CTRL_CFG_CTRL_US % 2 ^ 32) ∧
      ((s.fn .htu fidPower).st ≠ .running → ∀ g < 16, t.rd .htu (Reg.PWR_GRP_CAP_IDX g) = 15) ∧
      ∀ g < 16, t.rd .htu (Reg.PWR_GRP_F_IDX g) = s.fIdx g ∧ t.rd .htu (Reg.PWR_GRP_V_IDX g) = s.vIdx g) ∧
    (s.on .htu Reg.PWR_STATUS_DEFERRED = false → exec .deferExpired s = .next s) ∧
    (s.on .htu Reg.PWR_STATUS_DEFERRED = true → exec .deferExpired s = .next (Prog.sequence.run (Prog.showThermal.run
      ((Prog.capEvent 3 0xFF (s.fIdx 0) (s.fIdx 0)).run ((Prog.each (groups.filter fun g => s.rd .htu Reg.PWR_THERM_CFG_WARN ≤ s.thermCode g)
        (Prog.thermGroup true)).run ((Prog.cond ((s.fn .htu fidPower).st == .running && s.pressure) .lowerOne).run
          (let b := s.wr .htu Reg.PWR_STATUS_DEFERRED 0
           b.wr .htu Reg.PWR_STATUS_DEFER_EXPIRED
            (satAdd Reg.PWR_STATUS_DEFER_EXPIRED.width (b.rd .htu Reg.PWR_STATUS_DEFER_EXPIRED) 1)))))))) ∧
    (s.on .htu Reg.PWR_STATUS_DEFERRED = true → s.on .htu Reg.PWR_CTL_VALID = false → ∃ t : State, exec .deferExpired s = .next t ∧
      t.rd .htu Reg.PWR_STATUS_DEFERRED = 0 ∧
      t.rd .htu Reg.PWR_STATUS_DEFER_EXPIRED = min 255 (s.rd .htu Reg.PWR_STATUS_DEFER_EXPIRED + 1) ∧
      ∀ g < 16, t.rd .htu (Reg.PWR_GRP_F_IDX g) = s.fIdx g) ∧
    (s.live = false ∨ s.on .htu Reg.PWR_STATUS_THERM_STALE = true → exec .thermStale s = .next s) ∧
    (s.live = true → s.on .htu Reg.PWR_STATUS_THERM_STALE = false → exec .thermStale s =
      .next ((Prog.event .htu 0x0403 (zeros 8)).run (s.wr .htu Reg.PWR_STATUS_THERM_STALE 1))) ∧
    ∀ codes : List (BitVec 10), exec (.thermUpdate codes) s =
      .next (({ s with hx := { s.hx with therm := codes.take 32 } } : State).wr .htu Reg.PWR_STATUS_THERM_STALE 0)

/-- Release waves and droop (R175, R342 to R344): a wave due in brownout hold, or under a droop where the release asked for it, waits; else its groups are
released and the next wave follows; the last droop bit to fall releases a held wave, and so does its limit.
Brownout hold (R345 to R347): a rail below its warning starts the hold, names the rail and counts it; a rail below its reset level in a hold keeps the hold's
data over the reset, which HTU_VDD causes; the rails' return ends the hold with one record. -/
def Obligations.ReleaseDroopAndBrownout : Prop :=
  (
    ∀ s : State, s.h.inReset = false →
      (s.hx.rels = [] → exec .releaseWave s = .next s) ∧
      (∀ r rs, s.hx.rels = r :: rs →
        let b := s.begun r
        (s.inHold = true → exec .releaseWave s = .next { s with hx := { s.hx with
          rels := { b with waiting := true } :: rs, held := if b.waiting then s.hx.held else s.hx.held + 1 } }) ∧
        (s.inHold = false → b.hold = true → s.hx.droop ≠ 0 → exec .releaseWave s =
          .next { s with hx := { s.hx with rels := { b with waiting := true } :: rs } }) ∧
        (s.inHold = false → b.hold = false ∨ s.hx.droop = 0 → ∃ t : State, exec .releaseWave s = .next t ∧
          t.h.out = s.h.out ++ [.barrierRel b.mask] ∧
          t.rd .htu (Reg.TAP_DIE_CNT_COUNT 11) = (s.rd .htu (Reg.TAP_DIE_CNT_COUNT 11) + 1) % 2 ^ 64 ∧
          t.hx.rels = (if b.waves ≤ b.wave + 1 then rs else { b with wave := b.wave + 1, waiting := false } :: rs))) ∧
      (∀ g < 16,
        (s.hx.droop.getLsbD g = true → exec (.droopDetRise g) s = .next s) ∧
        (s.hx.droop.getLsbD g = false → exec (.droopDetRise g) s = .next
          (({ s with hx := { s.hx with droop := s.hx.droop ||| (1#16 <<< g) } } : State).wr .htu (Reg.TAP_DIE_CNT_COUNT 5)
            (s.rd .htu (Reg.TAP_DIE_CNT_COUNT 5) + 1))) ∧
        (let low := s.hx.droop &&& ~~~ (1#16 <<< g)
        let b : State := { s with hx := { s.hx with droop := low } }
        exec (.droopDetClear g) s = .next (match s.hx.rels with
          | r :: _ => if r.waiting = true ∧ low = 0 ∧ s.inHold = false then (Prog.issueWave r).run b else b
          | [] => b))) ∧
      exec .droopForced s = .next (match s.hx.rels with
        | r :: _ => if r.waiting = true ∧ r.hold = true ∧ s.hx.droop ≠ 0 ∧ s.inHold = false then
            (Prog.issueWave r).run (s.wr .htu Reg.PWR_STAGGER_HOLD_DROOP_FORCED
              (satAdd Reg.PWR_STAGGER_HOLD_DROOP_FORCED.width (s.rd .htu Reg.PWR_STAGGER_HOLD_DROOP_FORCED) 1)) else s
        | [] => s)) ∧
  (
    ∀ (rail : Nat) (s : State), rail < 18 → s.h.inReset = false →
      (s.inHold = true → exec (.vwarnCrossing rail) s = .next s) ∧
      (s.inHold = false → ∃ t : State, exec (.vwarnCrossing rail) s = .next t ∧ t.rd .htu Reg.PWR_BO_STATE = 1 ∧
        t.rd .htu Reg.PWR_BO_RAIL = rail ∧ t.rd .htu Reg.PWR_STATUS_HOLD = 1 ∧
        t.rd .htu Reg.PWR_STATUS_HOLDS = min 255 (s.rd .htu Reg.PWR_STATUS_HOLDS + 1) ∧ t.hx.holdT = s.ns .htu ∧
        t.hx.holdTv = s.timev .htu ∧ t.hx.held = 0 ∧ t.hx.deferred = 0 ∧ (∀ g < 16, t.fIdx g = s.fIdx g ∧ t.vIdx g = s.vIdx g)) ∧
      (s.rd .htu Reg.PWR_BO_STATE ≠ 1 → exec (.vresetCrossing rail) s = .next s) ∧
      (s.rd .htu Reg.PWR_BO_STATE = 1 → ∃ t : State, exec (.vresetCrossing rail) s = .next t ∧
        (t.h.inReset = true ↔ rail = 16) ∧ t.rd .htu Reg.PWR_BO_RET_RET_VALID = 1 ∧
        t.rd .htu Reg.PWR_BO_RET_RAIL = s.rd .htu Reg.PWR_BO_RAIL ∧ t.rd .htu Reg.PWR_BO_RET_TIMEV = s.hx.holdTv.toNat ∧
        t.rd .htu Reg.PWR_BO_RET_T_ENTRY = s.hx.holdT % 2 ^ 64 ∧ (rail ≠ 16 → t.rd .htu Reg.PWR_BO_STATE = 2 ∧ t.hx = s.hx)) ∧
      (∀ ns, s.rd .htu Reg.PWR_BO_STATE ≠ 1 → exec (.brownoutResume ns) s = .next s) ∧
      (∀ ns, s.rd .htu Reg.PWR_BO_STATE = 1 → s.on .htu Reg.PWR_CTL_VALID = false → ∃ t : State, exec (.brownoutResume ns) s = .next t ∧
        t.rd .htu Reg.PWR_BO_STATE = 0 ∧ t.rd .htu Reg.PWR_STATUS_HOLD = 0 ∧ t.rd .htu Reg.PWR_BO_RAIL = s.rd .htu Reg.PWR_BO_RAIL))

/-- Steps at a merge point (R8, R28, R214 to R217): an arrival whose reserved fields are not zero counts, and is taken with zeros; one at a level whose
role is not held, or from an input that has lost its role, changes nothing; the first of a step opens its context, and renews the lease of its die;
one more pending report names what is missing; a STEP_RESULT that is not PENDING goes on to the members (where its flags stand is the model's choice, log 53).
What a result and a notice do at a member, and lost replays at the tray (R217, R238, R239, R243, R244, R252, R317): a result presents its
FINAL step, and one that is not clean ends an open one; a taint notice taints its step, and a poison notice is kept where none was; at the tray a
notice from above goes down, one from below goes up unless the root is here, and its step is tainted at the merge points; a lost replay aborts the job of
its die. The last 8 tainted steps are kept (the model's choice, log 59). -/
def Obligations.StepsMergeAtTheTray : Prop :=
  (
    ∀ s : State, s.v.inReset = false →
      (∀ l input r, input < levelInputs l →
        exec (.stepArrival l input r) s = exec (.stepArrival l input r.clean) ((Prog.rsvdFrom .vta (inputPort l input) r.rsvd).run s)) ∧
      (∀ l input r, input < levelInputs l → r.rsvd = false →
        s.holdsFor l none r = false ∨ s.fromHead l input r = false ∨ (r.typ == 0x31) ≠ (l == .tray) →
        exec (.stepArrival l input r) s = .next s) ∧
      (∀ input r, input < 64 → r.rsvd = false → r.typ = 0x31 → s.fromHead .tray input r = true → s.vx.msteps = [] →
        s.rd .vta (Reg.VTA_DIE_VERDICT input) < 3 →
        (s.stepMembers .tray).contains input = true → (∃ j ∈ s.stepMembers .tray, j ≠ input) →
        ∃ t : State, ∃ m : MStep, exec (.stepArrival .tray input r) s = .next t ∧ t.vx.msteps = [m] ∧
          m.step.toNat = fieldAt r.payload 0 4 ∧ m.ins = s.stepMembers .tray ∧ m.members = (s.stepMembers .tray).length ∧ m.got = [input] ∧
          m.count = 1 ∧ m.done = false ∧ m.clean = (fieldAt r.payload 4 1).testBit 0 ∧ m.cap = (fieldAt r.payload 4 1).testBit 1 ∧
          m.taint = (s.vx.tainted.contains m.step || r.taint) ∧
          t.rd .vta (Reg.VTA_DIE_LEASE_END input) = (if s.inRunning input then (s.ns .vta + s.leaseNs) % 2 ^ 64
            else s.rd .vta (Reg.VTA_DIE_LEASE_END input)) ∧
          t.v = s.v ∧ ∀ off, off ≠ (Reg.VTA_DIE_LEASE_END input).off → t.word .vta off = s.word .vta off) ∧
      (∀ l step, (s.vx.msteps.find? fun m => m.level == l && m.step == step && !m.done && m.got != []) = none →
        exec (.stepPendingReport l step) s = .next s) ∧
      (∀ l step m, (s.vx.msteps.find? fun m => m.level == l && m.step == step && !m.done && m.got != []) = some m →
        (s.stepRec m true false).size + (s.frame 0 6).overhead ≤ 9216 → exec (.stepPendingReport l step) s = .next (s.modDev .vta fun d =>
          { d with out := d.out ++ [.ether (s.frame 0 6) (.ethRec true (s.stepRec m true false))] })) ∧
      (∀ r, r.rsvd = false → exec (.stepResult .vta r) s = .next ((Prog.settle .vta).run
        (if (fieldAt r.payload 8 1).testBit 2 then s else (Prog.stepDown (s.stepMembers .tray) r).run s))) ∧
      ∀ r, r.rsvd = false → s.h.inReset = false → exec (.stepResult .htu r) s = .next ((Prog.settle .htu).run
        (if (fieldAt r.payload 8 1).testBit 2 then s
        else (Prog.stepResultRx (BitVec.ofNat 32 (fieldAt r.payload 0 4))
          ((fieldAt r.payload 8 1).testBit 0 && !(fieldAt r.payload 8 1).testBit 3)).run s))) ∧
  (
    (∀ (step : BitVec 32) (clean : Bool) (s : State),
      ((s.hx.steps.find? fun c => c.step == step) = none → (Prog.stepResultRx step clean).run s = s) ∧
      ∀ c, (s.hx.steps.find? fun c => c.step == step) = some c →
        (c.st = .final → (Prog.stepResultRx step clean).run s = (Prog.present c.no clean).run s) ∧
        (c.st = .opened ∨ c.st = .closing → clean = true → (Prog.stepResultRx step clean).run s = s) ∧
        (c.st = .opened ∨ c.st = .closing → clean = false →
          let b := (Prog.endStep false c.no).run ((Prog.modCtx c.no fun c => { c with clean := false }).run s)
          (Prog.stepResultRx step clean).run s = (match b.ctxNo c.no with
            | some d => if d.st = .final then (Prog.present c.no clean).run b else b
            | none => b)) ∧
        (c.st = .presented ∨ c.st = .retained → (Prog.stepResultRx step clean).run s = s)) ∧
    (∀ (input : Nat) (r : Rec) (s : State), s.h.inReset = false → r.rsvd = false → s.on .htu Reg.SNT_POISON_VALID = false →
      fieldAt r.payload 4 1 = 4 →
      ∃ t : State, exec (.taintNotice .htu input r) s = .next ((Prog.settle .htu).run t) ∧ t.hx = s.hx ∧ t.h = s.h ∧
        t.rd .htu Reg.SNT_POISON_VALID = 1 ∧ t.rd .htu Reg.SNT_POISON_ORIGIN = fieldAt r.payload 8 4 % 2 ^ 17 ∧
        t.rd .htu Reg.SNT_POISON_COLL_ID = fieldAt r.payload 12 4 ∧ t.rd .htu Reg.SNT_POISON_BLOCK = fieldAt r.payload 16 2 ∧
        t.rd .htu Reg.SNT_POISON_STEP = fieldAt r.payload 0 4) ∧
    (∀ (input : Nat) (r : Rec) (s : State), s.h.inReset = false → r.rsvd = false → fieldAt r.payload 4 1 = 1 →
      let step := BitVec.ofNat 32 (fieldAt r.payload 0 4)
      let l := s.hx.tainted.filter (· != step)
      let b : State := { s with hx := { s.hx with tainted := (l ++ [step]).drop (l.length - 7) } }
      exec (.taintNotice .htu input r) s = .next ((Prog.settle .htu).run ((Prog.replayReq step).run
        ((Prog.sntRec 0x41 step none (fit 24 r.payload)).run b)))) ∧
    (∀ (input : Nat) (r : Rec) (s : State), s.v.inReset = false → r.rsvd = false →
      let step := BitVec.ofNat 32 (fieldAt r.payload 0 4)
      let l := s.vx.tainted.filter (· != step)
      let b : State := if (fieldAt r.payload 4 1).testBit 0 then { s with vx := { s.vx with
          tainted := (l ++ [step]).drop (l.length - 7)
          msteps := s.vx.msteps.map fun m => if m.step = step then { m with taint := true } else m } } else s
      (256 ≤ input → exec (.taintNotice .vta input r) s = .next ((Prog.settle .vta).run ((Prog.noticeDown r).run b))) ∧
      (input < 256 → s.holdsRole s.rootLevel = false →
        exec (.taintNotice .vta input r) s = .next ((Prog.settle .vta).run ((Prog.ethRec true 6 r).run b))) ∧
      (input < 256 → s.holdsRole s.rootLevel = true → (fieldAt r.payload 4 1).testBit 1 = false →
        exec (.taintNotice .vta input r) s = .next ((Prog.settle .vta).run ((Prog.noticeDown r).run b)))) ∧
    ∀ (input : Nat) (r : Rec) (s : State), input < 64 → s.v.inReset = false → r.rsvd = false →
      exec (.replayLost input r) s = .next ((Prog.settle .vta).run
        (if s.rd .vta (Reg.VTA_DIE_JOB_ID input) = s.rd .vta Reg.VTA_JOB_JOB_ID then (Prog.abortDecide 5 r.die).run s else s)))

/-- Partials and merges (R28, R190, R200, R203, R204, R207, R209 to R211): a partial that merges expect joins each of them while a buffer of its input is
free; one that is late is counted, and flags a later result; one of no known sheaf, or for a role not held, is a mismatch; the cutoff starts a
merge, which ends with its result; JOIN and LEAVE change the members.
The degradation ladder (R219, R220): the level rises by its ENTER and falls one by its EXIT thresholds, two epochs ahead; a level from above
is taken with its epoch; the larger of the two is in force from its apply epoch. A level above L4 changes nothing. -/
def Obligations.SheavesAndLadder : Prop :=
  (
    ∀ (l : Level) (s : State), s.v.inReset = false →
      (∀ input r, input < levelInputs l → r.rsvd = false →
        (s.fromHead l input r = false → exec (.sheafPartial l input r) s = .next s ∧ exec (.membership l input r) s = .next s) ∧
        (s.holdsFor l none r = false → exec (.membership l input r) s = .next s)) ∧
      (∀ input r k p, input < levelInputs l → r.rsvd = false → s.fromHead l input r = true → Part.ofPayload r.part r.payload = (k, p) →
        ((∃ m ∈ s.mergesOf l k p.epoch, m.awaits input = true) → exec (.sheafPartial l input r) s = .next
          (if s.bufferFree l input p.epoch then { s with vx := { s.vx with merges := s.vx.merges.map fun m =>
              if (m.level == l && m.key == k && m.epoch == p.epoch && m.awaits input) = true then
                (if p.lost then { m with left := m.left ++ [input], inFlags := m.inFlags ||| p.flags }
                else { m with parts := m.parts ++ [(input, p)] }).ready
              else m } } else s)) ∧
        ((∀ m ∈ s.mergesOf l k p.epoch, m.awaits input = false) →
          (s.mergesOf l k p.epoch ≠ [] ∨ (∃ e ∈ s.mergeColls l k, e.2.takes input = true) →
            s.holdsFor l ((s.mergesOf l k p.epoch).head?.map (·.t)) r = true → exec (.sheafPartial l input r) s = .next
              (let b := s.wr .vta Reg.SHF_ERR_LATE (satAdd Reg.SHF_ERR_LATE.width (s.rd .vta Reg.SHF_ERR_LATE) 1)
              { b with vx := { b.vx with lateNext := b.vx.lateNext ++ [(l, k, p.epoch)] } })) ∧
          (s.v.colls = [] → s.mergesOf l k p.epoch = [] ∨ s.holdsFor l ((s.mergesOf l k p.epoch).head?.map (·.t)) r = false →
            exec (.sheafPartial l input r) s = .next
              (s.wr .vta Reg.SHF_ERR_MISMATCH (satAdd Reg.SHF_ERR_MISMATCH.width (s.rd .vta Reg.SHF_ERR_MISMATCH) 1))))) ∧
      (∀ k ep, exec (.mergeCutoff l k ep) s = .next (
        let cut' (m : Merge) : Merge :=
          if m.level = l ∧ m.key = k ∧ m.epoch = ep ∧ m.t + s.cutoff l ≤ s.ns .vta then { m with started := true } else m
        { s with vx := { s.vx with merges := s.vx.merges.map cut' } })) ∧
      (∀ k ep, (∀ m ∈ s.mergesOf l k ep, m.started = false) → exec (.sheafResult l k ep) s = .next ((Prog.settle .vta).run s)) ∧
      (∀ k ep m, s.mergesOf l k ep = [m] → m.started = true → k.id ≠ 0xFFFF →
        ∃ t : State, exec (.sheafResult l k ep) s = .next ((Prog.settle .vta).run t) ∧
          t.mergesOf l k ep = [] ∧ t.vx.merges = s.vx.merges.filter (· != m) ∧
          ((∃ e ∈ s.mergeColls l k, some e.1 = m.coll) → (l, k, ep) ∈ t.vx.merged ∧ (l, k) ∉ t.vx.missNext ∧
            ∀ e ∈ t.vx.lateNext, e ∈ s.vx.lateNext ∧ ¬(e.1 = l ∧ e.2.1 = k ∧ serialGt 32 ep.toNat e.2.2.toNat = true))) ∧
      (∀ input r, input < levelInputs l → r.rsvd = false → s.holdsFor l none r = true → s.fromHead l input r = true →
        fieldAt r.payload 0 1 ≠ 1 → s.v.colls = [] →
        let k : SheafKey := { id := fieldAt r.payload 2 2, part := r.part, digest := fieldAt r.payload 4 4 }
        let first := s.changeEpoch l k (fieldAt r.payload 12 4)
        ∃ t : State, exec (.membership l input r) s = .next t ∧ t.v = s.v ∧ t.vx = { s.vx with
          members := (s.vx.members.filter fun m => !((m.level == l && m.key == k && m.input == input) && (match m.last with
            | some e => serialGe 32 e.toNat first
            | none => true))) ++ [{ level := l, key := k, input, first := BitVec.ofNat 32 first }] }) ∧
      (∀ input r, input < levelInputs l → r.rsvd = false → s.holdsFor l none r = true → s.fromHead l input r = true →
        fieldAt r.payload 0 1 = 1 → s.v.colls = [] →
        let k : SheafKey := { id := fieldAt r.payload 2 2, part := r.part, digest := fieldAt r.payload 4 4 }
        let mine (m : Member) : Bool := m.level == l && m.key == k && m.input == input
        (s.vx.members.any mine = false → exec (.membership l input r) s = .next s) ∧
        (s.vx.members.any mine = true → ∃ t : State, exec (.membership l input r) s = .next t ∧ t.v = s.v ∧
          t.vx.members = s.vx.members.map (fun m => if mine m then { m with last := some (BitVec.ofNat 32 (fieldAt r.payload 12 4)) } else m) ∧
          t.vx.merges = s.vx.merges.map fun m => if (m.level == l && m.key == k && serialGt 32 m.epoch.toNat (fieldAt r.payload 12 4)
            && m.awaits input) = true then { m with planned := m.planned ++ [input] }.ready else m))) ∧
  (
    ∀ (u : UnitId) (s : State), (s.dev u).inReset = false →
      let d := (s.dev u).ladder
      (∀ n, ([4, 3, 2, 1].filter fun n => d.own < n && s.ladderEnter u n ≤ d.occ).head? = some n →
        exec (.ladderEnter u) s = .next ((Prog.ladderOwn u n).run s)) ∧
      (([4, 3, 2, 1].filter fun n => d.own < n && s.ladderEnter u n ≤ d.occ) = [] → exec (.ladderEnter u) s = .next s) ∧
      (d.own = 0 ∨ s.ladderExit u d.own ≤ d.occ → exec (.ladderExit u) s = .next s) ∧
      (d.own ≠ 0 → d.occ < s.ladderExit u d.own → exec (.ladderExit u) s = .next ((Prog.ladderOwn u (d.own - 1)).run s)) ∧
      (∀ n < 5, n ≠ d.own → s.on u Reg.PWR_CTL_VALID = false → ∃ t : State, (Prog.ladderOwn u n).run s = t ∧
        (t.dev u).ladder = { d with own := n }.plan ((s.epoch u + 2) % 2 ^ 32) false n ∧
        t.rd u Reg.SHF_STATUS_LEVEL = s.rd u Reg.SHF_STATUS_LEVEL ∧
        (d.pend = [] → d.pushIn ≤ 4 → max n d.pushIn ≠ s.rd u Reg.SHF_STATUS_LEVEL → t.rd u Reg.SHF_STATUS_PEND = 1 ∧
          t.rd u Reg.SHF_LADDER_EPOCH_APPLY_EPOCH = (s.epoch u + 2) % 2 ^ 32 ∧ t.rd u Reg.SHF_STATUS_PEND_LEVEL = max n d.pushIn)) ∧
      (∀ n ep, 4 < n → exec (.ladder u n ep) s = .next s) ∧
      (∀ n ep, n ≤ 4 → s.on u Reg.PWR_CTL_VALID = false → ∃ t : State, exec (.ladder u n ep) s = .next t ∧
        (t.dev u).ladder = { d with pushed := n }.plan ep.toNat true n ∧ t.rd u Reg.SHF_STATUS_LEVEL = s.rd u Reg.SHF_STATUS_LEVEL ∧
        t.ddr = s.ddr ∧ t.entity = s.entity) ∧
      ((d.pend.any fun e => serialGe 32 (s.epoch u) e.1) = false → exec (.ladderApply u) s = .next s) ∧
      ((d.pend.any fun e => serialGe 32 (s.epoch u) e.1) = true → (s.dev u).bulk = [] → d.at (s.epoch u) ≤ 4 →
        u = .htu ∨ (s.rd u Reg.TRC_STATUS_PHASE ≠ phaseCirculate ∧ s.rd u Reg.TRC_STATUS_PHASE ≠ phasePost) →
        ∃ t : State, exec (.ladderApply u) s = .next t ∧ (t.dev u).ladder = d.enter (s.epoch u) ∧
          t.rd u Reg.SHF_STATUS_LEVEL = d.at (s.epoch u) ∧ ((d.enter (s.epoch u)).pend = [] → t.rd u Reg.SHF_STATUS_PEND = 0)))

/-- Scoring rows (R272, R275, R290, R298, R302): a cutoff before its time, or of a period already closed, does nothing; after its time it closes the
period, which then waits for a running set; a run set that does not run completes nothing; a scrub that finds an ACTIVE bank's entries changed rewrites them from the
golden copy and counts them; without Gorse no liveness is checked. A period is known by the µs it begins at. -/
def Obligations.ScoringRows : Prop :=
  ∀ s : State, s.v.inReset = false →
    (∀ number,
      let start := s.periodStart number
      let cut' := (start + s.periodUs start + s.rd .vta Reg.HTR_PERIOD_FEATURE_CUTOFF) * 1000
      (s.ns .vta < cut' → exec (.featureCutoff number) s = .next ((Prog.settle .vta).run s)) ∧
      (∀ p vals, s.vx.closedP = some (p, vals) → start < p → exec (.featureCutoff number) s = .next ((Prog.settle .vta).run s)) ∧
      ∀ st r, cut' ≤ s.ns .vta → s.vx.closedP = none → s.on .vta Reg.HTR_STATUS_INIT_DONE = true → s.v.gated = false →
        s.vx.stores = [st] → st.period = start → s.scorable start = true → s.vx.running = some r → s.vx.waitSet = none →
        ∃ t : State, exec (.featureCutoff number) s = .next ((Prog.settle .vta).run t) ∧
          t.vx.closedP = some (start + s.periodUs start, st.vals) ∧
          t.vx.stores = [{ st with closed := true, prev := [] }] ∧ t.vx.waitSet = some start ∧ t.vx.running = some r ∧
          t.vregs = s.vregs) ∧
    (∀ number, (∀ r, s.vx.running = some r → s.isPeriod number r = false) →
      exec (.runSetComplete number) s = .next ((Prog.settle .vta).run s)) ∧
    (∀ number r st, s.vx.running = some r → s.isPeriod number r = true → s.vx.stores = [st] → st.period = r → s.vx.runSlots = [] →
      s.heathJobs = [] → s.gorseUp .vta = false → s.vx.waitSet = none → s.on .vta Reg.VTA_FLT_STREAM_S_VALID = false →
      ∃ t : State, exec (.runSetComplete number) s = .next ((Prog.settle .vta).run t) ∧ t.vx.running = none ∧ t.vx.scored = r ∧
        t.vx.stores = [{ st with scored := true }] ∧ t.vregs = s.vregs ∧ t.v = s.v) ∧
    (∀ bank < 64, ∀ differ : List Nat,
      let gold := s.vx.golden.filter (·.bank == bank)
      let n := (differ.eraseDups.filter fun i => decide (i < gold.length)).length
      (n = 0 ∨ s.rd .vta (Reg.HTR_BANK_STATE bank) ≠ 0 → exec (.tcamScrub bank differ) s = .next ((Prog.settle .vta).run
        { s with vx := { s.vx with scrubQ := s.vx.scrubQ.filter (· != bank) } })) ∧
      (n ≠ 0 → s.rd .vta (Reg.HTR_BANK_STATE bank) = 0 → ∃ t : State, exec (.tcamScrub bank differ) s = .next ((Prog.settle .vta).run t) ∧
        t.vx.tcam = s.vx.tcam.filter (·.bank != bank) ++ gold ∧ t.vx.scrubQ = s.vx.scrubQ.filter (· != bank) ∧
        t.rd .vta (Reg.HTR_BANK_FIXES bank) = satAdd (Reg.HTR_BANK_FIXES bank).width (s.rd .vta (Reg.HTR_BANK_FIXES bank)) n ∧
        (16 < (s.dayFixes bank).length + n → bank ∈ t.vx.bankOut))) ∧
    (s.gorseUp .vta = false → exec .livenessCheck s = .next ((Prog.settle .vta).run s)) ∧
    (s.gorseUp .vta = true → s.v.conns = [] → ∃ t : State, exec .livenessCheck s = .next ((Prog.settle .vta).run t) ∧
      t.rd .vta Reg.VTA_FLT_BUDGET_IN_QUAR = s.inQuar ∧ t.rd .vta Reg.VTA_FLT_BUDGET_LAST_24H = min 255 s.lastDay ∧ t.vx = s.vx ∧ t.v = s.v)

/-- Jobs, roles and replies (R8, R27, R28, R114, R308, R313 to R315, R318, R378): a due start sets the armed job RUNNING and answers; without time it
returns to IDLE; a die that has not replied by T + 10 µs aborts the job; the reply of START_AT is due by the lead of its tree; a standby takes over a
role 2 µs ahead, and the holder before stays it up to then; a change of the role above closes mailbox 9; a final VC1 reply completes its
forwarded command. -/
def Obligations.JobsRolesAndReplies : Prop :=
  ∀ s : State,
    (∀ u, (s.dev u).inReset = false → ((s.jobEntries u).filter fun e => s.due u e.t) = [] →
      exec (.jobStart u) s = .next ((Prog.settle u).run s)) ∧
    (∀ e, s.h.inReset = false → ((s.jobEntries .htu).filter fun e => s.due .htu e.t) = [e] → s.timev .htu = true →
      s.rd .htu Reg.HTU_JOB_STATE = jobArmed → ∃ b : State, exec (.jobStart .htu) s = .next ((Prog.settle .htu).run
        ((Prog.answer .htu e.cmd { status := stOk, result := if e.kind = .job true then 1 else 0 }).run b)) ∧
        b.rd .htu Reg.HTU_JOB_STATE = jobRunning ∧ b.rd .htu Reg.TIM_HIGH_WATER_NS = max (s.rd .htu Reg.TIM_HIGH_WATER_NS) e.t % 2 ^ 64 ∧
        b.hx.rels = (if s.live && !s.hx.relBlocked && !s.on .htu Reg.SNT_STATUS_DRAINED then s.hx.rels ++ [{ step := 0 }] else s.hx.rels)) ∧
    (∀ e, s.h.inReset = false → ((s.jobEntries .htu).filter fun e => s.due .htu e.t) = [e] → s.timev .htu = false →
      s.rd .htu Reg.HTU_JOB_STATE = jobArmed → exec (.jobStart .htu) s = .next ((Prog.settle .htu).run
        ((((Prog.answer .htu e.cmd { status := stDeadline }).run ((Prog.unschedule .htu e).run s)).wr .htu Reg.HTU_JOB_STATE jobIdle).wr .htu
          Reg.HTU_JOB_JOB_ID 0))) ∧
    (s.v.inReset = false →
      (∀ port < 64, exec (.startNoReply port) s = .next ((Prog.settle .vta).run
        (if s.jobLive .vta && s.jobTargets.contains (64 + port) && !s.vx.jobReply.any (·.1 == 64 + port)
            && s.rd .vta Reg.VTA_JOB_T_START + 10000 ≤ s.ns .vta then (Prog.abortDecide 2 (s.dieId .vta + port)).run s else s))) ∧
      exec .startAtReplyDeadline s = .next ((Prog.settle .vta).run
        (if s.rd .vta Reg.VTA_JOB_T_START + s.treeLead ≤ s.ns .vta then Prog.startReply.run s else s)) ∧
      s.treeLead = (match s.topRole with
        | .tray => 10000
        | .rack => 30000
        | .row => 50000
        | .hall => 80000) ∧
      (∀ l, exec (.roleHeartbeat l) s = .next (if l ≠ .tray ∧ s.holdsRole l = true ∧ s.gorseUp .vta = true then
        s.modDev .vta fun d => { d with out := d.out ++ [.ether (s.frame (8 + levelNo l) 5) (.heartbeat l)] } else s)) ∧
      (∀ l, s.gorseUp .vta = false ∨ s.roleAt l = none → exec (.roleTakeover l) s = .next s) ∧
      (∀ l r, s.gorseUp .vta = true → s.roleAt l = some r → r.standby ≠ Config.vtaAddr.toNat ∨ r.holder = Config.vtaAddr.toNat →
        exec (.roleTakeover l) s = .next s) ∧
      (∀ l r, s.gorseUp .vta = true → s.roleAt l = some r → r.standby = Config.vtaAddr.toNat → r.holder ≠ Config.vtaAddr.toNat →
        s.on .vta Reg.VTA_FLT_STREAM_V_VALID = false →
        ∃ t : State, exec (.roleTakeover l) s = .next t ∧ t.vregs = s.vregs ∧ t.v.mbx = s.v.mbx ∧
          t.vx.roles = s.vx.roles.map (fun e => if e.level = l then
            { e with holder := Config.vtaAddr.toNat, standby := r.holder, since := s.ns .vta + 2000, prev := r.holder } else e)) ∧
      (∀ r, s.gorseUp .vta = false → exec (.roleChange r) s = .next s) ∧
      (∀ r, s.gorseUp .vta = true → r.rsvd = false → fieldAt r.payload 0 1 < 2 ∨ 4 < fieldAt r.payload 0 1 →
        exec (.roleChange r) s = .next s) ∧
      (∀ r l, s.gorseUp .vta = true → r.rsvd = false → l ≠ .tray → fieldAt r.payload 0 1 = levelNo l →
        sameUnit l (fieldAt r.payload 4 4 % 2048) = true → s.on .vta Reg.VTA_FLT_STREAM_V_VALID = false →
        ∃ t : State, exec (.roleChange r) s = .next t ∧
          t.vx.roles = s.vx.roles.map (fun e => if e.level = l ∧ e.holder ≠ fieldAt r.payload 4 4 % 2048 then
            { e with holder := fieldAt r.payload 4 4 % 2048, since := fieldAt r.payload 8 8, prev := e.holder } else e) ∧
          (∀ off, off ≠ (Reg.MBX_STATUS_OPEN 9).off → t.word .vta off = s.word .vta off) ∧
          (levelNo l = levelNo s.topRole + 1 → t.on .vta (Reg.MBX_STATUS_OPEN 9) = false ∧
            (t.mb .vta 9).bound = false ∧ (t.mb .vta 9).keyEx = false)) ∧
      ∀ (l : Level) (e : RoleSt) (t : Nat), l ≠ .tray → s.roleAt l = some e →
        (t ≤ e.since → (s.holdsRoleAt l t = true ↔ e.prev = Config.vtaAddr.toNat)) ∧
        (e.since < t → (s.holdsRoleAt l t = true ↔ e.holder = Config.vtaAddr.toNat))) ∧
    ∀ (u : UnitId) (port : Nat) (r : ReplyMsg), port < (match u with | .htu => 1 | .vta => 64) → (s.dev u).inReset = false →
      (((s.conn u port).fwds.find? fun f => f.tag == r.tag && r.status.toNat != stAccepted) = none →
        exec (.vc1Reply u port r) s = .next ((Prog.settle u).run s)) ∧
      ∀ f, ((s.conn u port).fwds.find? fun f => f.tag == r.tag && r.status.toNat != stAccepted) = some f →
        exec (.vc1Reply u port r) s = .next ((Prog.settle u).run ((Prog.fwdDone u f { status := r.status.toNat, detail := r.detail.toNat
                                                                                      result := r.result.toNat, data := r.data }).run
          ((Prog.modConn u port fun k => { k with fwds := k.fwds.filter (·.tag != r.tag) }).run s)))

/-- Records at the VTA (R369, R390, R394): a record outside policing, and not ORD, goes to its consumers at once (its sequence is kept for the stream's end); a record held behind a gap is
delivered when it is the one expected, and discarded when it was delivered before; a red record, and a yellow one of a full ingress, is counted and a LOSS
record takes its place; a gap of nothing changes nothing; a segment closes when its row names one that is open. A record whose reserved fields are not zero
counts at its port (R8), and is taken with zeros.
A datagram to mailbox 9 (R114, R317, R435): an SPDM request is answered where Gorse runs; a command is a packet of mailbox 9; a reply of a
unit below, and an abort request, act as their kind says, an abort request in one frame where that is no longer than 9,216 bytes (R434). What an SPDM message
says is an open constant of the model (log 30). -/
def Obligations.RecordsAndDatagrams : Prop :=
  (
    ∀ s : State, s.v.inReset = false →
      (∀ port < 64, ∀ (c : BitVec 2) (r : Rec), r.rsvd = true → exec (.recordIngress port c r) s =
        exec (.recordIngress port c r.clean) ((Prog.rsvdPort .vta port true).run s)) ∧
      (∀ port < 64, ∀ (c : BitVec 2) (r : Rec), r.rsvd = false →
        let unpoliced := (s.rd .vta (Reg.SCH_POL_CIR r.part) = 0 ∧ s.rd .vta (Reg.SCH_POL_PIR r.part) = 0) ∨ (r.part = 0 ∧ serviceOf r = 0)
        (unpoliced → exec (.recordIngress port c r) s = .next ((Prog.settle .vta).run
          (if r.ord then (Prog.ordRecord r).run s else (Prog.plainRecord r).run s))) ∧
        (¬ unpoliced → ∀ colour missC missP, s.meter r.part r.size c.toNat = (colour, missC, missP) →
          let b : State := { s with vx := { s.vx with
            polC := Sparse.put s.vx.polC r.part missC, polP := Sparse.put s.vx.polP r.part missP
            polT := Sparse.put s.vx.polT r.part s.v.ticks } }
          let gap := s.vtaLoss r.die r.part r.stream r.seq r.seq 1 lossPolice r.ord
          let dropped (f : Fld) : State :=
            let b' := b.wr .vta f (satAdd f.width (b.rd .vta f) 1)
            if r.ord then (Prog.ordRecord gap).run b' else (Prog.plainRecord gap).run b'
          (colour = red → exec (.recordIngress port c r) s = .next ((Prog.settle .vta).run (dropped (Reg.SCH_POL_RED_DROPPED r.part)))) ∧
          (colour = yellow → s.rd .vta Reg.SCH_INGRESS_YELLOW_DROP ≤ s.ingressOcc →
            exec (.recordIngress port c r) s = .next ((Prog.settle .vta).run (dropped (Reg.SCH_POL_YELLOW_DROPPED r.part)))) ∧
          (colour = green ∨ (colour = yellow ∧ s.ingressOcc < s.rd .vta Reg.SCH_INGRESS_YELLOW_DROP) →
            exec (.recordIngress port c r) s = .next ((Prog.settle .vta).run
              (if r.ord then (Prog.ordRecord r).run b else (Prog.plainRecord r).run b))))) ∧
      (∀ (r : Rec) (g : Ingress) (n : Nat), s.ingressOf r.die r.side r.stream = some g → g.ord = true → g.next = some n →
        (serialGt 32 n r.seq = true → r.seq ≠ 0 ∨ g.zeroLost = true → (Prog.ordRecord r).run s = s) ∧
        (r.seq = n → n < 2 ^ 32 → g.held = [] → (Prog.ordRecord r).run s = (Prog.consume r).run
          ((Prog.modIngress { g with next := some (seqAfter r), held := [] }).run s)) ∧
        (serialGt 32 n r.seq = false → r.seq ≠ n % 2 ^ 32 →
          (Prog.ordRecord r).run s = (Prog.modIngress { g with held := g.held ++ [r] }).run s)) ∧
      (∀ die unit stream, s.ingressOf die unit stream = none → exec (.gapWaitExpiry die unit stream) s = .next s) ∧
      (∀ die unit stream g, s.ingressOf die unit stream = some g → g.held = [] → exec (.gapWaitExpiry die unit stream) s = .next s) ∧
      (∀ die unit stream g r n, s.ingressOf die unit stream = some g → g.held = [r] → g.next = some n → n ≠ r.seq →
        exec (.gapWaitExpiry die unit stream) s = .next ((Prog.deliverFrom
          { g with zeroLost := g.zeroLost || decide (serialDiff 32 0 n < serialDiff 32 r.seq n) } r.seq).run ((Prog.consume
          (s.vtaLoss die r.part stream n ((r.seq + 2 ^ 32 - 1) % 2 ^ 32) (serialDiff 32 r.seq n) lossLink true)).run s))) ∧
      (∀ die unit stream, (s.vx.segs.find? fun g => g.die == die && g.unit == unit && g.stream == stream) = none →
        exec (.archiveSegmentClose die unit stream) s = .next s) ∧
      (∀ die unit stream g, (s.vx.segs.find? fun g => g.die == die && g.unit == unit && g.stream == stream) = some g →
        exec (.archiveSegmentClose die unit stream) s = .next ((Prog.closeSegment g).run s))) ∧
  (
    ∀ s : State, s.v.inReset = false →
      (∀ b, s.gorseUp .vta = false → exec (.mailbox9Datagram (.spdm none b)) s = .next s) ∧
      (∀ b, s.gorseUp .vta = true → exec (.mailbox9Datagram (.spdm none b)) s =
        .next ((Prog.respond .vta 9 b fun a => .send .vta (.spdm 0 a)).run s)) ∧
      (∀ n b, exec (.mailbox9Datagram (.spdm (some n) b)) s =
        .next (if s.gorseUp .vta then (Prog.spdmRx .vta (64 + n) true b).run s else s)) ∧
      (∀ op p, exec (.mailbox9Datagram (.command op p)) s = .next ((Prog.command .vta 9 op.toNat p).run s)) ∧
      (∀ n params, exec (.mailbox9Datagram (.abortRequest n params)) s = .next ((Prog.settle .vta).run
        (if fieldAt params 0 4 = s.rd .vta Reg.VTA_JOB_JOB_ID ∧ s.jobLive .vta = true then
          (if s.on .vta Reg.VTA_JOB_ROOT then (Prog.rootAbort (fieldAt params 4 1) (fieldAt params 8 4)).run s
          else if 16 + params.length + (s.frame 0 5).overhead ≤ 9216 then
            s.modDev .vta fun d => { d with out := d.out ++ [.ether (s.frame 0 5) (.ethAbort params)] } else s) else s))) ∧
      ∀ n r, exec (.mailbox9Datagram (.reply n r)) s = .next ((Prog.settle .vta).run ((Prog.replyBelow n r).run s)))

/-- Training and the loss of a port (R3, R372, R373, R375, R380, R399, R437): a port whose peer is not the one expected is refused and recorded; one whose
lanes fail stays DOWN and names them; a port that trains is UP; a peer found wakes a DOWN port; a lost clock takes the port DOWN; BYE and CONN move the
connections; an ADD that is not answered in time is aborted. -/
def Obligations.PortsTrainAndFall : Prop :=
  ∀ (u : UnitId) (k : Nat) (s : State), k < portCount u → (s.dev u).inReset = false →
    let st := s.rd u (Reg.FUR_PORT_STATE k)
    let known := [portDown, portTraining, portRetrain].contains st && !(s.port u k).refused && (s.fn u (fidPort k)).st == .running
    let bad (r : TrainRun) : Prop := r.part % 4096 ≠ peerPart u k ∨ (r.part % 4096 = 0x4A2 ∧ r.gen % 16 = 1)
    (∀ r : TrainRun,
      (known = false → exec (.training u k r) s = .next ((Prog.settle u).run s)) ∧
      (known = true → r.peer = false → exec (.training u k r) s =
        .next ((Prog.settle u).run (s.wr u (Reg.FUR_PORT_STATE k) portDown))) ∧
      (known = true → r.peer = true → bad r → ∃ t : State, exec (.training u k r) s = .next ((Prog.settle u).run t) ∧
        t.rd u (Reg.FUR_PORT_STATE k) = portDown ∧ t.rd u (Reg.FUR_PORT_PEER_PART k) = r.part % 4096 ∧
        t.rd u (Reg.FUR_PORT_PEER_GEN k) = r.gen % 16 ∧ (t.port u k).refused = true) ∧
      (known = true → r.peer = true → ¬ bad r → r.laneFail ≠ 0 → ∃ t : State,
        exec (.training u k r) s = .next ((Prog.settle u).run t) ∧ t.rd u (Reg.FUR_PORT_STATE k) = portDown ∧
        t.rd u (Reg.FUR_PORT_LANE_FAIL k) = r.laneFail.toNat ∧ (t.port u k).refused = (s.port u k).refused) ∧
      (known = true → r.peer = true → ¬ bad r → r.laneFail = 0 → (s.conn u (match u with | .htu => 0 | .vta => k)).peerNo = none →
        (s.port u k).add = none → ∃ t : State, exec (.training u k r) s = .next ((Prog.settle u).run t) ∧
        t.rd u (Reg.FUR_PORT_STATE k) = portUp ∧ t.rd u (Reg.FUR_PORT_LANE_FAIL k) = 0 ∧
        t.rd u (Reg.FUR_PORT_UP_NS k) = s.ns u) ∧
      (st = portDown → exec (.trainingRetry u k r) s = exec (.training u k r) s) ∧
      (st ≠ portDown → exec (.trainingRetry u k r) s = .next ((Prog.settle u).run s))) ∧
    (∀ found, st ≠ portDown → exec (.peerSense u k found) s = .next s) ∧
    (st = portDown → exec (.peerSense u k false) s = .next ((Prog.modPort u k fun p => { p with refused := false }).run s) ∧
      exec (.peerSense u k true) s = .next (if (s.port u k).refused = false ∧ (s.fn u (fidPort k)).st = .running then
        s.wr u (Reg.FUR_PORT_STATE k) portTraining else s)) ∧
    (let b := if [portTraining, portUp, portRetrain].contains st then (Prog.portLeaves u k portDown).run s else s
    exec (.forwardedClockLoss u k) s = .next ((Prog.settle u).run (match u with
      | .htu => if s.timePort .htu = some k then (Prog.timeSourceLost .htu).run b else b.wr .htu (pllRdy .htu k) 0
      | .vta => b))) ∧
    (∀ v, ((Prog.portLeaves u k v).run s).rd u (Reg.FUR_PORT_STATE k) = v % 8) ∧
    (∀ die number, (u = .vta → (portConns .vta k).contains (die % 64) = false → exec (.conn u k die number) s =
      .next ((Prog.settle u).run s)) ∧
      (∀ c, c = (match u with | .htu => 0 | .vta => die % 64) → (u = .vta → (portConns .vta k).contains (die % 64) = true) →
        (s.conn u c).peerNo = none ∨ (s.conn u c).peerNo = some number → exec (.conn u k die number) s = .next ((Prog.settle u).run
          ((Prog.repath u c).run ((Prog.modConn u c fun n => { n with peerNo := some number, die := s.connDie u c }).run s))))) ∧
    exec (.bye u k) s = .next ((Prog.repathAll u k).run ((Prog.modPort u k fun p => { p with byed := true }).run s)) ∧
    ((s.port u k).add = none → exec (.hotplugAddTimeout u k) s = .next ((Prog.settle u).run s)) ∧
    ∀ c, (s.port u k).add = some c → exec (.hotplugAddTimeout u k) s = .next ((Prog.settle u).run
      (let b := (Prog.modPort u k fun q => { q with add := none }).run s
      (Prog.answer u (some c) { status := stAborted, detail := 0x101 }).run (if st = portTraining then b.wr u (Reg.FUR_PORT_STATE k) portDown else b)))

/-- Flits and their slots (R8, R219, R376, R377, R379, R389, R391, R396): a port that is not UP takes and sends none; a flit with a bad CRC-32 or a reserved KIND is
counted, as is one whose reserved fields are not zero; one out of sequence is answered with NAK; a good one acts in its order; the retry timeout resends; an idle slot sends an IDLE flit;
queue depths are sampled; a connection without a path for too long aborts what it forwarded. -/
def Obligations.FlitsKeepTheirSequence : Prop :=
  ∀ (u : UnitId) (k : Nat) (s : State), k < portCount u → (s.dev u).inReset = false →
    let up := s.rd u (Reg.FUR_PORT_STATE k) = portUp
    let p := s.port u k
    let rx := s.wr u (Reg.FUR_PORT_RX_FLITS k) (s.rd u (Reg.FUR_PORT_RX_FLITS k) + 1)
    let crc (t : State) : State := t.wr u (Reg.FUR_PORT_CRC_ERR k) (satAdd 16 (t.rd u (Reg.FUR_PORT_CRC_ERR k)) 1)
    (¬ up → (∀ b, exec (.dataFlit u k b) s = .next s) ∧ exec (.retryTimeout u k) s = .next s ∧ exec (.flitSlot u k) s = .next s) ∧
    (∀ b, up → Flit.ofBytes b = none → exec (.dataFlit u k b) s =
      .next ((Prog.modPort u k fun p => { p with nakOut := true }).run (crc rx))) ∧
    (∀ b f, up → Flit.ofBytes b = some f →
      (f.kind = 3 → exec (.dataFlit u k b) s = .next (crc rx)) ∧
      (f.kind ≠ 3 →
        let rx' := if f.rsvd then crc rx else rx
        let heard := (Prog.cond (u == .vta) (.opt (rx'.flitConn u k f) fun c => .vta fun x => { x with furAt := Sparse.put x.furAt c s.stamp })).run rx'
        let t := (Prog.creditRx u k f).run ((Prog.ackRx u k f).run heard)
        (f.kind = kindIdle → exec (.dataFlit u k b) s = .next ((Prog.settle u).run ((Prog.flitBody u k f).run t))) ∧
        (f.kind ≠ kindIdle → f.fseq ≠ p.fseqRx → exec (.dataFlit u k b) s =
          .next ((Prog.settle u).run ((Prog.modPort u k fun p => { p with nakOut := true }).run t))) ∧
        (f.kind ≠ kindIdle → f.fseq = p.fseqRx → exec (.dataFlit u k b) s = .next ((Prog.settle u).run ((Prog.flitBody u k f).run
          ((Prog.modPort u k fun p => { p with fseqRx := (f.fseq + 1) % 4096 }).run t)))))) ∧
    (up → p.retry = [] → exec (.retryTimeout u k) s = .next s) ∧
    (up → p.retry ≠ [] → p.retries + 1 < 16 → ∃ t : State, exec (.retryTimeout u k) s = .next t ∧
      t.rd u (Reg.FUR_PORT_RETRIES k) = satAdd 16 (s.rd u (Reg.FUR_PORT_RETRIES k)) 1 ∧
      t.port u k = { p with resend := p.retry, retries := p.retries + 1 } ∧ t.rd u (Reg.FUR_PORT_STATE k) = portUp) ∧
    (up → p.resend = [] → p.retry.length < 64 → p.relay = [] → p.ctl = [] → p.time = [] → (s.dev u).conns = [] → ∃ t : State, ∃ b : List Byte,
      exec (.flitSlot u k) s = .next t ∧ (t.dev u).out = (s.dev u).out ++ [.flit k b] ∧ b.length = 256 ∧ fieldAt b 0 1 % 4 = kindIdle ∧
      t.rd u (Reg.FUR_PORT_TX_FLITS k) = (s.rd u (Reg.FUR_PORT_TX_FLITS k) + 1) % 2 ^ 64 ∧ (t.port u k).retry = p.retry) ∧
    (up → p.resend = [] → 64 ≤ p.retry.length → exec (.flitSlot u k) s = .next
      (let b := (Prog.fillParts u).run s; (b.idleFlit u k).run b)) ∧
    (∀ n b l, up → p.resend = (n, b) :: l → exec (.flitSlot u k) s = .next ((Prog.departAgain u k n b).run ((Prog.fillParts u).run s))) ∧
    (∀ g : Option Nat, g = (((s.dev u).captures ++ (s.dev u).taken).find? fun t =>
        t + s.rd u Reg.SCH_GATE_GATE_START ≤ s.ns u && s.ns u < t + s.rd u Reg.SCH_GATE_GATE_END) →
      exec (.timeGate u) s = .next (s.modDev u fun d => { d with gate := g })) ∧
    (∃ t : State, exec (.queueSample u) s = .next t ∧ (t.dev u).ladder.occ = s.occupancy u ∧ t.hx = s.hx ∧ t.vx = s.vx ∧
      ∀ q < 256, ∀ v < 6, t.rd u (Reg.SCH_Q_DEPTH q v) = min (s.queueDepth u q v).1 (2 ^ 24 - 1)) ∧
    ∀ c, c < (match u with | .htu => 1 | .vta => 64) →
      exec (.noPathTimeout u c) s = .next ((Prog.settle u).run
        (let b := if u = .htu then (Prog.repath u c).run s else s
        if (b.conn u c).path = none then (Prog.abortFwds u c).run b else b))

/-- The exchange of fleet time on a Furrow port (R136 to R142, R149, R156): the VTA sends SYNC and answers; the HTU stamps SYNC, takes the flags of its
active port, discards a DLY_RESP that it did not ask for or that no SYNC came before, and completes the exchange of one that it did: offset, delay, SRC, and a
step (none to a master without valid time) or a new INC. Where an arrival falls within the cycle is the row's sub-tick phase (log 136); INC at a step is the
model's choice (log 123).
PTP on the uplinks (R144 to R146): a message of the other transport is not received (log 133); one of another domain, and a Pdelay, Signaling or Management
message, is discarded and counted, as is an Announce from a grandmaster not listed; a Sync stamps the SLAVE uplink by the VTA's own counter, its time from the
Follow_Up where one follows; a Delay_Resp completes the exchange that it answers; a SLAVE uplink that hears no Announce hands over to the PASSIVE one. -/
def Obligations.ExchangesSetFleetTime : Prop :=
  (
    ∀ (u : UnitId) (k : Nat) (m : TimeMsg) (s : State), k < portCount u → (s.dev u).inReset = false →
      (∀ sub, s.stampAt u sub = s.ns16 u + sub % 8 * 65536 / 10) ∧
      (∀ sub, u = .vta → exec (.sync u k m sub) s = .next s) ∧
      (∀ sub, u = .htu → ∃ t : State, exec (.sync u k m sub) s = .next t ∧
        t.servo u k = { s.servo u k with
          t1 := m.ts, t2 := s.stampAt u sub, sync := true, mTimev := m.timev, mInc := m.inc
          good := if s.timePort u = some k ∧ m.timev = false then 0 else (s.servo u k).good
          bad := if s.timePort u = some k ∧ m.timev = false then 0 else (s.servo u k).bad } ∧
        (s.timePort u ≠ some k → t.hregs = s.hregs) ∧
        (s.timePort u = some k → t.rd u Reg.TIM_STATUS_UP_HOLD = m.hold.toNat ∧
          (m.timev = false → t.timev u = false ∧ t.on u Reg.TIM_STATUS_LOCK = false) ∧
          (m.timev = true → t.timev u = s.timev u ∧ t.on u Reg.TIM_STATUS_LOCK = s.on u Reg.TIM_STATUS_LOCK))) ∧
      (∀ sub, isMaster u k = false → exec (.dlyReq u k m sub) s = .next s) ∧
      (∀ sub, isMaster u k = true → exec (.dlyReq u k m sub) s = .next ((Prog.modPort u k fun p =>
        { p with time := p.time ++ [timeBytes 3 (s.timeFlags u) m.seq (s.stampAt u sub) 0] }).run s)) ∧
      (u = .vta ∨ (s.servo u k).t3 = none ∨ (s.servo u k).sync = false → exec (.dlyResp u k m) s = .next ((Prog.settle u).run s)) ∧
      (∀ q t3, u = .htu → (s.servo u k).t3 = some (q, t3) → (s.servo u k).sync = true →
        let v := s.servo u k
        (q ≠ m.seq → exec (.dlyResp u k m) s = .next ((Prog.settle u).run s)) ∧
        (q = m.seq → s.timePort u ≠ some k → exec (.dlyResp u k m) s = .next ((Prog.settle u).run
          ((Prog.modServo u k fun w => { w with t3 := none, sync := false, missed := 0, sinceV := if v.mTimev then 0 else w.sinceV }).run s))) ∧
        (q = m.seq → s.timePort u = some k →
          let d1 : Int := (v.t2 : Int) - v.t1
          let d2 : Int := (m.ts : Int) - t3
          let n : Int := 10 * (d1 - d2) - 65536 * s.asym k
          ∃ t : State, exec (.dlyResp u k m) s = .next ((Prog.settle u).run t) ∧ t.rd u Reg.TIM_STATUS_HOLD = 0 ∧
            t.rd u Reg.TIM_STATUS_SRC = srcCode u k ∧ t.rd u Reg.TIM_OFFSET_OFFSET = ofSigned 32 (divOpen n 131072) ∧
            t.rd u Reg.TIM_DELAY_DELAY = ofSigned 32 (divOpen ((d1 + d2) * 5) 65536) ∧ (t.dev u).sw = none ∧
            (s.rd u Reg.TIM_CTL_STEP_THRESH * 1000 * 20 * 65536 < n.natAbs → t.rd u Reg.TIM_INC_INC = s.rd u Reg.TIM_INC_INC ∧
              (v.mTimev = true → (t.dev u).stepped = true ∧ t.on u Reg.TIM_STATUS_LOCK = false ∧ t.timev u = false ∧
                (t.dev u).cnt = (s.dev u).cnt + BitVec.ofInt 96 (divOpen (-n * 16384) 5)) ∧
              (v.mTimev = false → (t.dev u).cnt = (s.dev u).cnt)) ∧
            (n.natAbs ≤ s.rd u Reg.TIM_CTL_STEP_THRESH * 1000 * 20 * 65536 → (t.dev u).cnt = (s.dev u).cnt ∧ (t.dev u).timeSet = true ∧
              let c := limit50 (-n) (20 * 65536 * s.exchInterval u k)
              t.rd u Reg.TIM_INC_INC = clampInc (v.mInc + divNearest (v.mInc * c.1) c.2)))) ∧
      (s.rd u (Reg.FUR_PORT_STATE k) ≠ portUp → exec (.exchangeInterval u k) s = .next s) ∧
      (s.rd u (Reg.FUR_PORT_STATE k) = portUp → ∃ t : State, exec (.exchangeInterval u k) s = .next t ∧
        (t.servo u k).missed = (s.servo u k).missed + 1 ∧ (t.servo u k).sinceV = (s.servo u k).sinceV + 1 ∧
        (t.servo u k).seqOut = ((s.servo u k).seqOut + 1) % 65536 ∧
        (t.port u k).time = (s.port u k).time
          ++ (if isMaster u k then [timeBytes 1 (s.timeFlags u) (s.servo u k).seqOut 0 (s.rd u Reg.TIM_INC_INC)] else [])
          ++ (if isSlave u then [timeBytes 2 (s.timeFlags u) (s.servo u k).seqOut 0 0] else []) ∧ t.hregs = s.hregs ∧ t.vregs = s.vregs)) ∧
  (
    ∀ s : State, s.v.inReset = false →
      (∀ k < 2, ∀ (m : PtpMsg) (gm : Word) (x : PtpTime),
        let discard := s.wr .vta Reg.TIM_PTP_STATUS_DISCARDS
          (satAdd Reg.TIM_PTP_STATUS_DISCARDS.width (s.rd .vta Reg.TIM_PTP_STATUS_DISCARDS) 1)
        let slave := s.rd .vta (ptpPort k) = 5
        let here := m.udp = s.on .vta Reg.TIM_PTP_CFG_TRANSPORT
        let taken := here ∧ m.other = false ∧ m.domain = s.rd .vta Reg.TIM_PTP_CFG_DOMAIN
        let mine := slave ∧ s.gmIndex gm = some (s.rd .vta Reg.TIM_PTP_STATUS_GM_INDEX)
        let v := s.servo .vta (64 + k)
        (¬ here → (∀ sub, exec (.ptpSync k m gm x sub) s = .next s) ∧ exec (.ptpDelayResp k m x.seq x.ts) s = .next ((Prog.settle .vta).run s) ∧
          exec (.ptpAnnounce k m gm) s = .next s) ∧
        (here → ¬ taken → (∀ sub, exec (.ptpSync k m gm x sub) s = .next discard) ∧
          exec (.ptpDelayResp k m x.seq x.ts) s = .next ((Prog.settle .vta).run discard) ∧ exec (.ptpAnnounce k m gm) s = .next discard) ∧
        (taken →
          (∀ sub, ¬ mine → exec (.ptpSync k m gm x sub) s = .next s) ∧
          (∀ sub, mine → x.form = .oneStep → exec (.ptpSync k m gm x sub) s = .next
            ((Prog.ptpTimes k (x.ts + m.corr).toNat (s.stampAt .vta sub - Config.mdiLatency k)).run s)) ∧
          (∀ sub, mine → x.form = .twoStep → exec (.ptpSync k m gm x sub) s = .next
            ((Prog.modServo .vta (64 + k) fun v => { v with wait := some (x.seq, s.stampAt .vta sub - Config.mdiLatency k, m.corr) }).run s)) ∧
          (∀ sub, mine → x.form = .followUp → (∀ w, v.wait = some w → w.1 ≠ x.seq) → exec (.ptpSync k m gm x sub) s = .next s) ∧
          (∀ sub t2 corr, mine → x.form = .followUp → v.wait = some (x.seq, t2, corr) → exec (.ptpSync k m gm x sub) s = .next
            ((Prog.ptpTimes k (x.ts + m.corr + corr).toNat t2).run s)) ∧
          (∀ t1 t2, ∃ t : State, (Prog.ptpTimes k t1 t2).run s = t ∧ (t.servo .vta (64 + k)).t1 = t1 ∧ (t.servo .vta (64 + k)).t2 = t2 ∧
            (t.servo .vta (64 + k)).sync = true) ∧
          (¬ slave ∨ v.t3 = none ∨ v.sync = false → exec (.ptpDelayResp k m x.seq x.ts) s = .next ((Prog.settle .vta).run s)) ∧
          (∀ t3, slave → v.t3 = some (x.seq, t3) → v.sync = true → exec (.ptpDelayResp k m x.seq x.ts) s =
            .next ((Prog.settle .vta).run ((Prog.exchange .vta (64 + k) t3 (x.ts - m.corr).toNat 0 s.syncInterval).run s))) ∧
          (s.gmIndex gm = none → exec (.ptpAnnounce k m gm) s = .next discard) ∧
          (∀ i, s.gmIndex gm = some i → ∃ t : State, exec (.ptpAnnounce k m gm) s = .next t ∧
            (t.servo .vta (64 + k)).annMiss = 0 ∧ (t.servo .vta (64 + k)).mTimev = true ∧
            (i < s.rd .vta Reg.TIM_PTP_STATUS_GM_INDEX → t.rd .vta Reg.TIM_PTP_STATUS_GM_INDEX = i) ∧
            (s.rd .vta Reg.TIM_PTP_STATUS_GM_INDEX < i → (s.servo .vta 64).mTimev = true → Sparse.get 0 s.vx.gmHeard i < 2 →
              t.rd .vta Reg.TIM_PTP_STATUS_GM_INDEX = s.rd .vta Reg.TIM_PTP_STATUS_GM_INDEX) ∧
            (slave → t.rd .vta (ptpPort k) = 5) ∧ (¬ slave → s.rd .vta (ptpPort (1 - k)) = 5 → t.rd .vta (ptpPort k) = 3))) ∧
        ∃ t : State, exec (.announceTimeout k) s = .next t ∧ t.rd .vta (ptpPort k) = 2 ∧
          (t.servo .vta (64 + k)).annMiss = 3 ∧ (t.servo .vta (64 + k)).mTimev = false ∧
          (slave → s.rd .vta (ptpPort (1 - k)) = 3 → t.rd .vta (ptpPort (1 - k)) = 5) ∧
          (¬ slave → t.rd .vta (ptpPort (1 - k)) = s.rd .vta (ptpPort (1 - k)))) ∧
      ∀ sub : Nat,
        ((∀ k < 2, s.rd .vta (ptpPort k) ≠ 5) → exec (.ptpDelayReq sub) s = .next s) ∧
        ∀ k, ((List.range 2).find? fun k => s.rd .vta (ptpPort k) == 5) = some k → ∃ t : State, exec (.ptpDelayReq sub) s = .next t ∧
          (t.servo .vta (64 + k)).t3 = some (s.vx.ptpSeq, s.stampAt .vta sub + Config.mdiLatency k) ∧
          t.v.out = s.v.out ++ [.delayReq k s.vx.ptpSeq] ∧
          t.vx.ptpSeq = (s.vx.ptpSeq + 1) % 65536 ∧ t.vregs = s.vregs)

/-- The time domain and its sources (R131, R147 to R156, R161): a tick adds INC and every eighth is published; four missed intervals start holdover, which ends
TIMEV after HOLD_MAX; a planned switch adds the 64 cycles of its gap; a lost source clears TIMEV and LOCK, sets SAFE and stops the counter; a PLL that locks lets the
first port start it. -/
def Obligations.TheCounterAndItsSources : Prop :=
  ∀ (u : UnitId) (s : State), (s.dev u).inReset = false →
    let d := s.dev u
    (d.gated = true → exec (.timeDomainTick u) s = .next s) ∧
    (d.gated = false →
      let c := (Prog.tick u).run s
      (c.dev u).cnt = d.cnt + BitVec.ofNat 96 (s.rd u Reg.TIM_INC_INC) ∧ (c.dev u).ticks = d.ticks + 1 ∧
      ((d.ticks + 1) % 8 = 0 → c.rd u Reg.TIM_NOW_NS = c.ns u ∧ (c.dev u).pubFrac = BitVec.ofNat 16 (c.ns16 u)) ∧
      ((d.ticks + 1) % 8 ≠ 0 → c.hregs = s.hregs ∧ c.vregs = s.vregs) ∧
      (c.epoch u = s.epoch u → d.engines = [] → exec (.timeDomainTick u) s = .next c) ∧
      (c.epoch u ≠ s.epoch u → d.engines = [] →
        (∀ e ∈ (c.dev u).streams, e.2.lossFrom.map (·.2.2) ≠ some lossLadder) → exec (.timeDomainTick u) s = .next c)) ∧
    (∀ lost : Bool, lost = ((match s.timePort u with
        | some k => decide ((s.servo u k).missed ≥ 4)
        | none => false) || (u == .vta && (s.servo .vta 64).annMiss ≥ 3 && (s.servo .vta 65).annMiss ≥ 3)) →
      (lost = false ∨ d.gated = true ∨ s.rd u Reg.TIM_STATUS_SRC = 5 ∨ s.on u Reg.TIM_STATUS_HOLD = true →
        exec (.holdoverEntry u) s = .next s) ∧
      (lost = true → d.gated = false → s.rd u Reg.TIM_STATUS_SRC ≠ 5 → s.on u Reg.TIM_STATUS_HOLD = false →
        let b := (s.wr u Reg.TIM_STATUS_HOLD 1).wr u Reg.TIM_STATUS_LOCK 0
        exec (.holdoverEntry u) s = .next (if s.on u Reg.TIM_CTL_HOLD_MAX then b else b.wr u Reg.TIM_STATUS_TIMEV 0))) ∧
    exec (.holdMaxExpiry u) s = .next ((Prog.settle u).run (if s.on u Reg.TIM_STATUS_HOLD then s.wr u Reg.TIM_STATUS_TIMEV 0 else s)) ∧
    (u = .htu → d.sw = none → exec .switchGate s = .next ((Prog.settle u).run s)) ∧
    (u = .htu → ∀ w, d.sw = some w → w.moved = true ∨ d.gated = true ∨ s.switchReady .htu w.target = false
      ∨ (s.instantNear = true ∧ d.ticks < w.since + 125000) → exec .switchGate s = .next ((Prog.settle u).run s)) ∧
    (u = .htu → ∀ w, d.sw = some w → w.moved = false → d.gated = false → s.switchReady .htu w.target = true →
      s.instantNear = false ∨ w.since + 125000 ≤ d.ticks →
      ∃ t : State, exec .switchGate s = .next ((Prog.settle u).run t) ∧
        t.h.cnt = d.cnt + BitVec.ofNat 96 (64 * s.rd .htu Reg.TIM_INC_INC) ∧
        t.h.ticks = d.ticks + 64 ∧ t.h.sw = some { w with moved := true }) ∧
    (u = .htu → exec .switchBackToPortA s = .next (if s.timePort .htu = some 1 ∧ s.rd .htu Reg.TIM_CTL_SRC_PREF = 0
        ∧ s.rd .htu (Reg.FUR_PORT_STATE 0) = portUp ∧ s.switchReady .htu 0 = true then
      s.modDev .htu fun d => { d with sw := some { target := 0, since := d.ticks } } else s)) ∧
    (d.gated = true ∨ (u = .htu ∧ s.timePort u = none) → exec (.timeSourceLoss u) s = .next s) ∧
    (d.gated = false → u = .vta ∨ s.timePort u ≠ none → ∃ t : State, exec (.timeSourceLoss u) s = .next t ∧ t.timev u = false ∧
      t.on u Reg.TIM_STATUS_LOCK = false ∧ t.on u Reg.TIM_STATUS_SAFE = true ∧ (t.dev u).gated = true ∧ (t.dev u).sw = none ∧
      (t.dev u).cnt = d.cnt ∧ t.rd u Reg.TIM_STATUS_LOSSES = min 255 (s.rd u Reg.TIM_STATUS_LOSSES + 1)) ∧
    (d.gated = false ∨ s.on u Reg.TIM_STATUS_SAFE = false → exec (.timeSourceReturn u) s = .next ((Prog.settle u).run s)) ∧
    (∀ k, u = .htu → d.gated = true → s.on u Reg.TIM_STATUS_SAFE = true → s.timePort u = some k → k < 2 →
      s.on u (pllRdy u (1 - k)) = true → ∃ t : State, exec (.timeSourceReturn u) s = .next ((Prog.settle u).run t) ∧
        (t.dev u).gated = false ∧ t.rd u Reg.TIM_STATUS_SRC = srcCode u (1 - k) ∧ (t.dev u).cnt = d.cnt ∧ t.timev u = s.timev u) ∧
    (∀ k, u = .htu → d.gated = true → s.on u Reg.TIM_STATUS_SAFE = true → s.timePort u = some k → k < 2 →
      s.on u (pllRdy u (1 - k)) = false →
      (s.on u (pllRdy u k) = false → exec (.timeSourceReturn u) s = .next ((Prog.settle u).run s)) ∧
      (s.on u (pllRdy u k) = true → ∃ t : State, exec (.timeSourceReturn u) s = .next ((Prog.settle u).run t) ∧
        (t.dev u).gated = false ∧ t.rd u Reg.TIM_STATUS_SRC = srcCode u k ∧ (t.dev u).cnt = d.cnt)) ∧
    (u = .vta → d.gated = true → s.on u Reg.TIM_STATUS_SAFE = true → s.on u Reg.TIM_STATUS_PLL_A_RDY = true →
      s.rd u Reg.TIM_STATUS_SRC ≠ 5 → ∃ t : State, exec (.timeSourceReturn u) s = .next ((Prog.settle u).run t) ∧
        (t.dev u).gated = false ∧ (t.dev u).cnt = d.cnt ∧ t.vregs = s.vregs) ∧
    (∀ k < 2, ∃ t : State, exec (.pllLockLoss u k) s = .next t ∧ t.on u (pllRdy u k) = false ∧
      (d.gated = false → u = .vta ∨ s.timePort u = some k → t.on u Reg.TIM_STATUS_SAFE = true ∧ (t.dev u).gated = true ∧ t.timev u = false) ∧
      (u = .htu → s.timePort u ≠ some k → t.h = s.h)) ∧
    (∀ k < 2, ∃ t : State, exec (.pllReady u k) s = .next t ∧ t.on u (pllRdy u k) = true ∧
      (u = .htu → s.rd u Reg.TIM_STATUS_SRC = 0 → d.gated = true → k = 0 ∨ d.anyPort = true →
        (t.dev u).gated = false ∧ t.rd u Reg.TIM_STATUS_SRC = srcCode u k) ∧
      (u = .vta → s.on u Reg.TIM_STATUS_SAFE = false → (t.dev u).gated = false)) ∧
    (u = .htu → s.live = false ∨ s.on u Reg.TIM_STATUS_SRC = true ∨ s.rd u (Reg.FUR_PORT_STATE 0) = portUp →
      exec .timePortWaitExpiry s = .next s) ∧
    (u = .htu → s.live = true → s.on u Reg.TIM_STATUS_SRC = false → s.rd u (Reg.FUR_PORT_STATE 0) ≠ portUp →
      exec .timePortWaitExpiry s = .next (if s.rd u (Reg.FUR_PORT_STATE 1) = portUp ∧ s.on u Reg.TIM_STATUS_PLL_B_RDY = true then
        (s.wr .htu Reg.TIM_STATUS_SRC 2).modDev .htu fun d => { d with gated := false, anyPort := false }
      else s.modDev .htu fun d => { d with anyPort := true }))
end

