-- ==== Sys2Proof/Laws/Sparse.lean ====
section
/-! SUPPORT. Laws of sparse lists and memories: a read after a write, and the canonical form. -/

namespace Sys2Proof.Machine

variable {α : Type}

@[simp] theorem Sparse.find_put_same (l : List (Nat × α)) (k : Nat) (v : α) : Sparse.find (Sparse.put l k v) k = some v := by
  induction l with
  | nil => simp [Sparse.put, Sparse.find]
  | cons e t ih =>
    obtain ⟨j, w⟩ := e
    simp only [Sparse.put]
    split
    · simp [Sparse.find]
    · split
      · simp [Sparse.find]
      · simp [Sparse.find, *]

theorem Sparse.find_put_other (l : List (Nat × α)) {k j : Nat} (v : α) (h : j ≠ k) :
    Sparse.find (Sparse.put l k v) j = Sparse.find l j := by
  induction l with
  | nil => simp [Sparse.put, Sparse.find, h.symm]
  | cons e t ih =>
    obtain ⟨i, w⟩ := e
    simp only [Sparse.put]
    split
    · simp [Sparse.find, h.symm]
    · split
      · subst i; simp [Sparse.find, h.symm]
      · simp [Sparse.find, ih]

@[simp] theorem Sparse.find_del_same (l : List (Nat × α)) (k : Nat) : Sparse.find (Sparse.del l k) k = none := by
  induction l with
  | nil => rfl
  | cons e t ih =>
    simp only [Sparse.del, List.filter_cons] at ih ⊢
    split
    · rename_i h; simp only [bne_iff_ne, ne_eq] at h; simp [Sparse.find, h, ih]
    · exact ih

theorem Sparse.find_del_other (l : List (Nat × α)) {k j : Nat} (h : j ≠ k) :
    Sparse.find (Sparse.del l k) j = Sparse.find l j := by
  induction l with
  | nil => rfl
  | cons e t ih =>
    simp only [Sparse.del, List.filter_cons] at ih ⊢
    split
    · simp [Sparse.find, ih]
    · rename_i hk; simp only [bne_iff_ne, ne_eq, not_not] at hk; simp [Sparse.find, hk, h.symm, ih]

@[simp] theorem Sparse.get_set_same [DecidableEq α] (d : α) (l : List (Nat × α)) (k : Nat) (v : α) :
    Sparse.get d (Sparse.set d l k v) k = v := by
  unfold Sparse.get Sparse.set; split <;> simp [*]

theorem Sparse.get_set_other [DecidableEq α] (d d' : α) (l : List (Nat × α)) {k j : Nat} (v : α) (h : j ≠ k) :
    Sparse.get d (Sparse.set d' l k v) j = Sparse.get d l j := by
  unfold Sparse.get Sparse.set; split
  · rw [Sparse.find_del_other l h]
  · rw [Sparse.find_put_other l v h]

@[simp] theorem Sparse.get_put_same (d : α) (l : List (Nat × α)) (k : Nat) (v : α) : Sparse.get d (Sparse.put l k v) k = v := by
  simp [Sparse.get]

theorem Sparse.get_put_other (d : α) (l : List (Nat × α)) {k j : Nat} (v : α) (h : j ≠ k) :
    Sparse.get d (Sparse.put l k v) j = Sparse.get d l j := by
  simp [Sparse.get, Sparse.find_put_other l v h]

@[simp] theorem Sparse.get_mod_same (d : α) (l : List (Nat × α)) (k : Nat) (f : α → α) :
    Sparse.get d (Sparse.mod d l k f) k = f (Sparse.get d l k) := by
  simp [Sparse.mod]

theorem Sparse.get_mod_other (d : α) (l : List (Nat × α)) {k j : Nat} (f : α → α) (h : j ≠ k) :
    Sparse.get d (Sparse.mod d l k f) j = Sparse.get d l j := by
  simp [Sparse.mod, Sparse.get_put_other d l _ h]

-- the canonical form

theorem Sparse.mem_put {l : List (Nat × α)} {k : Nat} {v : α} {e : Nat × α} (h : e ∈ Sparse.put l k v) : e = (k, v) ∨ e ∈ l := by
  induction l with
  | nil => simpa [Sparse.put] using h
  | cons a t ih =>
    obtain ⟨j, w⟩ := a
    simp only [Sparse.put] at h
    split at h
    · simpa using h
    · split at h
      · simp only [List.mem_cons] at h ⊢; tauto
      · simp only [List.mem_cons] at h ⊢
        rcases h with h | h
        · tauto
        · rcases ih h with h | h <;> tauto

theorem Sparse.put_rising {l : List (Nat × α)} (h : l.Pairwise fun a b => a.1 < b.1) (k : Nat) (v : α) :
    (Sparse.put l k v).Pairwise fun a b => a.1 < b.1 := by
  induction l with
  | nil => simp [Sparse.put]
  | cons a t ih =>
    obtain ⟨j, w⟩ := a
    rw [List.pairwise_cons] at h
    simp only [Sparse.put]
    split
    · refine List.pairwise_cons.2 ⟨?_, List.pairwise_cons.2 ⟨h.1, h.2⟩⟩
      intro e he
      rcases List.mem_cons.1 he with he | he
      · subst he; assumption
      · exact lt_trans (by assumption) (h.1 e he)
    · split
      · subst j; exact List.pairwise_cons.2 ⟨h.1, h.2⟩
      · refine List.pairwise_cons.2 ⟨?_, ih h.2⟩
        intro e he
        rcases Sparse.mem_put he with he | he
        · subst he; simp only; omega
        · exact h.1 e he

/-- Setting a value keeps the canonical form. -/
theorem Sparse.set_wf [DecidableEq α] {d : Nat → α} {l : List (Nat × α)} (h : Sparse.wf d l) (k : Nat) (v : α) :
    Sparse.wf d (Sparse.set (d k) l k v) := by
  unfold Sparse.set
  split
  · exact ⟨h.1.sublist List.filter_sublist, fun e he => h.2 e (List.mem_of_mem_filter he)⟩
  · rename_i hv
    refine ⟨Sparse.put_rising h.1 k v, fun e he => ?_⟩
    rcases Sparse.mem_put he with he | he
    · subst he; exact hv
    · exact h.2 e he

/-- Dropping entries keeps the canonical form. -/
theorem Sparse.filter_wf [DecidableEq α] {d : Nat → α} {l : List (Nat × α)} (h : Sparse.wf d l) (p : Nat × α → Bool) :
    Sparse.wf d (l.filter p) :=
  ⟨h.1.sublist List.filter_sublist, fun e he => h.2 e (List.mem_of_mem_filter he)⟩

-- memories

/-- A write of one byte keeps the canonical form of a memory. -/
theorem Memory.write_wf {m : List Host.Cell} (h : Memory.wf m) (a : Nat) (b : Byte) : Memory.wf (Memory.write m a b) :=
  Sparse.set_wf (d := fun _ => (0 : Byte)) h a b

/-- A write of a byte string keeps the canonical form of a memory. -/
theorem Memory.writeN_wf {m : List Host.Cell} (h : Memory.wf m) (a : Nat) (bs : List Byte) : Memory.wf (Memory.writeN m a bs) := by
  induction bs generalizing m a with
  | nil => exact h
  | cons b t ih => exact ih (Memory.write_wf h a b) (a + 1)

/-- A byte reads as it was written. -/
@[simp] theorem Memory.read_write_same (m : List Host.Cell) (a : Nat) (b : Byte) : Memory.read (Memory.write m a b) a = b :=
  Sparse.get_set_same _ _ _ _

/-- A write leaves every other byte alone. -/
theorem Memory.read_write_other (m : List Host.Cell) {a c : Nat} (b : Byte) (h : c ≠ a) :
    Memory.read (Memory.write m a b) c = Memory.read m c :=
  Sparse.get_set_other _ _ _ _ h

/-- A write of a byte string leaves every byte outside it alone. -/
theorem Memory.read_writeN_other (m : List Host.Cell) (a : Nat) (bs : List Byte) (c : Nat) (h : c < a ∨ a + bs.length ≤ c) :
    Memory.read (Memory.writeN m a bs) c = Memory.read m c := by
  induction bs generalizing m a with
  | nil => rfl
  | cons b t ih =>
    simp only [List.length_cons] at h
    rw [Memory.writeN, ih _ _ (by omega), Memory.read_write_other]
    omega

end Sys2Proof.Machine
end

