-- ==== Sys2Proof/Laws/State.lean ====
section
/-! SUPPORT. Laws of the state: what each primitive change leaves alone, register reads after writes, and the run of each program form. -/

namespace Sys2Proof.Machine

variable (s : State) (u : UnitId) (f g : Fld) (v : Nat)

-- register writes leave the rest alone

@[simp] theorem State.wr_pending : (s.wr u f v).pending = s.pending := by cases u <;> rfl
@[simp] theorem State.wr_free : (s.wr u f v).free = s.free := by cases u <;> rfl
@[simp] theorem State.wr_ddr : (s.wr u f v).ddr = s.ddr := by cases u <;> rfl
@[simp] theorem State.wr_entity : (s.wr u f v).entity = s.entity := by cases u <;> rfl
@[simp] theorem State.wr_h : (s.wr u f v).h = s.h := by cases u <;> rfl
@[simp] theorem State.wr_v : (s.wr u f v).v = s.v := by cases u <;> rfl
@[simp] theorem State.wr_hx : (s.wr u f v).hx = s.hx := by cases u <;> rfl
@[simp] theorem State.wr_vx : (s.wr u f v).vx = s.vx := by cases u <;> rfl
@[simp] theorem State.wr_dev (w : UnitId) : (s.wr u f v).dev w = s.dev w := by cases w <;> simp [State.dev]

-- changes of a unit's common part leave the rest alone

variable (d : Dev → Dev)

@[simp] theorem State.modDev_pending : (s.modDev u d).pending = s.pending := by cases u <;> rfl
@[simp] theorem State.modDev_free : (s.modDev u d).free = s.free := by cases u <;> rfl
@[simp] theorem State.modDev_ddr : (s.modDev u d).ddr = s.ddr := by cases u <;> rfl
@[simp] theorem State.modDev_entity : (s.modDev u d).entity = s.entity := by cases u <;> rfl
@[simp] theorem State.modDev_hregs : (s.modDev u d).hregs = s.hregs := by cases u <;> rfl
@[simp] theorem State.modDev_vregs : (s.modDev u d).vregs = s.vregs := by cases u <;> rfl
@[simp] theorem State.modDev_hx : (s.modDev u d).hx = s.hx := by cases u <;> rfl
@[simp] theorem State.modDev_vx : (s.modDev u d).vx = s.vx := by cases u <;> rfl
@[simp] theorem State.modDev_h : (s.modDev .htu d).h = d s.h := rfl
@[simp] theorem State.modDev_v : (s.modDev .vta d).v = d s.v := rfl
@[simp] theorem State.modDev_htu_v : (s.modDev .htu d).v = s.v := rfl
@[simp] theorem State.modDev_vta_h : (s.modDev .vta d).h = s.h := rfl
@[simp] theorem State.modDev_dev : (s.modDev u d).dev u = d (s.dev u) := by cases u <;> rfl
@[simp] theorem State.dev_htu : s.dev .htu = s.h := rfl
@[simp] theorem State.dev_vta : s.dev .vta = s.v := rfl

theorem State.modDev_dev_other {w : UnitId} (h : w ≠ u) : (s.modDev u d).dev w = s.dev w := by
  cases u <;> cases w <;> first | rfl | exact absurd rfl h

-- registers

theorem State.word_congr {s t : State} (u : UnitId) (off : Nat) (h : t.regs u = s.regs u) : t.word u off = s.word u off := by
  simp [State.word, h]

@[simp] theorem State.modDev_rd (w : UnitId) : (s.modDev u d).rd w f = s.rd w f := by
  cases u <;> cases w <;> rfl

@[simp] theorem State.modDev_on (w : UnitId) : (s.modDev u d).on w f = s.on w f := by
  cases u <;> cases w <;> rfl

theorem State.word_wr_same : (s.wr u f v).word u f.off = f.setW (s.word u f.off) v := by
  cases u <;> simp [State.word, State.wr, State.regs]

theorem State.word_wr_other {w : UnitId} {off : Nat} (h : w ≠ u ∨ off ≠ f.off) : (s.wr u f v).word w off = s.word w off := by
  cases u <;> cases w <;> simp only [State.word, State.wr, State.regs] <;>
    first
      | rfl
      | (rcases h with h | h
         · exact absurd rfl h
         · exact Sparse.get_set_other _ _ _ _ h)

/-- Bits of a word with a field replaced. -/
theorem Fld.getLsbD_setW (w : Word) (i : Nat) (hi : i < 64) :
    (f.setW w v).getLsbD i = if f.lsb ≤ i ∧ i < f.lsb + f.width then (v % 2 ^ f.width).testBit (i - f.lsb) else w.getLsbD i := by
  unfold Fld.setW
  simp only [BitVec.getLsbD_or, BitVec.getLsbD_and, BitVec.getLsbD_not, BitVec.getLsbD_shiftLeft, BitVec.getLsbD_ofNat]
  by_cases h1 : f.lsb ≤ i
  · by_cases h2 : i < f.lsb + f.width
    · have h3 : i - f.lsb < f.width := by omega
      have h4 : ¬ i < f.lsb := by omega
      have h5 : i - f.lsb < 64 := by omega
      simp [hi, h1, h2, h3, h4, h5, Nat.testBit_two_pow_sub_one]
    · have h3 : ¬ (i - f.lsb < f.width) := by omega
      have h4 : ¬ i < f.lsb := by omega
      have h5 : i - f.lsb < 64 := by omega
      simp [hi, h1, h2, h3, h4, h5, Nat.testBit_two_pow_sub_one, Nat.testBit_mod_two_pow]
  · have h4 : i < f.lsb := by omega
    simp [hi, h1, h4]

/-- Bits of a field's value. -/
theorem Fld.testBit_getW (w : Word) (i : Nat) : (f.getW w).testBit i = (decide (i < f.width) && w.getLsbD (f.lsb + i)) := by
  unfold Fld.getW
  rw [Nat.testBit_mod_two_pow]
  congr 1
  rw [← BitVec.getLsbD, BitVec.getLsbD_ushiftRight]

/-- A field reads as it was written. -/
theorem Fld.getW_setW_same (h : f.lsb + f.width ≤ 64) (w : Word) : f.getW (f.setW w v) = v % 2 ^ f.width := by
  apply Nat.eq_of_testBit_eq
  intro i
  rw [Fld.testBit_getW]
  by_cases hi : i < f.width
  · rw [Fld.getLsbD_setW f v w (f.lsb + i) (by omega)]
    have h1 : f.lsb ≤ f.lsb + i ∧ f.lsb + i < f.lsb + f.width := by omega
    simp [hi]
  · simp [hi, Nat.testBit_mod_two_pow]

/-- A field keeps its value when a field that shares no bit with it is written. -/
theorem Fld.getW_setW_other (h : g.lsb + g.width ≤ f.lsb ∨ f.lsb + f.width ≤ g.lsb) (w : Word) : g.getW (f.setW w v) = g.getW w := by
  apply Nat.eq_of_testBit_eq
  intro i
  rw [Fld.testBit_getW, Fld.testBit_getW]
  by_cases hi : i < g.width
  · by_cases hb : g.lsb + i < 64
    · rw [Fld.getLsbD_setW f v w (g.lsb + i) hb, if_neg (by omega)]
    · rw [BitVec.getLsbD_of_ge _ _ (by omega), BitVec.getLsbD_of_ge _ _ (by omega)]
  · simp [hi]

/-- A register field reads as it was written. -/
theorem State.rd_wr_same (h : f.lsb + f.width ≤ 64) : (s.wr u f v).rd u f = v % 2 ^ f.width := by
  rw [State.rd, State.word_wr_same, Fld.getW_setW_same f v h]

/-- A register field keeps its value when another is written. -/
theorem State.rd_wr_other {w : UnitId} (h : w ≠ u ∨ g.off ≠ f.off ∨ g.lsb + g.width ≤ f.lsb ∨ f.lsb + f.width ≤ g.lsb) :
    (s.wr u f v).rd w g = s.rd w g := by
  by_cases hw : w = u ∧ g.off = f.off
  · obtain ⟨rfl, ho⟩ := hw
    rw [State.rd, State.rd, ho, State.word_wr_same, Fld.getW_setW_other f g v]
    rcases h with h | h | h
    · exact absurd rfl h
    · exact absurd ho h
    · exact h
  · rw [State.rd, State.word_wr_other s u f v (by tauto)]
    rfl

-- the run of each program form

variable (p q : Prog)

@[simp] theorem Prog.run_skip : Prog.run .skip s = s := rfl
@[simp] theorem Prog.run_wr : Prog.run (.wr u f v) s = s.wr u f v := rfl
@[simp] theorem Prog.run_dev : Prog.run (.dev u d) s = s.modDev u d := rfl
@[simp] theorem Prog.run_htu (k : HtuX → HtuX) : Prog.run (.htu k) s = { s with hx := k s.hx } := rfl
@[simp] theorem Prog.run_vta (k : VtaX → VtaX) : Prog.run (.vta k) s = { s with vx := k s.vx } := rfl
@[simp] theorem Prog.run_ddr (a : Nat) (b : List Byte) : Prog.run (.ddr a b) s = { s with ddr := Memory.writeN s.ddr a b } := rfl
@[simp] theorem Prog.run_entity (a : Nat) (b : List Byte) :
    Prog.run (.entity a b) s = { s with entity := Memory.writeN s.entity a b } := rfl
@[simp] theorem Prog.run_draw : Prog.run .draw s = { s with free := s.free + 1 } := rfl
@[simp] theorem Prog.run_get (k : State → Prog) : Prog.run (.get k) s = (k s).run s := rfl
@[simp] theorem Prog.run_both : Prog.run (.both p q) s = q.run (p.run s) := rfl
@[simp] theorem Prog.run_seq_nil : (Prog.seq []).run s = s := rfl
@[simp] theorem Prog.run_seq_cons (l : List Prog) : (Prog.seq (p :: l)).run s = (Prog.seq l).run (p.run s) := by
  cases l <;> rfl
@[simp] theorem Prog.run_cond_true : (Prog.cond true p).run s = p.run s := rfl
@[simp] theorem Prog.run_cond_false : (Prog.cond false p).run s = s := rfl
theorem Prog.run_cond (b : Bool) : (Prog.cond b p).run s = if b then p.run s else s := by cases b <;> rfl
@[simp] theorem Prog.run_opt_none {α : Type} (k : α → Prog) : (Prog.opt none k).run s = s := rfl
@[simp] theorem Prog.run_opt_some {α : Type} (a : α) (k : α → Prog) : (Prog.opt (some a) k).run s = (k a).run s := rfl
@[simp] theorem Prog.run_each_nil {α : Type} (k : α → Prog) : (Prog.each [] k).run s = s := rfl
@[simp] theorem Prog.run_each_cons {α : Type} (a : α) (l : List α) (k : α → Prog) :
    (Prog.each (a :: l) k).run s = (Prog.each l k).run ((k a).run s) := rfl
@[simp] theorem Prog.run_free (k : Nat → Prog) : (Prog.free k).run s = (k (Config.freeNat s.free)).run { s with free := s.free + 1 } := rfl
@[simp] theorem Prog.run_bumpBy (n : Nat) : (Prog.bumpBy u f n).run s = s.wr u f (satAdd f.width (s.rd u f) n) := rfl
@[simp] theorem Prog.run_bump : (Prog.bump u f).run s = s.wr u f (satAdd f.width (s.rd u f) 1) := rfl
@[simp] theorem Prog.run_count (n : Nat) : (Prog.count u f n).run s = s.wr u f (s.rd u f + n) := rfl
@[simp] theorem Prog.run_send (o : Out) : (Prog.send u o).run s = s.modDev u fun d => { d with out := d.out ++ [o] } := rfl
@[simp] theorem Prog.run_rd (k : Nat → Prog) : (Prog.rd u f k).run s = (k (s.rd u f)).run s := rfl

theorem Prog.run_up (h : (s.dev u).inReset = false) : (Prog.up u p).run s = p.run s := by
  simp [Prog.up, h]

theorem Prog.run_up_reset (h : (s.dev u).inReset = true) : (Prog.up u p).run s = s := by
  simp [Prog.up, h]

@[simp] theorem Prog.nextIf_true : Prog.nextIf true p s = .next (p.run s) := rfl
@[simp] theorem Prog.nextIf_false : Prog.nextIf false p s = .fault .noSuchInstance := rfl

/-- A program with an instance check answers a next state exactly where the instance exists. -/
theorem Prog.nextIf_eq (b : Bool) : Prog.nextIf b p s = if b then .next (p.run s) else .fault .noSuchInstance := rfl

end Sys2Proof.Machine
end

