-- ==== Sys2Proof/Laws/Mailbox.lean ====
section
/-! SUPPORT. Laws of the mailboxes: changes of one mailbox compose, leave every register alone, and commute with register writes and with
the counting of errors; `settle` does nothing where no packet waits and none is held. -/

namespace Sys2Proof.Machine

theorem Sparse.put_put {α : Type} (l : List (Nat × α)) (k : Nat) (a b : α) : Sparse.put (Sparse.put l k a) k b = Sparse.put l k b := by
  induction l with
  | nil => simp [Sparse.put]
  | cons e t ih =>
    obtain ⟨j, w⟩ := e
    simp only [Sparse.put]
    split
    · simp [Sparse.put]
    · split
      · simp [Sparse.put]
      · simp [Sparse.put, *]

theorem Sparse.mod_mod {α : Type} (d : α) (l : List (Nat × α)) (k : Nat) (f g : α → α) :
    Sparse.mod d (Sparse.mod d l k f) k g = Sparse.mod d l k (fun a => g (f a)) := by
  simp [Sparse.mod, Sparse.put_put]

variable (s : State) (u w : UnitId) (m n : Nat) (f g : Mbx → Mbx) (fld : Fld) (v : Nat)

/-- Two changes of one mailbox are one. -/
theorem Prog.modMb_modMb : (Prog.modMb u m g).run ((Prog.modMb u m f).run s) = (Prog.modMb u m fun b => g (f b)).run s := by
  cases u <;> simp [Prog.modMb, State.modDev, Sparse.mod_mod]

@[simp] theorem State.mb_modMb : ((Prog.modMb u m f).run s).mb u m = f (s.mb u m) := by
  simp [Prog.modMb, State.mb]

theorem State.mb_modMb_other (h : w ≠ u ∨ n ≠ m) : ((Prog.modMb u m f).run s).mb w n = s.mb w n := by
  cases u <;> cases w <;> simp_all [Prog.modMb, State.mb, State.modDev, State.dev, Sparse.get_mod_other]

@[simp] theorem State.rd_modMb : ((Prog.modMb u m f).run s).rd w fld = s.rd w fld := by simp [Prog.modMb]
@[simp] theorem State.on_modMb : ((Prog.modMb u m f).run s).on w fld = s.on w fld := by simp [Prog.modMb]
@[simp] theorem State.mb_wr : (s.wr w fld v).mb u m = s.mb u m := by simp [State.mb]

/-- A change of a mailbox and a register write commute. -/
theorem Prog.modMb_wr : (Prog.modMb u m f).run (s.wr w fld v) = ((Prog.modMb u m f).run s).wr w fld v := by
  cases u <;> cases w <;> rfl

theorem Prog.modMb_send (o : Out) :
    (Prog.modMb u m f).run ((Prog.send w o).run s) = (Prog.send w o).run ((Prog.modMb u m f).run s) := by
  cases u <;> cases w <;> rfl

theorem Prog.modMb_msix : (Prog.modMb u m f).run ((Prog.msix n).run s) = (Prog.msix n).run ((Prog.modMb u m f).run s) := by
  simp only [Prog.msix, Prog.run_get, State.on_modMb, State.rd_modMb]
  split
  · exact Prog.modMb_wr ..
  · exact Prog.modMb_send ..

/-- The level of a mailbox's interrupt depends on registers alone. -/
@[simp] theorem State.irqLine_modMb : ((Prog.modMb u m f).run s).irqLine w n = s.irqLine w n := by simp [State.irqLine]

/-- A change of a mailbox and an edge of an interrupt line commute. -/
theorem Prog.modMb_irqEdge (was : State) :
    (Prog.modMb u m f).run ((Prog.irqEdge w n was).run s) = (Prog.irqEdge w n was).run ((Prog.modMb u m f).run s) := by
  simp only [Prog.irqEdge, Prog.run_get, Prog.run_cond, State.irqLine_modMb]
  split
  · exact Prog.modMb_send ..
  · rfl

/-- An edge is seen from registers alone. -/
theorem Prog.irqEdge_modMb (was : State) : Prog.irqEdge w n ((Prog.modMb u m f).run was) = Prog.irqEdge w n was := by
  simp [Prog.irqEdge]

/-- A change of a mailbox and a counted error commute. -/
theorem Prog.modMb_mbxErr :
    (Prog.modMb u m f).run ((Prog.mbxErr w n fld).run s) = (Prog.mbxErr w n fld).run ((Prog.modMb u m f).run s) := by
  simp only [Prog.mbxErr, Prog.mbxIrq, Prog.run_both, Prog.run_bump, Prog.run_get, Prog.run_seq_cons, Prog.run_seq_nil, Prog.run_wr,
    Prog.run_cond, State.rd_modMb, ← Prog.modMb_wr, Prog.irqEdge_modMb, ← Prog.modMb_irqEdge]
  split
  · simp only [Prog.modMb_msix]
  · rfl

theorem State.mb_send (o : Out) : ((Prog.send w o).run s).mb u m = s.mb u m := by
  cases u <;> cases w <;> rfl

@[simp] theorem State.mb_msix : ((Prog.msix n).run s).mb u m = s.mb u m := by
  simp only [Prog.msix, Prog.run_get]
  split
  · exact State.mb_wr ..
  · exact State.mb_send ..

@[simp] theorem State.mb_irqEdge (was : State) : ((Prog.irqEdge w n was).run s).mb u m = s.mb u m := by
  simp only [Prog.irqEdge, Prog.run_get, Prog.run_cond]
  split
  · exact State.mb_send ..
  · rfl

@[simp] theorem State.mb_mbxErr (k : Nat) : ((Prog.mbxErr w k fld).run s).mb u m = s.mb u m := by
  simp only [Prog.mbxErr, Prog.mbxIrq, Prog.run_both, Prog.run_bump, Prog.run_get, Prog.run_seq_cons, Prog.run_seq_nil, Prog.run_wr,
    Prog.run_cond]
  split <;> simp

/-- No packet waits and none is held: only what the time passed over and the JOINs that waited are left to do. -/
theorem Prog.run_settle_idle (h : ((Prog.joinReady u).run ((Prog.passedOver u).run s)).backlog u = 0) :
    (Prog.settle u).run s = (Prog.joinReady u).run ((Prog.passedOver u).run s) := by
  simp [Prog.settle, h, Prog.rounds]

end Sys2Proof.Machine
end

