-- ==== Sys2Proof/Laws/Frame.lean ====
section
/-! SUPPORT. Frames of programs: `Prog.keeps F p` says that `p` writes no register word but those that `F` names. A packet row
on a mailbox that can take it accepts its packet first. -/

namespace Sys2Proof.Machine

/-- A program writes only register words that `F` names. -/
def Prog.keeps (F : UnitId → Nat → Prop) : Prog → Prop
  | .wr u f _ => F u f.off
  | .clearRegs _ _ => False
  | .get k => ∀ s, (k s).keeps F
  | .both p q => p.keeps F ∧ q.keeps F
  | _ => True

variable {F G : UnitId → Nat → Prop}

/-- A register word that a program does not write reads as before. -/
theorem Prog.word_keeps {p : Prog} (h : p.keeps F) {w : UnitId} {off : Nat} (hn : ¬ F w off) (s : State) :
    (p.run s).word w off = s.word w off := by
  induction p generalizing s with
  | wr u f v =>
    simp only [Prog.keeps] at h
    apply State.word_wr_other
    by_cases hw : w = u
    · right; rintro rfl; subst hw; exact hn h
    · exact Or.inl hw
  | clearRegs => exact absurd h id
  | get k ih => exact ih s (h s) s
  | both p q ihp ihq => rw [Prog.run_both, ihq h.2, ihp h.1]
  | dev u f => cases u <;> cases w <;> rfl
  | _ => cases w <;> rfl

theorem Prog.rd_keeps {p : Prog} (h : p.keeps F) {w : UnitId} (g : Fld) (hn : ¬ F w g.off) (s : State) : (p.run s).rd w g = s.rd w g := by
  rw [State.rd, Prog.word_keeps h hn, State.rd]

theorem Prog.keeps_mono {p : Prog} (h : p.keeps F) (hs : ∀ u o, F u o → G u o) : p.keeps G := by
  induction p with
  | wr => exact hs _ _ h
  | clearRegs => exact h
  | get k ih => intro s; exact ih s (h s)
  | both p q ihp ihq => exact ⟨ihp h.1, ihq h.2⟩
  | _ => trivial

@[simp] theorem Prog.keeps_skip : Prog.keeps F .skip := trivial
@[simp] theorem Prog.keeps_wr (u : UnitId) (f : Fld) (v : Nat) : Prog.keeps F (.wr u f v) ↔ F u f.off := Iff.rfl
@[simp] theorem Prog.keeps_dev (u : UnitId) (f : Dev → Dev) : Prog.keeps F (.dev u f) := trivial
@[simp] theorem Prog.keeps_htu (f : HtuX → HtuX) : Prog.keeps F (.htu f) := trivial
@[simp] theorem Prog.keeps_vta (f : VtaX → VtaX) : Prog.keeps F (.vta f) := trivial
@[simp] theorem Prog.keeps_draw : Prog.keeps F .draw := trivial
@[simp] theorem Prog.keeps_get (k : State → Prog) : Prog.keeps F (.get k) ↔ ∀ s, (k s).keeps F := Iff.rfl
@[simp] theorem Prog.keeps_both (p q : Prog) : Prog.keeps F (.both p q) ↔ p.keeps F ∧ q.keeps F := Iff.rfl

@[simp] theorem Prog.keeps_seq_nil : (Prog.seq []).keeps F := trivial

@[simp] theorem Prog.keeps_seq_cons (p : Prog) (l : List Prog) : (Prog.seq (p :: l)).keeps F ↔ p.keeps F ∧ (Prog.seq l).keeps F := by
  cases l with
  | nil => exact ⟨fun h => ⟨h, trivial⟩, fun h => h.1⟩
  | cons => rfl

theorem Prog.keeps_cond {p : Prog} (b : Bool) (h : p.keeps F) : (Prog.cond b p).keeps F := by
  cases b
  · trivial
  · exact h

theorem Prog.keeps_opt {α : Type} {o : Option α} {k : α → Prog} (h : ∀ a, (k a).keeps F) : (Prog.opt o k).keeps F := by
  cases o
  · trivial
  · exact h _

theorem Prog.keeps_each {α : Type} {l : List α} {k : α → Prog} (h : ∀ a, (k a).keeps F) : (Prog.each l k).keeps F := by
  induction l with
  | nil => trivial
  | cons a t ih => exact ⟨h a, ih⟩

@[simp] theorem Prog.keeps_bump (u : UnitId) (f : Fld) : (Prog.bump u f).keeps F ↔ F u f.off :=
  ⟨fun h => h State.reset, fun h _ => h⟩

/-- Recording an event writes no register word but EVR_STATUS of its unit. -/
theorem Prog.event_keeps (u : UnitId) (typ : Nat) (pl : List Byte) :
    (Prog.event u typ pl).keeps fun w o => w = u ∧ (o = Reg.EVR_STATUS_BUCKET.off ∨ o = Reg.EVR_STATUS_DROPPED.off) := by
  have hc (e : EvRec) : (Prog.commitEv u e).keeps
      fun w o => w = u ∧ (o = Reg.EVR_STATUS_BUCKET.off ∨ o = Reg.EVR_STATUS_DROPPED.off) := by
    simp only [Prog.commitEv, Prog.keeps_get, Prog.keeps_seq_cons, Prog.keeps_seq_nil, and_true]
    intro s
    refine ⟨Prog.keeps_cond _ (by simp), trivial, ?_⟩
    intro t
    apply Prog.keeps_cond
    refine ⟨?_, ?_⟩
    · intro s; apply Prog.keeps_cond; simp [Prog.evr]
    · intro s
      refine ⟨Prog.keeps_cond _ trivial, Prog.keeps_cond _ ?_⟩
      simp
  refine ⟨fun s => Prog.keeps_opt fun f => ⟨hc _, trivial⟩, fun s => ?_⟩
  simp only
  split
  · trivial
  · split
    · simp only [Prog.keeps_seq_cons, Prog.keeps_seq_nil, and_true]
      exact ⟨Prog.keeps_cond _ (Prog.keeps_opt fun f => ⟨hc _, trivial⟩), trivial⟩
    · exact ⟨hc _, trivial⟩

/-- An MSI-X write touches no register word but MSIX_PBA of the VTA. -/
theorem Prog.msix_keeps (n : Nat) : (Prog.msix n).keeps fun w o => w = .vta ∧ o = Reg.MSIX_PBA_PENDING.off := by
  intro s
  simp only
  split
  · simp
  · trivial

/-- An edge of an interrupt line writes no register word. -/
theorem Prog.irqEdge_keeps (u : UnitId) (m : Nat) (was : State) : (Prog.irqEdge u m was).keeps F :=
  fun _ => Prog.keeps_cond _ trivial

/-- A frame or record sent on the uplinks writes no register word. -/
theorem Prog.ether_keeps (dst tc n : Nat) (o : Out) : (Prog.ether dst tc n o).keeps F :=
  fun _ => Prog.keeps_cond _ trivial

/-- An interrupt status bit of a mailbox writes MBX_IRQ_STATUS, and on the VTA MSIX_PBA. -/
theorem Prog.mbxIrq_keeps (u : UnitId) (m b : Nat) :
    (Prog.mbxIrq u m b).keeps fun w o => (w = u ∧ o = (Reg.MBX_IRQ_STATUS_ERROR m).off) ∨ (w = .vta ∧ o = Reg.MSIX_PBA_PENDING.off) := by
  intro s
  simp only [Prog.keeps_seq_cons, Prog.keeps_seq_nil, Prog.keeps_wr, and_true]
  refine ⟨Or.inl ⟨trivial, ?_⟩, Prog.irqEdge_keeps _ _ _, Prog.keeps_cond _ (Prog.keeps_mono (Prog.msix_keeps m) fun _ _ h => Or.inr h)⟩
  split <;> rfl

/-- A reply writes MBX_IRQ_STATUS of its mailbox, and on the VTA MSIX_PBA, and no other register word. -/
theorem Prog.reply_keeps (u : UnitId) (m : Nat) (tag : BitVec 16) (a : Ans) :
    (Prog.reply u m tag a).keeps fun w o =>
      (w = u ∧ o = (Reg.MBX_IRQ_STATUS_ERROR m).off) ∨ (w = .vta ∧ o = Reg.MSIX_PBA_PENDING.off) := by
  intro s
  apply Prog.keeps_opt
  intro o
  simp only [Prog.keeps_seq_cons, Prog.keeps_seq_nil, and_true]
  refine ⟨Prog.keeps_cond _ ?_, trivial, Prog.keeps_cond _ (Prog.mbxIrq_keeps u m 0)⟩
  intro t
  simp only
  split
  · trivial
  · split
    · exact Prog.ether_keeps _ _ _ _
    · trivial

/-- A counted mailbox error writes its counter, MBX_IRQ_STATUS, and on the VTA MSIX_PBA. -/
theorem Prog.mbxErr_keeps (u : UnitId) (m : Nat) (f : Fld) : (Prog.mbxErr u m f).keeps fun w o =>
    (w = u ∧ (o = f.off ∨ o = (Reg.MBX_IRQ_STATUS_ERROR m).off)) ∨ (w = .vta ∧ o = Reg.MSIX_PBA_PENDING.off) := by
  refine ⟨by simp, Prog.keeps_mono (Prog.mbxIrq_keeps u m 1) ?_⟩
  tauto

/-- Two changes of one mailbox that agree on what it holds are one. -/
theorem Prog.modMb_congr (s : State) (u : UnitId) (m : Nat) (f g : Mbx → Mbx) (h : f (s.mb u m) = g (s.mb u m)) :
    (Prog.modMb u m f).run s = (Prog.modMb u m g).run s := by
  cases u <;> simp_all [Prog.modMb, State.modDev, Sparse.mod, State.mb, State.dev]

/-- A mailbox with one packet waiting and none held takes it. -/
theorem Prog.mbxWork_waiting (s : State) (u : UnitId) (m : Nat) (h : Nat × Packet) (hh : (s.mb u m).held = [])
    (hw : (s.mb u m).waiting = [h]) (hl : (s.mb u m).outst.length < s.outLimit u m) (ht : s.takes u m = true) :
    (Prog.mbxWork u m).run s = (Prog.accept u m h.1 h.2).run (s.fetched u m) := by
  have h1 : decide ((s.mb u m).outst.length < s.outLimit u m) = true := by simpa using hl
  simp only [Prog.mbxWork, Prog.run_get, hh, hw, List.find?_nil, h1, ht, Bool.and_self, Prog.run_cond_true, Prog.run_both, State.fetched]

/-- A mailbox with nothing waiting and nothing held has no work. -/
theorem Prog.mbxWork_idle (s : State) (u : UnitId) (m : Nat) (hh : (s.mb u m).held = []) (hw : (s.mb u m).waiting = []) :
    (Prog.mbxWork u m).run s = s := by
  simp [Prog.mbxWork, hh, hw]

/-- A packet row on a mailbox that can take it: it is accepted, works once more, and every mailbox settles. -/
theorem exec_packet {i : Instr} {s : State} {u : UnitId} {m code : Nat} {p : Packet} (hi : packetOf i = some (u, m, code, p))
    (hs : s.canTake u m p) :
    exec i s = .next ((Prog.settle u).run ((Prog.mbxWork u m).run ((Prog.accept u m code p).run (s.fetched u m)))) := by
  obtain ⟨hm, hb, ht, hw, hh, ho, hf, hv⟩ := hs
  have key : exec i s = runCommand u m code p s := by
    cases i <;> simp only [packetOf, Option.some.injEq, Prod.mk.injEq, reduceCtorEq] at hi <;> (obtain ⟨rfl, rfl, h, rfl⟩ := hi; rw [← h]; rfl)
  rw [key, runCommand, show decide (m < mbxCount u) = true by simpa using hm, Prog.nextIf_true]
  congr 1
  rw [Prog.command, Prog.run_get, hb, Prog.run_cond_true]
  simp only [Prog.run_seq_cons, Prog.run_seq_nil]
  congr 2
  have hc : (Prog.commit u m code p).run s = (Prog.modMb u m fun b => { b with waiting := b.waiting ++ [(code, p)] }).run s := by
    cases hg : s.on u (Reg.MBX_STATUS_GEN m) <;> simp_all [Prog.commit]
  rw [hc]
  have hw1 := Prog.mbxWork_waiting ((Prog.modMb u m fun b => { b with waiting := b.waiting ++ [(code, p)] }).run s) u m (code, p)
    (by simp [hh]) (by simp [hw]) (by simpa [State.outLimit] using ho) (by simpa [State.takes, State.gorseUp] using ht)
  rw [hw1, State.fetched, Prog.modMb_modMb]
  rfl

end Sys2Proof.Machine
end

