-- ==== Sys2Proof/Tests/Slice0.lean ====
section
/-! SUPPORT. The model's own tests: ill-formed commands, a state for the hypotheses of every statement, a packet of every opcode that starts,
and the values of the manual's worked examples. -/

open Sys2Proof Sys2Proof.Machine

namespace Sys2Proof.Tests

set_option Elab.async false

/-- Register fields set one after another. -/
def sets (u : UnitId) (l : List (Fld × Nat)) (s : State) : State := l.foldl (fun s e => s.wr u e.1 e.2) s

/-- A register word given as a whole. -/
def word (u : UnitId) (off v : Nat) (s : State) : State :=
  match u with
  | .htu => { s with hregs := Sparse.put s.hregs off (BitVec.ofNat 64 v) }
  | .vta => { s with vregs := Sparse.put s.vregs off (BitVec.ofNat 64 v) }

/-- Both units in service: out of reset, started, with policy and fleet time, HTU mailboxes 0 to 2 and VTA mailboxes 0 and 9 open. -/
def live : State :=
  let s := State.reset
  let s : State := { s with h := { s.h with inReset := false, gated := false }, v := { s.v with inReset := false, gated := false } }
  sets .vta [(Reg.VTA_STATUS_FUSES, 1), (Reg.VTA_STATUS_MEM_INIT, 1), (Reg.VTA_STATUS_GORSE_UP, 1), (Reg.VTA_STATUS_RECORDER_OPEN, 1),
      (Reg.VTA_STATUS_PCIE_OPEN, 1), (Reg.VTA_STATUS_DDR_READY, 1), (Reg.VTA_STATUS_POLICY, 1), (Reg.TIM_STATUS_TIMEV, 1),
      (Reg.MBX_STATUS_OPEN 0, 1), (Reg.MBX_STATUS_OPEN 9, 1)]
    (sets .htu [(Reg.HTU_STATUS_FUSES, 1), (Reg.HTU_STATUS_MEM_INIT, 1), (Reg.HTU_STATUS_GORSE_UP, 1), (Reg.HTU_STATUS_RECORDER_OPEN, 1),
      (Reg.HTU_STATUS_BOUNDARY_LIVE, 1), (Reg.HTU_STATUS_POLICY, 1), (Reg.TIM_STATUS_TIMEV, 1), (Reg.MBX_STATUS_OPEN 0, 1),
      (Reg.MBX_STATUS_OPEN 1, 1), (Reg.MBX_STATUS_OPEN 2, 1)] (word .htu 0xA2010 5 s))

/-- A packet of role PROVIDER and partition 0 that is the first of its mailbox. -/
def pkt (target : Nat) (params : List Byte) (flags : Nat := 0) : Packet :=
  { flags := BitVec.ofNat 8 flags, tag := 7, target := BitVec.ofNat 16 target, partition := 0, role := 1, rsvd := 0, seq := 0, params }

/-- The conditions of `State.starts` but the checks of R80 before the operation's own, to evaluate. -/
def startsC (s : State) (u : UnitId) (m : Nat) (op : Op) (p : Packet) : Bool :=
  decide (m < mbxCount u) && s.blockReady u 0x1000 && s.takes u m && (s.mb u m).waiting.isEmpty && (s.mb u m).held.isEmpty
    && decide ((s.mb u m).outst.length < s.outLimit u m) && decide (packetWords p (s.on u (Reg.MBX_STATUS_GEN m)) ≤ s.reqFree u m)
    && !s.on u (Reg.MBX_STATUS_GEN m) && !(s.mb u m).outst.any (·.tag == p.tag)
    && (s.on u (Reg.MBX_STATUS_GEN m) || p.seq.toNat == s.rd u (Reg.MBX_NEXT_SEQ_SEQ m)) && !isFence op.code p
    && (!(p.ordF || s.on u (Reg.MBX_STATUS_GEN m)) || (s.mb u m).outst.all (·.first))
    && ((s.admitted u m op.code p 0).startFail u m op p).isNone

def startsB (s : State) (u : UnitId) (m : Nat) (op : Op) (p : Packet) : Bool :=
  startsC s u m op p && ((s.fetched u m).takeFail u m op.code p).isNone

theorem starts_from {s : State} {u : UnitId} {m : Nat} {op : Op} {p : Packet} (h : startsC s u m op p = true)
    (ht : (s.fetched u m).takeFail u m op.code p = none) (ho : opOf op.code = some op) : s.starts u m op p := by
  simp only [startsC, Bool.and_eq_true, decide_eq_true_eq, Bool.or_eq_true, List.isEmpty_iff, beq_iff_eq,
    Option.isNone_iff_eq_none, Bool.not_eq_eq_eq_not, Bool.not_true] at h
  obtain ⟨⟨⟨⟨⟨⟨⟨⟨⟨⟨⟨⟨h1, h2⟩, h3⟩, h4⟩, h5⟩, h6⟩, h6'⟩, hg⟩, h7⟩, h8⟩, h9⟩, h10⟩, h12⟩ := h
  refine ⟨⟨h1, h2, h3, h4, h5, h6, h6', fun h => by simp [hg] at h⟩, ⟨h7, h8⟩, ⟨h9, fun ho => ?_⟩, ho, ht, h12⟩
  rcases h10 with h | h
  · rcases ho with ho | ho <;> simp_all
  · exact h

theorem starts_of {s : State} {u : UnitId} {m : Nat} {op : Op} {p : Packet} (h : startsB s u m op p = true) (ho : opOf op.code = some op) :
    s.starts u m op p := by
  simp only [startsB, Bool.and_eq_true, Option.isNone_iff_eq_none] at h
  exact starts_from h.1 h.2 ho

/-- A body of parameter bytes with chosen fields: (offset, size, value). -/
def body (n : Nat) (fields : List (Nat × Nat × Nat)) : List Byte :=
  (List.range n).map fun i => ((fields.find? fun f => f.1 ≤ i && i < f.1 + f.2.1).map fun f =>
    BitVec.ofNat 8 (f.2.2 / 256 ^ (i - f.1))).getD 0

/-- `live` with the HTU's die ID assigned and its UDS locked. -/
def sited : State :=
  word .htu 0x80000 1 { live with h := { live.h with pol := { live.h.pol with body := some { dieId := some 5 } } } }

def withFn (u : UnitId) (fid : Nat) (st : FnSt) (s : State) : State :=
  s.modDev u fun d => { d with fns := Sparse.put d.fns fid { st } }

def armPkt : Packet := pkt 0x1005 (body 32 [(0, 2, 3), (16, 1, 1), (17, 1, 8), (18, 1, 1), (19, 1, 2), (24, 2, 0), (26, 2, 3)])

def aStream : Stream := { owner := .collector 5, part := 0, svc := 1, bracken := false, ord := false, sig := false, host := false, retain := true }

def aColl : Coll := { cid := 5, stream := 3, ord := false, sig := false, host := false, retain := true, op := 0, period := 0, arm := 0
                      sels := [], part := 0, role := 1, mbx := 2, gorse := false, reply := none }

def swept : State := withFn .htu 0x1005 .running { live with h := { live.h with colls := [(5, aColl)], streams := [(3, aStream)] } }

def stepped : State := sets .htu [(Reg.SNT_MODE_STEP_SRC, 1)] live

def aStep : StepCtx := { step := 9, no := 1, st := .opened, mode := 3, clean := true, replays := 0 }

def scoring : State := withFn .vta 0x3002 .running (sets .vta [(Reg.HTR_PART_WT_WEIGHT 0, 1), (Reg.HTR_STATUS_BANKS_ACTIVE, 1), (Reg.VTA_SWG_LOGICAL 0, 1)] live)

def staged : State := sets .vta [(Reg.TRC_STAGE_PAGE_VALID 0, 1)] live

def tracing : State := withFn .htu 0x4000 .running (sets .htu [(Reg.TRC_CFG_TRIG_EN, 1)] live)

def dumping : State :=
  let s : State := { live with h := { live.h with pol := { live.h.pol with body := some { windows := [(0, 0, 4096)] } } } }
  sets .htu [(Reg.TRC_STREAM_VALID 0, 1)] s

/-- A logical image with one tree of one leaf (R268, R269), in the staging area. -/
def leafImage : List Byte := body 104 [(0, 4, 0x4D525448), (4, 4, 1), (8, 2, 1), (10, 2, 1), (12, 1, 1), (13, 1, 1), (16, 8, 104),
  (64, 1, 1), (82, 2, 1), (84, 4, 88), (88, 1, 2)]

def imaged : State := { sets .vta [(Reg.HTR_BANK_STATE 0, 0)] staged with ddr := Memory.writeN [] stagingBase leafImage }

def loadPkt : Packet := pkt 0x3002 (body 16 [(0, 1, 2), (8, 8, 104)])

/-- The packet that names the first die of the tray. -/
def diePkt (k : Nat) : Packet := pkt 0 (le 4 (Config.vtaAddr.toNat * 64) ++ body 4 [(0, 1, k)])
theorem starts_nop : live.starts .htu 2 opNop (pkt 0 []) := starts_of (by decide +kernel) rfl

theorem starts_ident : live.starts .vta 9 opIdent (pkt 0 []) := starts_of (by decide +kernel) rfl

theorem starts_start_function : live.starts .htu 2 opStart (pkt 0x5000 []) :=
  starts_of (by decide +kernel) rfl

theorem starts_stop_function : live.starts .htu 2 opStop (pkt 0x5000 (body 8 [])) :=
  starts_of (by decide +kernel) rfl

theorem starts_config_write : live.starts .htu 2 opConfigWrite (pkt 0 (body 16 [(0, 4, 0x1028), (4, 1, 4), (8,8,1)])) :=
  starts_of (by decide +kernel) rfl

theorem starts_config_read : live.starts .htu 2 opConfigRead (pkt 0 (body 8 [(0,4,0x1028),(4,1,4)])) :=
  starts_of (by decide +kernel) rfl

theorem starts_arm_collector : live.starts .htu 2 opArmCollector (armPkt) :=
  starts_of (by decide +kernel) rfl

theorem starts_disarm : swept.starts .htu 2 opDisarm (pkt 0x1005 (body 8 [])) :=
  starts_of (by decide +kernel) rfl

theorem starts_snapshot_at : live.starts .htu 2 opSnapshotAt (pkt 0 (body 16 [(0,8,5000)])) :=
  starts_of (by decide +kernel) rfl

theorem starts_sweep_full : swept.starts .htu 2 opSweepFull (pkt 0 (body 8 [(0,2,3)])) :=
  starts_of (by decide +kernel) rfl

theorem starts_read_stream : swept.starts .htu 2 opReadStream (pkt 0x1005 (body 16 [(0,2,3),(8,4,64)])) :=
  starts_of (by decide +kernel) rfl

theorem starts_ack_stream : swept.starts .htu 2 opAckStream (pkt 0x1005 (body 8 [(0,2,3),(4,4,1)])) :=
  starts_of (by decide +kernel) rfl

theorem starts_time_status : live.starts .vta 9 opTimeStatus (pkt 0 []) :=
  starts_of (by decide +kernel) rfl

theorem starts_pulse_program : live.starts .htu 2 opPulseProgram (pkt 0 (body 32 [(2,1,1),(8,8,5000)])) :=
  starts_of (by decide +kernel) rfl

theorem starts_pulse_cancel : live.starts .htu 2 opPulseCancel (pkt 0 (body 8 [])) :=
  starts_of (by decide +kernel) rfl

theorem starts_sentinel_config : live.starts .htu 2 opSentinelConfig (pkt 0x2000 (body 16 [(0,1,3),(2,1,10),(4,4,0x35800000),(10,2,1)])) :=
  starts_of (by decide +kernel) rfl

theorem starts_step_open : stepped.starts .htu 2 opStepOpen (pkt 0x2000 (body 16 [(0,4,9)])) :=
  starts_of (by decide +kernel) rfl

theorem starts_step_close : ({ stepped with hx := { stepped.hx with steps := [aStep] } } : State).starts .htu 2 opStepClose (pkt 0x2000 (body 8 [(0,4,9)])) :=
  starts_of (by decide +kernel) rfl

theorem starts_selftest : live.starts .htu 2 opSelftest (pkt 0x2000 (body 48 [(0,1,1),(40,1,1)])) :=
  starts_of (by decide +kernel) rfl

theorem starts_digest_compare : live.starts .htu 2 opDigestCompare (pkt 0 (body 24 [(0,8,5000)])) :=
  starts_of (by decide +kernel) rfl

theorem starts_tree_load : staged.starts .vta 9 opTreeLoad (pkt 0x3002 (body 16 [(0,1,2)])) :=
  starts_of (by decide +kernel) rfl

theorem starts_feature_load : staged.starts .vta 9 opFeatureLoad (pkt 0x3002 (body 16 [(4,4,1)])) :=
  starts_of (by decide +kernel) rfl

theorem starts_score_run : scoring.starts .vta 9 opScoreRun (pkt 0x3002 (body 16 [(0,1,2),(8,4,1)])) :=
  starts_of (by decide +kernel) rfl

theorem starts_model_swap : live.starts .vta 9 opModelSwap (pkt 0x3002 (body 16 [(1,1,0xFF)])) :=
  starts_of (by decide +kernel) rfl

theorem starts_power_cap : live.starts .htu 2 opPowerCap (pkt 0x5000 (body 16 [(0,1,1),(4,4,500000)])) :=
  starts_of (by decide +kernel) rfl

theorem starts_budget_shift : live.starts .htu 2 opBudgetShift (pkt 0x5000 (body 16 [(0,4,500000)])) :=
  starts_of (by decide +kernel) rfl

theorem starts_budget_shift_vta : live.starts .vta 9 opBudgetShift (pkt 0x5000 (body 16 [(0,1,1),(4,4,64000)])) :=
  starts_of (by decide +kernel) rfl

theorem starts_stagger : live.starts .htu 2 opStagger (pkt 0x5000 (body 8 [(0,1,4),(1,1,200)])) :=
  starts_of (by decide +kernel) rfl

theorem starts_start_at : sited.starts .htu 2 opStartAt (pkt 0 (body 24 [(0,8,5000),(8,4,77)])) :=
  starts_of (by decide +kernel) rfl

/-- The VTA's own number is an open constant; whatever it is, it is a die ID. -/
theorem assigned_vta (s : State) : s.assigned .vta = true := by
  have h : Config.vtaAddr.toNat < 2048 := Config.vtaAddr.isLt
  simp only [State.assigned, State.dieId, bne_iff_ne]
  omega

theorem starts_start_at_vta : live.starts .vta 9 opStartAt (pkt 0 (body 24 [(0,8,5000),(8,4,77)])) := by
  refine starts_from (by decide +kernel) ?_ rfl
  have h : (live.fetched .vta 9).opReady .vta opStartAt (pkt 0 (body 24 [(0,8,5000),(8,4,77)])) = true := by
    simp only [State.opReady, opStartAt, assigned_vta]
    decide +kernel
  simp only [State.takeFail, show opOf opStartAt.code = some opStartAt from rfl, h]
  decide +kernel

theorem starts_trace_arm : live.starts .htu 2 opTraceArm (pkt 0x4000 (body 24 [(1,1,1),(4,4,10),(10,1,1)])) :=
  starts_of (by decide +kernel) rfl

theorem starts_trace_trigger : tracing.starts .htu 2 opTraceTrigger (pkt 0x4000 (body 8 [])) :=
  starts_of (by decide +kernel) rfl

theorem starts_tensor_dump : dumping.starts .htu 2 opTensorDump (pkt 0x4000 (body 32 [(24,8,512)])) :=
  starts_of (by decide +kernel) rfl

theorem starts_compress_flush : live.starts .htu 2 opCompressFlush (pkt 0 (body 8 [(0,2,0xFFFF)])) :=
  starts_of (by decide +kernel) rfl

theorem starts_log_read : live.starts .htu 2 opLogRead (pkt 0 (body 16 [(12,4,64)])) :=
  starts_of (by decide +kernel) rfl

theorem starts_log_mark : live.starts .htu 2 opLogMark (pkt 0 (body 16 [(0,8,5)])) :=
  starts_of (by decide +kernel) rfl

theorem starts_scrub_range : live.starts .htu 2 opScrubRange (pkt 0 (body 24 [(0,1,1),(16,8,16)])) :=
  starts_of (by decide +kernel) rfl

theorem starts_retire : (word .htu (0xA0000 + 8 * 271) 0x100 live).starts .htu 2 opRetire (pkt 0 (body 16 [(0,1,7),(8,8,271)])) :=
  starts_of (by decide +kernel) rfl

theorem starts_attest : sited.starts .htu 2 opAttest (pkt 0 (body 8 [])) :=
  starts_of (by decide +kernel) rfl

theorem starts_policy_load : live.starts .htu 2 opPolicyLoad (pkt 0 (body 24 [(0,4,100)])) :=
  starts_of (by decide +kernel) rfl

theorem starts_key_rotate : live.starts .htu 2 opKeyRotate (pkt 0 (body 8 [])) :=
  starts_of (by decide +kernel) rfl

theorem starts_quarantine : live.starts .htu 2 opQuarantine (pkt 0 (body 8 [(0,4,0xFFFFFFFF),(4,1,1)])) :=
  starts_of (by decide +kernel) rfl

theorem starts_probation : live.starts .htu 2 opProbation (pkt 0 (body 8 [(0,4,0xFFFFFFFF),(4,1,1)])) :=
  starts_of (by decide +kernel) rfl

theorem starts_lease_renew : live.starts .htu 2 opLeaseRenew (pkt 0 (body 16 [(0,1,1)])) :=
  starts_of (by decide +kernel) rfl

theorem starts_lease_renew_vta : live.starts .vta 9 opLeaseRenew (pkt 0 (body 16 [(0,1,1)])) :=
  starts_of (by decide +kernel) rfl

theorem starts_port_hotplug : live.starts .htu 2 opPortHotplug (pkt 0x6000 (body 8 [(0,1,1)])) :=
  starts_of (by decide +kernel) rfl

theorem starts_abort_job : live.starts .htu 2 opAbortJob (pkt 0 (body 16 [(0,4,77),(4,1,1),(8,4,0xFFFFFFFF)])) :=
  starts_of (by decide +kernel) rfl

theorem starts_checked {s : State} {u : UnitId} {m : Nat} {op : Op} {p : Packet}
    (h : startsB s u m { op with check := fun _ _ _ _ => none } p = true) (ho : opOf op.code = some op)
    (hc : op.check (s.admitted u m op.code p 0) u m p = none) : s.starts u m op p := by
  simp only [startsB, Bool.and_eq_true, Option.isNone_iff_eq_none] at h
  refine starts_from ?_ h.2 ho
  have h1 := h.1
  simp only [startsC, State.startFail, hc] at h1 ⊢
  exact h1

theorem die_named (k : Nat) : arg (diePkt k) 0 4 = Config.vtaAddr.toNat * 64 := by
  have h : Config.vtaAddr.toNat < 2048 := Config.vtaAddr.isLt
  simp [arg, diePkt, pkt, fieldAt, cut, le, ofLe]
  omega

theorem die_checked (k : Nat) (s : State) (hk : arg (diePkt k) 4 1 = 1 ∨ arg (diePkt k) 4 1 = 2) :
    s.dieCheck .vta (diePkt k) = none := by
  have h : s.dieId .vta = Config.vtaAddr.toNat * 64 := rfl
  simp only [State.dieCheck, die_named, h, firstBad]
  rcases hk with hk | hk <;> simp [hk]

theorem starts_quarantine_vta : live.starts .vta 9 opQuarantine (diePkt 1) := by
  refine starts_checked (by decide +kernel) rfl ?_
  simp only [opQuarantine, die_checked 1 _ (.inl rfl)]
  have h : arg (diePkt 1) 4 1 = 1 := rfl
  simp [firstBad, h]

theorem starts_probation_vta : live.starts .vta 9 opProbation (diePkt 1) :=
  starts_checked (by decide +kernel) rfl (die_checked 1 _ (.inl rfl))

theorem starts_tree_load_refused : staged.starts .vta 9 opTreeLoad (pkt 0x3002 (body 16 [(0, 1, 2)])) ∧
    ((staged.begins .vta 9 opTreeLoad (pkt 0x3002 (body 16 [(0, 1, 2)]))).loadImage (pkt 0x3002 (body 16 [(0, 1, 2)]))).isLeft = true :=
  ⟨starts_of (by decide +kernel) rfl, by decide +kernel⟩

theorem starts_tree_load_loaded : imaged.starts .vta 9 opTreeLoad loadPkt ∧
    ((imaged.begins .vta 9 opTreeLoad loadPkt).loadImage loadPkt).isRight = true :=
  ⟨starts_of (by decide +kernel) rfl, by decide +kernel⟩

-- ill-formed commands

def aRec : Rec := { typ := 0x31 }
def aReply : ReplyMsg := { opcode := 0, status := 0, tag := 0, detail := 0, result := 0, data := [] }
def aTime : TimeMsg := { timev := true, lock := true, hold := false, seq := 0, ts := 0, inc := 0 }
def aPtp : PtpMsg := { udp := true, other := false, domain := 0, corr := 0 }
def aPtpTime : PtpTime := { form := .oneStep, seq := 4, ts := 0 }
def aTrain : TrainRun := { peer := true, part := 0x764, gen := 1, step := 0, die := 0, conn := 0, laneFail := 0, meas := 0 }
def anEdge : EdgeIn := { tap := 0, op := none, res := none, trc := none }

/-- One command for each check of `Instr.wf`, with an operand one past the last instance. -/
def illFormed : List Instr := [
  .mbxReqWrite .htu 3 .hreg 0, .mbxDoorbell .vta 10 .pcie, .mbxRspRead .htu 3 .hreg, .nop .htu 3 (pkt 0 []), .abortJob .vta 10 (pkt 0 []),
  .fenceComplete .htu 3 [], .pulseFiring .htu (genCount .htu), .pulseFiring .vta (genCount .vta), .brackenFault .htu 1, .brackenWatchdog .vta 30,
  .spdmHeartbeatTimeout 10, .peerAttest 64 0x80 (pkt 0 []), .segmentClose .htu 16384, .heartbeat 272, .clusterSilent 272, .clusterResumed 272,
  .fallowEntry 272, .fallowExit 272, .commandBoundary 272, .backgroundScan 272 0, .backgroundScan 271 16, .trcSrcWord 272 0 0,
  .laddExcWord 8 0 false, .tileFirst 272 0, .resLast 272, .tileVerdict 272, .barrierArrival 272, .stepArrival .tray (levelInputs .tray) aRec,
  .replayLost 64 aRec, .sheafPartial .rack (levelInputs .rack) aRec, .membership .hall (levelInputs .hall) aRec, .tcamScrub 64 [],
  .startNoReply 64, .trimRequest 16, .ageMonDone 16 0, .droopDetClear 16, .droopDetRise 16, .vwarnCrossing 18, .vresetCrossing 18,
  .vc1Reply .htu 1 aReply, .vc1Reply .vta 64 aReply, .dumpUnit 8 [] false, .trcDumpHalt .hreg 8, .training .htu 2 aTrain,
  .trainingRetry .vta 64 aTrain, .peerSense .htu 2 true, .forwardedClockLoss .htu 2, .dataFlit .vta 64 [], .retryTimeout .htu 2,
  .conn .htu 2 0 0, .bye .vta 64, .sync .htu 2 aTime 0, .dlyReq .vta 64 aTime 0, .dlyResp .htu 2 aTime, .exchangeInterval .htu 2,
  .ptpSync 2 aPtp 77 aPtpTime 0, .ptpDelayResp 2 aPtp 4 0, .ptpAnnounce 2 aPtp 77, .announceTimeout 2, .pllLockLoss .htu 2, .pllReady .vta 2,
  .recordIngress 64 0 aRec, .noPathTimeout .htu 1, .noPathTimeout .vta 64, .memCe .htu 6 0 1, .memUe .htu 1 524288 2 .patrol,
  .patrol .vta 1 [(0, 1)] [(1048576, 2)], .foldClose .htu 16, .foldCommit .vta 16, .hotplugAddTimeout .htu 2, .clusterClockEdge 272 anEdge,
  .flitSlot .vta 64, .controlListEntry 2 0]

theorem test_ill_formed_commands_are_refused : illFormed.all (fun i => !i.wf) = true := by decide +kernel

theorem test_ill_formed_commands_fault : exec (.nop .htu 3 (pkt 0 [])) State.reset = .fault .noSuchInstance := rfl

-- witnesses of the statements

/-- Whether a step or a command goes on. -/
def goes (o : Host.Outcome State Fault Refusal) : Bool := match o with
  | .next _ => true
  | _ => false

/-- A state after reset with one register, one memory byte and one command. -/
def plain : State :=
  let s := sets .htu [(Reg.MBX_STATUS_OPEN 0, 1)] State.reset
  { s with ddr := [(5, 1)], pending := [.heartbeat 271] }

theorem wit_StepKeepsCanonicalForm : plain.Inv ∧ goes (step plain) = true := by
  refine ⟨⟨?_, ?_, ?_, ?_⟩, ?_⟩ <;> decide +kernel

theorem wit_StepRunsFrontCommand : State.reset.pending = [] := rfl

theorem wit_CommandsAnswerAndLeaveTheQueue : (Instr.nop .htu 2 (pkt 0 [])).wf = true ∧ (Instr.nop .htu 3 (pkt 0 [])).wf = false ∧
    goes (exec (.nop .htu 2 (pkt 0 [])) live) = true := by decide +kernel

theorem wit_ClosedAndHeldMailboxes :
    (packetOf (.nop .htu 2 (pkt 0 [])) = some (.htu, 2, 1, pkt 0 []) ∧ 2 < mbxCount .htu ∧ (State.reset.dev .htu).inReset = true) ∧
    (packetOf (.nop .vta 8 (pkt 0 [])) = some (.vta, 8, 1, pkt 0 []) ∧ 8 < mbxCount .vta ∧ live.blockReady .vta 0x1000 = true ∧
      live.takes .vta 8 = false ∧ (live.mb .vta 8).held = [] ∧ (live.mb .vta 8).waiting = []) := by decide +kernel

/-- A mailbox of `live` changed. -/
def withMbx (u : UnitId) (m : Nat) (b : Mbx) (s : State := live) : State :=
  s.modDev u fun d => { d with mbx := Sparse.put d.mbx m b }

theorem wit_RequestWordsAndDoorbell :
    (2 < mbxCount .htu ∧ live.blockReady .htu 0x1000 = true ∧ mbxAgent .htu 2 ≠ some (agentActs .htu .hreg)) ∧
    (mbxAgent .htu 1 = some (agentActs .htu .bracken) ∧ live.on .htu (Reg.MBX_STATUS_OPEN 1) = true) ∧
    (mbxAgent .vta 7 = some (agentActs .vta .pcie) ∧ live.on .vta (Reg.MBX_STATUS_OPEN 7) = false) ∧
    ((withMbx .htu 0 { spilled := true }).on .htu (Reg.MBX_STATUS_OPEN 0) = true ∧ ((withMbx .htu 0 { spilled := true }).mb .htu 0).spilled = true) ∧
    (((withMbx .htu 0 { words := [1] }).mb .htu 0).spilled = false ∧ parseV2 ((withMbx .htu 0 { words := [1] }).mb .htu 0).words = none) ∧
    (parseV2 ((withMbx .htu 0 { words := [1, 0x100] }).mb .htu 0).words).isSome = true := by decide +kernel

def anOutst (first : Bool) (flags : BitVec 8 := 0) : Outst :=
  { tag := 7, opcode := 0x14, flags, target := 0, part := 0, role := 1, first, need := 64 }

theorem wit_RepliesAreWrittenAndRead :
    (mbxAgent .htu 0 = some (agentActs .htu .hreg) ∧ (live.mb .htu 0).replies = []) ∧
    ((withMbx .htu 0 { replies := [([1, 2], 8)] }).mb .htu 0).replies = [([1, 2], 8)] ∧
    mbxAgent .htu 2 ≠ some (agentActs .htu .hreg) ∧
    (peerMbx .htu 0 = false ∧
      ((withMbx .htu 0 { outst := [anOutst false 4] }).mb .htu 0).outst.find? (·.tag == (anOutst false 4).tag) = some (anOutst false 4) ∧
      (anOutst false 4).discard = false ∧ stOk ≠ stAccepted ∧ (anOutst false 4).flags.getLsbD 2 = true ∧
      (anOutst false).flags.getLsbD 2 = false ∧ (withMbx .htu 0 { outst := [anOutst false] }).on .htu (Reg.MBX_STATUS_GEN 0) = false) := by
  decide +kernel

theorem wit_MailboxErrorsAreCounted : 2 < mbxCount .htu ∧ 9 < mbxCount .vta := by decide

/-- The conditions of `State.canTake`, to evaluate. -/
def canB (s : State) (u : UnitId) (m : Nat) (p : Packet) : Bool :=
  decide (m < mbxCount u) && s.blockReady u 0x1000 && s.takes u m && (s.mb u m).waiting.isEmpty && (s.mb u m).held.isEmpty
    && decide ((s.mb u m).outst.length < s.outLimit u m) && decide (packetWords p (s.on u (Reg.MBX_STATUS_GEN m)) ≤ s.reqFree u m)
    && !s.on u (Reg.MBX_STATUS_GEN m)

theorem can_of {s : State} {u : UnitId} {m : Nat} {p : Packet} (h : canB s u m p = true) : s.canTake u m p := by
  simp only [canB, Bool.and_eq_true, decide_eq_true_eq, List.isEmpty_iff, Bool.not_eq_true'] at h
  obtain ⟨⟨⟨⟨⟨⟨⟨h1, h2⟩, h3⟩, h4⟩, h5⟩, h6⟩, h7⟩, h8⟩ := h
  exact ⟨h1, h2, h3, h4, h5, h6, h7, fun h => by simp [h8] at h⟩

def doubled : State := withMbx .htu 2 { outst := [anOutst false] }

theorem wit_DuplicateTagIsDiscarded : packetOf (.nop .htu 2 (pkt 0 [])) = some (.htu, 2, 1, pkt 0 []) ∧ doubled.canTake .htu 2 (pkt 0 []) ∧
    (doubled.mb .htu 2).outst.any (·.tag == (pkt 0 []).tag) = true := ⟨rfl, can_of (by decide +kernel), by decide +kernel⟩

/-- A packet with a SEQ that is not expected. -/
def late : Packet := { pkt 0 [] with seq := 5 }

theorem wit_RefusedPackets :
    (packetOf (.nop .htu 2 late) = some (.htu, 2, 1, late) ∧ live.canTake .htu 2 late ∧ (live.mb .htu 2).outst.any (·.tag == late.tag) = false ∧
      live.on .htu (Reg.MBX_STATUS_GEN 2) = false ∧ late.seq.toNat ≠ live.rd .htu (Reg.MBX_NEXT_SEQ_SEQ 2)) ∧
    (live.inTurn .htu 2 (pkt 0 [0]) ∧ (live.fetched .htu 2).takeFail .htu 2 1 (pkt 0 [0]) = some (badParam 2)) ∧
    (live.canTake .vta 9 (pkt 0x3002 (body 16 [(0, 1, 16)])) ∧ live.inTurn .vta 9 (pkt 0x3002 (body 16 [(0, 1, 16)])) ∧
      live.unheld .vta 9 opTreeLoad.code (pkt 0x3002 (body 16 [(0, 1, 16)])) ∧ opOf opTreeLoad.code = some opTreeLoad ∧
      (live.fetched .vta 9).takeFail .vta 9 opTreeLoad.code (pkt 0x3002 (body 16 [(0, 1, 16)])) = none ∧
      (live.admitted .vta 9 opTreeLoad.code (pkt 0x3002 (body 16 [(0, 1, 16)])) 0).startFail .vta 9 opTreeLoad
        (pkt 0x3002 (body 16 [(0, 1, 16)])) = some (badParam 3)) := by
  refine ⟨⟨rfl, can_of (by decide +kernel), by decide +kernel, by decide +kernel, by decide +kernel⟩,
    ⟨⟨by decide +kernel, .inr (by decide +kernel)⟩, by decide +kernel⟩, can_of (by decide +kernel),
    ⟨by decide +kernel, .inr (by decide +kernel)⟩, ⟨by decide +kernel, fun _ => by decide +kernel⟩, rfl, by decide +kernel, by decide +kernel⟩

theorem wit_ChecksComeInOrder :
    (opOf 0xFF).isNone = true ∧ opTreeLoad.onUnit .htu = false ∧
    (opAttest.onUnit .htu = true ∧ (sets .htu [(Reg.MBX_STATUS_GEN 0, 1)] live).on .htu (Reg.MBX_STATUS_GEN 0) = true ∧ opAttest.v1 = false) ∧
    (opNop.plen 8 = false ∧ opNop.plen 0 = true ∧ live.on .htu (Reg.MBX_STATUS_GEN 2) = false) ∧
    (opLogRead.onUnit .vta = true ∧ opLogRead.plen 16 = true ∧
      (sets .vta [(Reg.VTA_STATUS_RECORDER_OPEN, 0)] live).opReady .vta opLogRead (pkt 0 (body 16 [])) = false ∧
      live.opReady .vta opLogRead (pkt 0 (body 16 [])) = true) ∧
    ({ pkt 0 [] with role := 7 }.roleN = 7 ∧ { pkt 0 [] with role := 6 }.roleN = 6 ∧ live.holds .htu 1 = false ∧ live.holds .htu 0 = true ∧
      live.granted .htu 2 3 1 = false ∧ live.roleFail .htu 2 opNop (pkt 0x7000 []) = none ∧
      (opNop.classes.contains (targetClass 0x7000) && validTarget .htu (targetClass 0x7000) (targetInst 0x7000)) = false) := by
  decide +kernel

def fenced : State := withMbx .htu 2 { outst := [{ anOutst true with opcode := 3 }], held := [(3, pkt 0 [])] }

def fenceBefore : State := withMbx .htu 2 { outst := [{ anOutst true with opcode := 1 }], held := [(1, pkt 0 [] 2)] }

theorem wit_FencesHoldAndComplete :
    (live.canTake .htu 2 (pkt 0 []) ∧ live.inTurn .htu 2 (pkt 0 []) ∧ (live.fetched .htu 2).takeFail .htu 2 3 (pkt 0 []) = none) ∧
    (2 < mbxCount .htu ∧ (fenced.dev .htu).inReset = false ∧ (((fenced.mb .htu 2).held.find? fun e => isFence e.1 e.2
      && (fenced.mb .htu 2).unblocked (fenced.on .htu (Reg.MBX_STATUS_GEN 2)) e.2 && (fenced.mb .htu 2).fenceDone e.2) = some (3, pkt 0 []))) ∧
    (((fenceBefore.mb .htu 2).held.find? fun e => isFence e.1 e.2 && (fenceBefore.mb .htu 2).unblocked (fenceBefore.on .htu
      (Reg.MBX_STATUS_GEN 2)) e.2 && (fenceBefore.mb .htu 2).fenceDone e.2) = some (1, pkt 0 [] 2) ∧ opOf 1 = some opNop) := by
  refine ⟨⟨can_of (by decide +kernel), ⟨by decide +kernel, .inr (by decide +kernel)⟩, by decide +kernel⟩, by decide +kernel, by decide +kernel, rfl⟩

theorem wit_GeneralCommandsComplete :
    (live.fn .htu 0x5000).st = .stopped ∧ ((withFn .htu 0x5000 .running live).fn .htu 0x5000).st = .running ∧
    live.entryFail .htu 2 (pkt 0 []) 0x1028 4 1 = none ∧ live.entryFail .htu 2 (pkt 0 []) 0x1029 4 1 = some (stBadParam, 0) := by
  decide +kernel

def acked (n : Nat) : State := { live with h := { live.h with acks := [(3, n)] } }

theorem wit_CollectorCommandsComplete :
    (Sparse.find live.h.acks (65536 * 0 + 3) = none) ∧ (Sparse.find (acked 4).h.acks 3 = some 4 ∧ serialGt 32 5 4 = true ∧ serialGt 32 4 4 = false) ∧
    (swept.fn .htu 0x1005).st = .running ∧ live.timev .htu = true := by decide +kernel

def aGen : Gen := { start := 0, frac := 0, fired := 0, part := 0, role := 1, mbx := 2, tag := some 9 }

/-- A generator armed for instant `t` with destination PPS. -/
def armed (u : UnitId) (g t : Nat) (k : Gen) (s : State) : State :=
  sets u [(Reg.TIM_PULSE_NEXT g, t), (Reg.TIM_PULSE_STATE g, 1), (Reg.TIM_PULSE_COUNT g, 1), (Reg.TIM_PULSE_DEST g, 4)]
    (s.modDev u fun d => { d with gens := [(g, k)] })

theorem wit_TimeCommandsComplete : Sparse.find (live.dev .htu).gens 7 = none ∧
    Sparse.find ((armed .htu 0 0 aGen live).dev .htu).gens 0 = some aGen ∧ (armed .htu 0 0 aGen live).genDue .htu 0 aGen = true ∧
    (armed .htu 0 9 { aGen with start := 9 } live).genDue .htu 0 { aGen with start := 9 } = false := by decide +kernel

def aSlot : Slot := { feats := [], bases := [], groupOf := [], bankOf := [], layouts := [], jobs := [], part := 0, role := 1, signed := false, image := [] }

theorem wit_HeatherCommandsComplete : (Sparse.find [(15, aSlot)] 15).isSome = true := by decide +kernel

theorem wit_PowerCommandsComplete : live.jobLive .vta = false ∧ live.jobLive .htu = false ∧
    (sets .htu [(Reg.HTU_JOB_STATE, jobRunning)] live).jobLive .htu = true := by decide +kernel

def retirePkt : Packet := pkt 0 (body 16 [(0, 1, 7), (8, 8, 271)])

def fullEvr : Evr := { staged := [{ (live.newEvent .htu 0x0701 []) with payload := zeros 61440 }] }

theorem wit_LogAndFirmwareCommandsComplete :
    (arg retirePkt 0 1 = 7 ∧ (word .htu (0xA0000 + 8 * 271) 0x100 live).isRetired 7 (arg retirePkt 8 8) = false) ∧
    ((arg (pkt 0 (body 16 [])) 8 1).testBit 0 = false ∧
      ((live.dev .htu).evr.commit (live.newEvent .htu 0x0701 (zeros 8))).staged.length = 1) ∧
    (fullEvr.commit (live.newEvent .htu 0x0701 (zeros 8))).staged.length ≤ fullEvr.staged.length := by decide +kernel

def portion (last : Nat) : Packet := pkt 0 (body 24 [(0, 4, 8), (8, 1, last)])

theorem refused_policy : ∃ a, live.policyFail .htu (zeros 8) = some a := by
  have h : decide (fieldAt (zeros 8) 4 4 ≤ live.rd .htu Reg.SEC_POLICY_VER_VERSION) = true := by decide +kernel
  simp only [State.policyFail, firstBad, h]
  split
  · exact ⟨_, rfl⟩
  · split <;> exact ⟨_, rfl⟩

def aPol : PolicyBody := {}

def pended (ep : Nat) : State := { live with h := { live.h with pol := { pend := some (3, ep, aPol, []) } } }

def signed (t : Nat) : State := { live with h := { live.h with streams := [(16383, { aStream with segTime := t })] } }

theorem wit_PolicyIsAssembledAndApplied :
    ((arg (portion 0) 8 1).testBit 0 = false ∧ (arg (portion 1) 8 1).testBit 0 = true ∧ ((portion 1).params.drop 16).length = arg (portion 1) 0 4) ∧
    ((live.dev .htu).inReset = false ∧ 16383 < streamCount .htu ∧ Sparse.find ((signed 0).dev .htu).streams 16383 = some { aStream with segTime := 0 }) ∧
    (live.gorseUp .htu = true ∧ live.timev .htu = true ∧ ((pended 0).dev .htu).pol.pend = some (3, 0, aPol, [])) ∧
    ((live.dev .htu).pol.pend = none ∧ (sets .htu [(Reg.HTU_STATUS_POLICY, 0)] live).policy .htu = false ∧
      live.on .htu Reg.HTU_STATUS_MBX0_OPEN = false ∧ live.rd .htu Reg.HTU_STATUS_BOOT_FAIL = 0 ∧
      live.on .vta Reg.VTA_STATUS_PCIE_OPEN = true ∧ live.rd .vta Reg.VTA_STATUS_BOOT_FAIL ≠ 5) ∧
    ((live.dev .htu).pol.body = none ∧ aPol.regs = [] ∧ aPol.collectors = [] ∧ aPol.startFns = [] ∧ aPol.clusters = none ∧
      aPol.sentinel = none ∧ aPol.svn = none ∧ (live.dev .htu).colls = []) := by decide +kernel

def unpolicied : State := sets .vta [(Reg.VTA_STATUS_POLICY, 0)] live

theorem rd_with_v (s : State) (v : Dev) (f : Fld) : State.rd { s with v := v } .vta f = s.rd .vta f := rfl

def keeping (image : List Byte) : State := { unpolicied with v := { unpolicied.v with evr := { policy := some image } } }

/-- What the signed policy of R121 says is an open constant; where it names a content for the stored image, a start takes it up again. -/
theorem wit_PolicyStartApply (image : List Byte) (body : PolicyBody) (h : (keeping image).policyContent .vta image = some body) :
    (keeping image).gorseUp .vta = true ∧ (keeping image).policy .vta = false ∧ ((keeping image).dev .vta).pol.pend = none ∧
      (keeping image).on .vta Reg.VTA_STATUS_PCIE_OPEN = true ∧ (keeping image).rd .vta Reg.VTA_STATUS_BOOT_FAIL ≠ 5 ∧
      ((keeping image).dev .vta).evr.policy = some image ∧ (keeping image).policyContent .vta image = some body := by
  have r : ∀ f, (keeping image).rd .vta f = unpolicied.rd .vta f := rd_with_v _ _
  have e : ∀ f, (keeping image).on .vta f = unpolicied.on .vta f := fun f => by simp only [State.on, r]
  refine ⟨?_, ?_, rfl, ?_, ?_, rfl, h⟩
  · simp only [State.gorseUp, e]; decide +kernel
  · simp only [State.policy, e]; decide +kernel
  · rw [e]; decide +kernel
  · rw [r]; decide +kernel

theorem wit_FleetCommandsComplete : live.rd .vta (Reg.VTA_DIE_VERDICT 63) = vHealthy ∧
    3 ≤ (sets .vta [(Reg.VTA_DIE_VERDICT 63, 3)] live).rd .vta (Reg.VTA_DIE_VERDICT 63) ∧
    live.rd .htu (Reg.FUR_PORT_STATE 1) ≠ portUp ∧ (sets .htu [(Reg.HTU_JOB_JOB_ID, 77), (Reg.HTU_JOB_STATE, jobRunning)] live).jobLive .htu = true := by
  decide +kernel

theorem wit_MisalignedAccessIsRecorded : (live.dev .vta).inReset = false := by decide +kernel

theorem wit_RegisterAccessTypes : live.blockReady .htu 0x1000 = true ∧ live.blockReady .vta 0x80000 = true ∧ Agent.hreg ≠ .gorse := by
  decide +kernel

def latched : State := { live with h := { live.h with hiLatch := [(.hreg, 0x2018, 5)] } }

theorem wit_WideRegistersInHalves :
    (live.blockReady .htu 0x2018 = true ∧ ((latched.dev .htu).hiLatch.find? fun e => e.1 == .hreg && e.2.1 == 0x2018) = some (.hreg, 0x2018, 5)) ∧
    (isWide .vta 0x1002010 = true ∧ live.blockReady .vta 0x1002010 = true) ∧
    ({ live with v := { live.v with loHeld := [(.gorse, 0x1002010, 9)] } }.lowHeld .vta .gorse 0x1002010 = some 9 ∧
      live.lowHeld .vta .gorse 0x1002010 = none) ∧ live.blockReady .vta 0x2008 = true := by decide +kernel

theorem wit_RegisterActions :
    (live.blockReady .htu 0xA2000 = true ∧ agentActs .htu .bracken = .bracken ∧ agentActs .htu .hreg ≠ .bracken) ∧
    (live.blockReady .htu (0x50800 + 32 * 7) = true ∧ live.rd .htu (Reg.TRC_DUMP_STATE 7) ≠ chanHalted ∧
      (sets .htu [(Reg.TRC_DUMP_STATE 7, chanHalted)] live).rd .htu (Reg.TRC_DUMP_STATE 7) = chanHalted) ∧
    (live.blockReady .htu 0x30088 = true ∧ live.blockReady .htu 0x2000 = true ∧ live.blockReady .vta 0x2000 = true) ∧
    (live.rd .htu Reg.TIM_CTL_SRC_PREF = 0 ∧ live.rd .htu Reg.TIM_CTL_SRC_PREF ≠ (3 : BitVec 2).toNat) := by decide +kernel

/-- The stations of the default map ACTIVE for its clusters, and a pending map that gives the last cluster the spare of its region. -/
def mapped (stat : Nat) : State :=
  { live with hregs := (Reg.TAP_MAP_STATUS_STAT.off, BitVec.ofNat 64 stat) :: (0xA13F8, 269 + 271 * 2 ^ 32) :: (0xA0000 + 8 * 271, 256) ::
      (List.range 256).map (fun n => (0xA0000 + 8 * (17 * (n / 16) + n % 16), BitVec.ofNat 64 n)) ++ live.hregs }

def pendPhys (n : Nat) : Nat := if n = 255 then 271 else 17 * (n / 16) + n % 16

theorem good_map {s : State} (hp : ∀ n < 256, s.rd .htu (Reg.TAP_MAP_PEND_PHYS n) = pendPhys n)
    (hr : ∀ n < 256, s.rd .htu (Reg.TAP_PHYS_STATE (pendPhys n)) ≠ phRetired) (n : Nat) (h : n < 256) : s.mapTest n = 0 := by
  have h1 : ¬ (pendPhys n / 17 ≠ n / 16 ∨ pendPhys n ≥ 272) := by unfold pendPhys; split <;> omega
  have h2 : ((List.range 256).any fun m => m != n && s.rd .htu (Reg.TAP_MAP_PEND_PHYS m) == pendPhys n) = false := by
    rw [List.any_eq_false]
    intro m hm
    rw [List.mem_range] at hm
    simp only [hp m hm, Bool.and_eq_true, bne_iff_ne, beq_iff_eq, not_and]
    unfold pendPhys
    intro hne
    split <;> split <;> omega
  simp only [State.mapTest, hp n h, if_neg h1, h2, hr n h, false_and, if_false, Bool.false_eq_true]

theorem mapped_passes : ((List.range 256).find? fun n => (mapped 0).mapTest n != 0) = none := by
  rw [List.find?_eq_none]
  intro n hn
  simp [good_map (s := mapped 0) (by decide +kernel) (by decide +kernel) n (List.mem_range.mp hn)]

/-- A pending map whose first entry leaves its region. -/
def misplaced : State := sets .htu [(Reg.TAP_MAP_PEND_PHYS 0, 17)] live

def scheduled : State := mapped 1

theorem wit_MapCommitChecksTheMap :
    (live.blockReady .htu 0xA2000 = true ∧ agentActs .htu .hreg ≠ .bracken) ∧
    ((sets .htu [(Reg.TAP_MAP_STATUS_STAT, 1)] live).rd .htu Reg.TAP_MAP_STATUS_STAT = 1 ∧ live.rd .htu Reg.TAP_MAP_STATUS_STAT ≠ 1) ∧
    (swept.h.colls ≠ [] ∧ live.h.colls = [] ∧ (sets .htu [(Reg.TIM_STATUS_TIMEV, 0)] live).timev .htu = false) ∧
    (serialGe 32 (live.rd .htu Reg.TAP_MAP_EPOCH_APPLY_EPOCH) (live.epoch .htu + 2) = false ∧
      serialGe 32 ((sets .htu [(Reg.TAP_MAP_EPOCH_APPLY_EPOCH, 2)] live).rd .htu Reg.TAP_MAP_EPOCH_APPLY_EPOCH) (live.epoch .htu + 2) = true) ∧
    ((List.range 256).find? fun n => misplaced.mapTest n != 0) = some 0 ∧ misplaced.mapTest 0 = 1 := by decide +kernel

theorem wit_MapCommitPasses : ((List.range 256).find? fun n => (mapped 0).mapTest n != 0) = none ∧
    (mapped 0).rd .htu Reg.TAP_MAP_STATUS_STAT ≠ 1 ∧ (mapped 0).h.colls = [] := ⟨mapped_passes, by decide +kernel, by decide +kernel⟩

theorem wit_EpochWorkOfTheDie :
    (∀ n < 256, scheduled.mapTest n = 0) ∧ scheduled.h.inReset = false ∧ scheduled.timev .htu = true ∧ scheduled.h.gated = false ∧
    scheduled.rd .htu Reg.TAP_MAP_STATUS_STAT = 1 ∧ scheduled.physOf 255 ≠ scheduled.rd .htu (Reg.TAP_MAP_PEND_PHYS 255) ∧
    serialGe 32 (scheduled.epoch .htu) (scheduled.rd .htu Reg.TAP_MAP_EPOCH_APPLY_EPOCH) = true ∧
    (live.rd .htu Reg.TAP_MAP_STATUS_STAT ≠ 1 ∧ serialGe 32 (live.epoch .htu) (live.rd .htu Reg.SEC_PART_EPOCH_PEND_EPOCH) = true ∧
      (sets .htu [(Reg.TIM_STATUS_TIMEV, 0)] live).timev .htu = false) ∧
    ((sets .htu [(Reg.SEC_CLUSTER_PART_PEND_VALID 255, 1)] live).on .htu (Reg.SEC_CLUSTER_PART_PEND_VALID 255) = true ∧
      live.on .htu (Reg.SEC_CLUSTER_PART_PEND_VALID 255) = false) ∧
    (Sparse.get 0 live.hx.fracE 2048 < 10 ^ 9 ∧ Sparse.get 0 live.hx.fracE (8 * 255 + 7) < 10 ^ 9) := by
  refine ⟨good_map (by decide +kernel) (by decide +kernel), ?_, ?_, ?_, ?_, ?_, ?_, ?_, ?_, ?_⟩ <;> decide +kernel

theorem wit_ResetsClearOneUnit : live.h.inReset = false ∧ State.reset.h.inReset = true := by decide +kernel

theorem wit_StartsReachTheirSteps : State.reset.h.inReset = true ∧ State.reset.v.inReset = true ∧ State.reset.vx.refHeld = false ∧
    State.reset.vx.thermTrip = false ∧ ({ fail := 5, blank := false, slow := false, brackens := [] } : BootRun).fail = 5 := by decide +kernel

def brackens (faults : Nat) : State := { live with v := { live.v with brks := [(29, { running := true, faults })] } }

theorem wit_BrackenFaultsOnce : 29 < brackenCount .vta ∧ ((brackens 0).dev .vta).inReset = false ∧ (brackens 0).gorseUp .vta = true ∧
    (live.brk .vta 29).running = false ∧ ((brackens 1).brk .vta 29).running = true ∧ 2 ≤ ((brackens 2).brk .vta 29).faults := by decide +kernel

theorem wit_LockstepMismatchStopsGorse : (live.dev .htu).inReset = false ∧ live.gorseUp .htu = true ∧
    (sets .htu [(Reg.HTU_STATUS_GORSE_UP, 0)] live).gorseUp .htu = false ∧ (word .htu 0x80000 0x100 live).rd .htu Reg.SEC_STATE_MISMATCHES + 1 ≠ 3 ∧
    (word .htu 0x80000 0x200 live).rd .htu Reg.SEC_STATE_MISMATCHES + 1 = 3 := by decide +kernel

/-- The SPDM requester of the VTA towards the die of port 63. -/
def asking (step tries : Nat) : State := { live with v := { live.v with spdm := [(63, step, tries, 0)] } }

theorem wit_SpdmSessionsAndPeers :
    (9 < 10 ∧ live.v.inReset = false ∧ live.gorseUp .vta = true ∧ live.spdmAt .vta 63 = none) ∧
    ((asking 6 0).spdmAt .vta 63 = some (6, 0, 0) ∧ spdmLast 63 ≤ 6) ∧ ((asking 5 2).spdmAt .vta 63 = some (5, 2, 0) ∧ 5 < spdmLast 63) ∧
    (asking 5 3).spdmAt .vta 63 = some (5, 3, 0) ∧ (asking 0 4).spdmAt .vta 63 = some (0, 4, 0) ∧
    ((pkt 0 []).roleN ≠ rolePeer ∧ { pkt 0 [0, 0] with role := 6 }.roleN = rolePeer ∧ (1 : BitVec 8) ≠ 0x80 ∧ (1 : BitVec 8) ≠ 0x92 ∧
      fieldAt [0x10, 0x84] 1 1 ≠ spdmChallenge) := by decide +kernel

/-- A function that drains with a limit. -/
def draining (u : UnitId) (fid limit : Nat) (s : State := live) : State :=
  s.modDev u fun d => { d with fns := Sparse.put d.fns fid { st := .draining, limit } }

/-- A collector with a record that waits, while its function drains. -/
def busyColl : State := draining .htu 0x1005 9 { swept with h := { swept.h with retain := [] } }

theorem wit_DrainedFunctionsStop :
    ((live.fn .htu 0x2000).st ≠ .draining ∧ ((draining .htu 0x2000 0).fn .htu 0x2000).st = .draining ∧
      (draining .htu 0x2000 0).workDone .htu 0x2000 = true ∧ ((draining .htu 0x2000 0).fn .htu 0x2000).limit = 0) ∧
    (0x2000 / 4096 ≠ 4 ∧ 0x2000 / 4096 ≠ 6 ∧ 0x2000 / 4096 ≠ 1 ∧ 0x2000 / 4096 ≠ 3 ∧ ((draining .htu 0x2000 9).fn .htu 0x2000).limit ≠ 0) := by
  decide +kernel

def noRef : State := sets .vta [(Reg.VTA_CLK_REF_LOST, 1)] live

theorem wit_ReferenceAndPcieEvents :
    (live.v.inReset = false ∧ noRef.on .vta Reg.VTA_CLK_REF_LOST = true ∧ live.on .vta Reg.VTA_CLK_REF_LOST = false) ∧
    ({ live with vx := { live.vx with refHeld := true } }.vx.refHeld = true ∧ noRef.vx.refHeld = false) ∧
    ((word .vta 0x80000 1 live).on .vta Reg.SEC_STATE_UDS_LOCK = true ∧ live.gorseUp .vta = true ∧
      live.recorderOpen .vta = true ∧ live.rd .vta Reg.VTA_STATUS_BOOT_FAIL = 0) := by decide +kernel

def gated : State :=
  { live with v := { live.v with pol := { body := some { qbv := [(1, { entries := [{ gates := 0xFF, ns := 5 }] })] } } } }

theorem wit_TemperaturesAndGates :
    ([735#10, 736].foldl (fun n c => max n c.toNat) 0 = 736 ∧ [695#10, 656].foldl (fun n c => max n c.toNat) 0 = 695 ∧
      [635#10].foldl (fun n c => max n c.toNat) 0 = 635 ∧ live.on .vta Reg.VTA_THERM_THROTTLE = false) ∧
    (1 < 2 ∧ gated.polBody .vta = some { qbv := [(1, { entries := [{ gates := 0xFF, ns := 5 }] })] } ∧
      ([(1, ({ entries := [{ gates := 0xFF, ns := 5 }] } : QbvList))].find? fun e => e.1 == 1 && qbvOk e.2 && e.2.base ≤ gated.ns .vta)
        = some (1, { entries := [{ gates := 0xFF, ns := 5 }] }) ∧ live.polBody .vta = none) := by decide +kernel

theorem wit_MemoryErrorsReachTheirReaders : inRegion .htu 5 (2 ^ 26 - 1) = true ∧ inRegion .vta 11 (2 ^ 39 - 1) = true ∧
    (live.dev .htu).inReset = false ∧ ((withFn .htu fidSentinel .running live).fn .htu fidSentinel).st = .running := by decide +kernel

def anEvent : EvRec := live.newEvent .htu 0x0403 (zeros 8)

def aFold : Fold := { first := anEvent, latest := zeros 8, latestT := 0, tick := 0, count := 1 }

def folding (slots : List Fold) (recent : List (EvRec × Nat)) (ticks : Nat := 0) : State :=
  { live with h := { live.h with ticks, evr := { slots, recent } } }

theorem wit_EventsAreFolded :
    (folding [aFold] []).h.evr.slots.any (fun f => f.first.same 0x0403 (zeros 8)) = true ∧
    ((folding (List.replicate 15 { aFold with first := { anEvent with typ := 1 } }) [(anEvent, 0)]).h.evr.slots.any
        (fun f => f.first.same 0x0403 (zeros 8)) = false ∧
      ((folding [] [(anEvent, 0)] ticksPerS).h.evr.recent.find? fun r => r.1.same 0x0403 (zeros 8) && decide (ticksPerS ≤ r.2 + ticksPerS))
        = some (anEvent, 0) ∧ 15 < 16) ∧
    ((folding [] [(anEvent, 0)] (ticksPerS + 1)).h.evr.recent.find? fun r =>
        r.1.same 0x0403 (zeros 8) && decide (ticksPerS + 1 ≤ r.2 + ticksPerS)) = none := by decide +kernel

def recording : State :=
  sets .htu [(Reg.EVR_STATUS_BUCKET, 1)] { live with h := { live.h with evr := { staged := [anEvent] } } }

theorem wit_RecorderKeepsItsRecords :
    ((folding (List.replicate 16 aFold) [] ticksPerS).h.evr.slots[15]? = some aFold ∧ aFold.tick + ticksPerS ≤ ticksPerS) ∧
    ((folding [aFold] [] (ticksPerS - 1)).h.evr.slots[0]? = some aFold ∧ ticksPerS - 1 < aFold.tick + ticksPerS) ∧
    (live.h.evr.slots[15]? = none) ∧
    (recording.recorderOpen .htu = true ∧ recording.on .htu Reg.PWR_STATUS_HOLD = false ∧ recording.h.evr.staged ≠ [] ∧
      recording.on .htu Reg.EVR_STATUS_BUCKET = true ∧ (Prog.refill .htu).run recording = recording) ∧
    (({} : Evr).dropped = 0 ∧ ({} : Evr).stagedBytes + anEvent.size ≤ (if anEvent.keyType then 65536 else 61440) ∧
      (if anEvent.keyType then 65536 else 61440) < ({ staged := [{ anEvent with payload := zeros 61440 }] } : Evr).stagedBytes + anEvent.size) := by
  decide +kernel

/-- Station 271 ACTIVE for cluster 255, or in another state. -/
def station271 (st : Nat) (s : State := live) : State := word .htu (0xA0000 + 8 * 271) (255 + 256 * st) s

def fallowed : State := { station271 0 with hx := { live.hx with stations := [(271, { fallow := true, fallowV := true })] } }

theorem wit_StationsFallSilentAndFallow :
    (271 < 272 ∧ (station271 0).h.inReset = false ∧ (station271 0).rd .htu (Reg.TAP_PHYS_STATE 271) = phActive ∧
      (station271 0).rd .htu (Reg.TAP_PHYS_STATE 271) ≠ phSilent ∧ (station271 2).rd .htu (Reg.TAP_PHYS_STATE 271) = phSilent ∧
      (station271 2).rd .htu (Reg.TAP_PHYS_STATE 271) ≠ phActive) ∧
    ((live.station 271).fallow = false ∧ (fallowed.station 271).fallow = true ∧ (fallowed.station 271).fallowV = true ∧
      fallowed.serves 271 = true ∧ fallowed.timev .htu = true) := by decide +kernel

def aTile : Tile := { fmt := 0, checked := true, sign := 0, y := [0], k := 0, opNan := false }

/-- Station 271 with a tile in its lane. -/
def tiled (l : Lane) : State := { station271 0 with hx := { live.hx with lanes := [(271, l)] } }

theorem wit_SlicesCountEdges :
    ((station271 0).serves 271 = true ∧ (station271 1).serves 271 = false ∧ (fallowed.station 271).fallow = true) ∧
    (((tiled { tiles := [aTile], taking := true }).lane 271).tiles = [aTile] ∧ ((tiled { tiles := [aTile], taking := true }).lane 271).taking = true) ∧
    ((sets .htu [(Reg.TAP_CMD_CFG_CMD_EN, 1)] (station271 0)).on .htu Reg.TAP_CMD_CFG_CMD_EN = true ∧ live.on .htu Reg.TAP_CMD_CFG_CMD_EN = false) ∧
    ((station271 3).rd .htu (Reg.TAP_PHYS_STATE 271) = phRetired ∧ (station271 0).rd .htu (Reg.TAP_PHYS_STATE 271) ≠ phRetired) ∧
    (station271 0).owner ((station271 0).rd .htu (Reg.TAP_PHYS_LOGICAL 271)) = (station271 0).rd .htu Reg.TRC_STATUS_OWNER := by decide +kernel

/-- A schedule entry at time 0, which is due in `live`. -/
def due (k : SKind) (cmd : Option (Nat × BitVec 16) := none) : Sched := { t := 0, kind := k, cmd }

def scheduling (u : UnitId) (l : List Sched) (s : State := live) : State := s.modDev u fun d => { d with sched := l }

def timeless : State := sets .htu [(Reg.TIM_STATUS_TIMEV, 0)] live

theorem wit_Captures :
    (((scheduling .htu [due (.snapshot 0 1)]).captureEntries .htu 0) = [due (.snapshot 0 1)] ∧ live.due .htu 0 = true ∧ live.due .htu 1 = false ∧
      live.captureEntries .htu 0 = [] ∧ timeless.timev .htu = false) ∧
    ((scheduling .htu [due (.periodic 0 9)]).nearOther .htu 0 = false ∧ live.h.taken.any (fun x => x / 1000 == 0 / 1000) = false ∧
      ({ live with h := { live.h with taken := [999] } }).h.taken.any (fun x => x / 1000 == 0 / 1000) = true) ∧
    (((scheduling .htu [due (.armTime 5)] swept).h.sched.find? fun e => e.kind == .armTime 5 &&
        (scheduling .htu [due (.armTime 5)] swept).due .htu e.t) = some (due (.armTime 5)) ∧
      (scheduling .htu [due (.armTime 5)] swept).coll .htu 5 = some aColl ∧ laneCount .htu aColl.sels = 0 ∧
      (live.h.sched.find? fun e => e.kind == .armTime 5 && live.due .htu e.t) = none) ∧
    (live.hx.sweep = none ∧ { timeless with hx := { timeless.hx with sweep := some (2, 7, 3) } }.hx.sweep = some (2, 7, 3) ∧
      live.due .htu (due (.sweep 3)).t = true ∧ live.due .htu { due (.sweep 3) with t := 1 }.t = false) := by decide +kernel

theorem wit_Firings :
    (genCount .htu - 1 < genCount .htu ∧ Sparse.find (live.dev .htu).gens (genCount .htu - 1) = none) ∧
    (Sparse.find ((armed .htu 0 0 { aGen with tag := none } live).dev .htu).gens 0 = some { aGen with tag := none } ∧
      (armed .htu 0 0 { aGen with tag := none } live).genDue .htu 0 { aGen with tag := none } = true ∧
      (armed .htu 0 0 { aGen with tag := none } live).rd .htu (Reg.TIM_PULSE_DEST 0) = 4 ∧
      (armed .htu 0 0 { aGen with tag := none } live).rd .htu (Reg.TIM_PULSE_COUNT 0) = 1) ∧
    ((armed .htu 0 9 { aGen with start := 9 } live).genDue .htu 0 { aGen with start := 9 } = false) ∧
    ((armed .htu 0 0 aGen timeless).genDue .htu 0 aGen = true ∧ (armed .htu 0 0 aGen timeless).timev .htu = false) := by decide +kernel

/-- The trace of the HTU in a phase, with a readout queued. -/
def phased (phase : Nat) : State :=
  sets .htu [(Reg.TRC_STATUS_PHASE, phase), (Reg.TRC_CFG_REARM, 1), (Reg.TRC_STREAM_VALID 0, 1)]
    { live with h := { live.h with trace := { queued := true } } }

/-- A dump on channel 7 whose next unit is its first of two. -/
def aDump : Dump := { name := 0, step := 0, atClose := false, comp := false, addr := 0, len := 8192, part := 0, cmd := (2, 7), chan := some 7 }

def dumpRun (size : Nat) : State :=
  sets .htu [(Reg.CMP_CFG_UNIT_KIB, 0)] { live with hx := { live.hx with dumps := [aDump] }
                                                    h := { live.h with pol := { body := some { windows := [(0, 0, size)] } } } }

theorem wit_TraceAndDumpRows :
    (live.rd .htu Reg.TRC_STATUS_PHASE ≠ phasePost ∧ (phased phasePost).rd .htu Reg.TRC_STATUS_PHASE = phasePost) ∧
    ((phased phaseHeld).rd .htu Reg.TRC_STATUS_PHASE = phaseHeld ∧ ((phased phaseHeld).dev .htu).trace.queued = true ∧
      (phased phaseHeld).ladder .htu = 0 ∧ (phased phaseHeld).on .htu (Reg.TRC_STREAM_VALID ((phased phaseHeld).rd .htu Reg.TRC_STATUS_OWNER)) = true ∧
      ((phased phaseHeld).dev .htu).trace.chunks = [] ∧ ((phased phaseHeld).dev .htu).trace.post = [] ∧
      ((phased phaseHeld).fn .htu fidTrace).st ≠ .draining ∧ (phased phaseHeld).on .htu Reg.TRC_CFG_REARM = true) ∧
    (7 < 8 ∧ live.dumpOn 7 = none ∧ (dumpRun 8192).dumpOn 7 = some aDump ∧ (dumpRun 8192).ladder .htu = 0 ∧
      (sets .htu [(Reg.SHF_STATUS_LEVEL, 1)] (dumpRun 8192)).ladder .htu ≠ 0 ∧
      (dumpRun 8192).inWindow 0 0 (min ((dumpRun 8192).unitBytes .htu) 8192) = true ∧
      (dumpRun 4095).inWindow 0 0 (min ((dumpRun 4095).unitBytes .htu) 8192) = false ∧
      0 < min ((dumpRun 8192).unitBytes .htu) 8192 ∧ min ((dumpRun 8192).unitBytes .htu) 8192 < 8192 ∧
      (dumpRun 8192).on .htu (Reg.TRC_STREAM_VALID 0) = false) := by decide +kernel

def aVerdict : Verdict := { verdict := vUnchecked, cause := 0, near := false, col := 0, k := 0, maxD := 0, tau := 0, zInf := 0, yInf := 0,
                            zj := 0, yj := 0, time := 0, digest := none, ctx := some 1 }

/-- A step in hand, and a verdict of station 271 that waits for it. -/
def judged (mode : Nat) (d : Option (BitVec 64)) : State :=
  { station271 0 with hx := { live.hx with lanes := [(271, { out := [{ aVerdict with digest := d }] })], steps := [{ aStep with mode }] } }

theorem wit_TilesPassThroughTheirLane :
    (271 < 272 ∧ (fallowed.station 271).fallow = true ∧ (live.station 271).fallow = false) ∧
    ((tiled { tiles := [aTile] }).lane 271).tiles = aTile :: [] ∧ (live.lane 271).out = [] ∧
    (((judged modeSampled none).lane 271).out = [{ aVerdict with digest := none }] ∧ (judged modeSampled none).ctxNo 1 = some { aStep with mode := modeSampled } ∧
      aStep.st = .opened) ∧
    (((judged modeDual (some 5)).lane 271).out.head?.map (·.digest) = some (some 5) ∧ ((judged modeDual (some 5)).ctxNo 1).map (·.mode) = some modeDual ∧
      (tiled { out := [{ aVerdict with ctx := none }] }).ctxNo 1 = none) := by decide +kernel

theorem wit_VerdictsComeInOrder :
    (aTile.checked = true ∧ ({ aTile with checked := false }).checked = false ∧ 4 < ({ aTile with fmt := 5 }).fmt.toNat ∧
      ({ aTile with fmt := 4 }).fmt.toNat ≤ 4) ∧
    (live.rd .htu (Reg.SNT_LANE_STATE 271) ≠ 1 ∧ (sets .htu [(Reg.SNT_LANE_STATE 271, 1)] live).rd .htu (Reg.SNT_LANE_STATE 271) = 1) ∧
    (({ aTile with y := [0x7F800000] }).y.any (fun x => !fpFinite x) = true ∧ aTile.y.any (fun x => !fpFinite x) = false) ∧
    ((live.tileResult 271 { zs := [0x3F800000] } aTile modeGated).verdict = vFail ∧ (live.tileResult 271 { zs := [0] } aTile modeGated).verdict = vPass) := by
  decide +kernel

def dead : State := sets .htu [(Reg.HTU_STATUS_BOUNDARY_LIVE, 0)] live

def stepping (need : List Nat) : State := { live with hx := { live.hx with steps := [{ aStep with need }] } }

def drainAsked (a : Bool) : State := { live with hx := { live.hx with drainReq := true, drainAcked := a } }

/-- A frequency or voltage handshake of group 15. -/
def shaking (op : SeqOp) (acked late : Bool) : State := { live with hx := { live.hx with hs := some { op, acked, late } } }

theorem wit_StepsOpenAndArrive :
    (dead.live = false ∧ live.live = true ∧ live.hx.steps = [] ∧ live.on .htu Reg.SHF_BAR_CFG_BAR_EN = false) ∧
    (((scheduling .htu [due (.step 9)]).h.sched.find? fun e => (scheduling .htu [due (.step 9)]).due .htu e.t && (match e.kind with
      | .step _ => true
      | _ => false)) = some (due (.step 9))) ∧
    (stepped.on .htu Reg.SNT_MODE_STEP_SRC = true ∧ live.on .htu Reg.SNT_MODE_STEP_SRC = false ∧ live.openCtx = none ∧
      (stepping []).openCtx = some { aStep with need := [] }) ∧
    ((stepping [270, 271]).hx.steps = [{ aStep with need := [270, 271] }] ∧ ({ aStep with need := [270, 271] }).need.contains 271 = true ∧
      ({ aStep with need := [270, 271] }).need ≠ [271]) ∧
    ((drainAsked false).hx.drainReq = true ∧ (drainAsked false).hx.drainAcked = false ∧ (drainAsked true).hx.drainAcked = true ∧
      (drainAsked false).hx.steps = []) ∧ (shaking .hold true false).hx.hs = some { op := .hold, acked := true, late := false } := by decide +kernel

def digesting : State := sets .htu [(Reg.SNT_DIGEST_TAG 63, 9), (Reg.SNT_DIGEST_STATE 63, 1)] live

theorem wit_LinkAndWindowWords :
    (7 < 8 ∧ (1 : BitVec 128).toNat % 16 = 1 ∧ (0 : BitVec 128).toNat % 16 = 0 ∧ 4 < (5 : BitVec 128).toNat % 16 ∧
      (3 : BitVec 128).toNat % 16 = 3 ∧ live.on .htu Reg.SNT_POISON_VALID = false ∧ live.on .htu Reg.SNT_STREAM_VALID = false) ∧
    (live.digEntry 9 1 = none ∧ digesting.digEntry 9 1 = some 63 ∧ digesting.hx.overTags.contains 9 = false ∧
      { live with hx := { live.hx with overTags := [9] } }.hx.overTags.contains 9 = true) := by decide +kernel

theorem wit_PowerSequencing :
    (live.hx.hs = none ∧ (shaking (.setF 15 1) false false).hx.hs = some { op := .setF 15 1, acked := false, late := false } ∧
      (shaking (.setV 15 1) false false).hx.hs = some { op := .setV 15 1, acked := false, late := false } ∧
      live.on .htu Reg.PWR_CTL_STEP_REC = false ∧ (shaking .hold true true).hx.hs = some { op := .hold, acked := true, late := true }) ∧
    (live.hx.settling = none ∧ { live with hx := { live.hx with settling := some 15 } }.hx.settling = some 15 ∧
      (word .htu Reg.PWR_TRIM_TRIM_EN.off 0 live).on .htu Reg.PWR_TRIM_TRIM_EN = false) ∧
    (live.on .htu Reg.PWR_CTL_VALID = false ∧ live.rd .htu Reg.PWR_CTRL_CFG_CTRL_US ≠ 0 ∧ live.hx.pmBase ≤ live.rd .htu Reg.TAP_EN_DIE_UJ ∧
      1000 * (live.rd .htu Reg.TAP_EN_DIE_UJ - live.hx.pmBase) % live.rd .htu Reg.PWR_CTRL_CFG_CTRL_US = 0 ∧
      (live.fn .htu fidPower).st ≠ .running) ∧
    (live.on .htu Reg.PWR_STATUS_DEFERRED = false ∧ (sets .htu [(Reg.PWR_STATUS_DEFERRED, 1)] live).on .htu Reg.PWR_STATUS_DEFERRED = true ∧
      live.on .htu Reg.PWR_STATUS_THERM_STALE = false ∧ (sets .htu [(Reg.PWR_STATUS_THERM_STALE, 1)] live).on .htu Reg.PWR_STATUS_THERM_STALE = true) := by
  decide +kernel

/-- A release whose next wave is due, in brownout hold or under a droop. -/
def releasing (bo droop : Nat) : State :=
  sets .htu [(Reg.PWR_BO_STATE, bo)] { live with hx := { live.hx with rels := [{ step := 0 }], droop := BitVec.ofNat 16 droop } }

theorem wit_ReleaseDroopAndBrownout :
    (live.hx.rels = [] ∧ (releasing 1 0).hx.rels = { step := 0 } :: [] ∧ (releasing 1 0).inHold = true ∧ (releasing 0 0).inHold = false) ∧
    (((releasing 0 0x8000).begun { step := 0, begun := true, hold := true }).hold = true ∧ (releasing 0 0x8000).hx.droop ≠ 0 ∧
      (releasing 0 0).hx.droop = 0) ∧ ((releasing 0 0x8000).hx.droop.getLsbD 15 = true ∧ live.hx.droop.getLsbD 15 = false) ∧
    (17 < 18 ∧ (releasing 1 0).rd .htu Reg.PWR_BO_STATE = 1 ∧ live.rd .htu Reg.PWR_BO_STATE ≠ 1 ∧ live.on .htu Reg.PWR_CTL_VALID = false) := by
  decide +kernel

/-- A record with payload bytes at chosen places. -/
def recWith (typ : Nat) (fields : List (Nat × Nat × Nat)) (seq : Nat := 0) : Rec := { typ, seq, payload := body 64 fields }

/-- The tray with a job on its two last ports, and a step under way. -/
def merging (got : List Nat) : State :=
  { live with vx := { live.vx with jobMask := 3 <<< 62,
                                   msteps := if got = [] then [] else [{ level := .tray, step := 9, ins := [62, 63], got, members := 2 }] } }

def closing (st : StepSt) : State := { live with hx := { live.hx with steps := [{ aStep with st }] } }

theorem wit_StepsMergeAtTheTray :
    (7 < levelInputs .rack ∧ live.holdsFor .rack none (recWith 0x32 []) = false ∧ (recWith 0x31 [(0, 4, 9)]).rsvd = false ∧
      live.fromHead .tray 63 (recWith 0x31 [(0, 4, 9)]) = true ∧
      { live with vx := { live.vx with heads := [(.row, 3, 77, 5)] } }.fromHead .row 3 { recWith 0x32 [] with timev := true, time := 6 } = false) ∧
    (63 < 64 ∧ (recWith 0x31 [(0, 4, 9)]).typ = 0x31 ∧ (merging []).vx.msteps = [] ∧ (merging []).rd .vta (Reg.VTA_DIE_VERDICT 63) < 3 ∧
      ((merging []).stepMembers .tray).contains 63 = true ∧ ((merging []).stepMembers .tray).contains 62 = true) ∧
    ((live.vx.msteps.find? fun m => m.level == .tray && m.step == 9 && !m.done && m.got != []) = none ∧
      ((merging [62]).vx.msteps.find? fun m => m.level == .tray && m.step == 9 && !m.done && m.got != []).isSome = true) ∧
    (((closing .final).hx.steps.find? fun c => c.step == 9) = some { aStep with st := .final } ∧ (live.hx.steps.find? fun c => c.step == 9) = none ∧
      ({ aStep with st := .retained }).st = .retained ∧ aStep.st = .opened) ∧
    (live.on .htu Reg.SNT_POISON_VALID = false ∧ fieldAt (recWith 0x47 [(4, 1, 4)]).payload 4 1 = 4 ∧ fieldAt (recWith 0x47 [(4, 1, 1)]).payload 4 1 = 1 ∧
      (fieldAt (recWith 0x47 [(4, 1, 4)]).payload 4 1).testBit 0 = false ∧ 256 ≤ 256 ∧ 255 < 256) ∧
    (sets .vta [(Reg.SHF_BAR_CFG_SCOPE, 2)] live).holdsRole (sets .vta [(Reg.SHF_BAR_CFG_SCOPE, 2)] live).rootLevel = false := by decide +kernel

def aKey : SheafKey := { id := 3, part := 0, digest := 0 }

def aPartial : Rec := recWith 0x30 [(0, 2, 3), (7, 1, 32)]

def aJoin (kind : Nat) : Rec := recWith 0x34 [(0, 1, kind), (2, 2, 3), (12, 4, 7)]

def aMember : Member := { level := .tray, key := aKey, input := 63, first := 0 }

def joined : State := { live with vx := { live.vx with members := [aMember] } }

def aMerge (started : Bool) (parts : List (Nat × Part)) : Merge :=
  { level := .tray, key := aKey, epoch := 0, t := 0, members := [62, 63], parts, left := [], started }

def mergingSheaf (started : Bool) (parts : List (Nat × Part) := []) : State :=
  { live with vx := { live.vx with merges := [aMerge started parts] } }

def raised (own occ : Nat) (pend : List (Nat × Bool × Nat) := []) : State :=
  { live with h := { live.h with ladder := { own, occ, pend } } }

theorem wit_Sheaves :
    (63 < levelInputs .tray ∧ live.holdsFor .tray none aPartial = true ∧ live.holdsFor .rack none aPartial = false ∧
      live.fromHead .tray 63 aPartial = true ∧ (Part.ofPayload 0 aPartial.payload).1 = aKey ∧ (Part.ofPayload 0 aPartial.payload).2.epoch = 0) ∧
    ((mergingSheaf false).mergesOf .tray aKey 0 = [aMerge false []] ∧ (aMerge false []).awaits 63 = true ∧ (aMerge false []).awaits 61 = false ∧
      (mergingSheaf true).mergesOf .tray aKey 0 = [aMerge true []] ∧ (aMerge true []).awaits 63 = false ∧ (mergingSheaf false).bufferFree .tray 63 0 = true ∧
      (mergingSheaf true).holdsFor .tray (some 0) aPartial = true) ∧
    (live.mergesOf .tray aKey 0 = [] ∧ live.v.colls = []) ∧
    ((mergingSheaf false).ns .vta < 0 + (mergingSheaf false).cutoff .tray ∧
      0 + (sets .vta [(Reg.SHF_CUTOFF_TRAY, 0)] live).cutoff .tray ≤ (sets .vta [(Reg.SHF_CUTOFF_TRAY, 0)] live).ns .vta ∧ aKey.id ≠ 0xFFFF) ∧
    (fieldAt (aJoin 1).payload 0 1 = 1 ∧ fieldAt (aJoin 0).payload 0 1 ≠ 1 ∧ live.vx.members.any (fun m => m.level == .tray && m.key == aKey && m.input == 63) = false ∧
      joined.vx.members.any (fun m => m.level == .tray && m.key == aKey && m.input == 63) = true) := by decide +kernel

theorem wit_Ladder :
    (([4, 3, 2, 1].filter fun n => (raised 0 90).h.ladder.own < n && (raised 0 90).ladderEnter .htu n ≤ 90).head? = some 4 ∧
      ([4, 3, 2, 1].filter fun n => (raised 0 49).h.ladder.own < n && (raised 0 49).ladderEnter .htu n ≤ 49) = []) ∧
    ((raised 1 29).h.ladder.own ≠ 0 ∧ 29 < (raised 1 29).ladderExit .htu 1 ∧ (raised 1 30).ladderExit .htu 1 ≤ 30) ∧
    (4 < 5 ∧ 4 ≠ live.h.ladder.own ∧ live.h.ladder.pend = [] ∧ live.h.ladder.pushIn ≤ 4 ∧
      max 4 live.h.ladder.pushIn ≠ live.rd .htu Reg.SHF_STATUS_LEVEL ∧ live.on .htu Reg.PWR_CTL_VALID = false) ∧
    ((live.h.ladder.pend.any fun e => serialGe 32 (live.epoch .htu) e.1) = false ∧
      ((raised 1 0 [(0, false, 1)]).h.ladder.pend.any fun e => serialGe 32 ((raised 1 0 [(0, false, 1)]).epoch .htu) e.1) = true ∧
      (raised 1 0 [(0, false, 1)]).h.bulk = [] ∧ (raised 1 0 [(0, false, 1)]).h.ladder.at 0 ≤ 4 ∧
      live.rd .vta Reg.TRC_STATUS_PHASE ≠ phaseCirculate ∧ live.rd .vta Reg.TRC_STATUS_PHASE ≠ phasePost) := by decide +kernel

/-- R219, R220: the HTU's own rise to L4 applies two epochs ahead. -/
theorem test_ladder_rises : (match exec (.ladderEnter .htu) (raised 0 90) with
    | .next t => (t.h.ladder.own, t.rd .htu Reg.SHF_LADDER_EPOCH_APPLY_EPOCH, t.rd .htu Reg.SHF_STATUS_PEND_LEVEL, t.rd .htu Reg.SHF_STATUS_LEVEL)
    | _ => (0, 0, 0, 0)) = (4, 2, 4, 0) := by decide +kernel

/-- The VTA in a scoring period of one second that begins at 0 s or 1 s, with a store. -/
def scoringAt (running : Option Nat) (closed : Option (Nat × List Val)) : State :=
  sets .vta [(Reg.HTR_STATUS_INIT_DONE, 1), (Reg.HTR_STATUS_BANKS_ACTIVE, 1), (Reg.VTA_SWG_LOGICAL 0, 1)] { live with
    v := { live.v with cnt := (10000000000 : BitVec 96) <<< 32, ticks := 9 }
    vx := { live.vx with running, closedP := closed, stores := [{ period := live.rd .vta Reg.HTR_PERIOD_US, vals := [], lags := [], late := false,
                                                                  closed := false, scored := false }] } }

def noGorse : State := sets .vta [(Reg.VTA_STATUS_GORSE_UP, 0)] (scoringAt (some (live.rd .vta Reg.HTR_PERIOD_US)) none)

def banked : State := { sets .vta [(Reg.HTR_BANK_STATE 63, 0)] live with vx := { live.vx with
  golden := [{ bank := 63, slot := 0, tree := 0, care := 0, value := 0, leaf := 0, out := 0 }], fixes := List.replicate 16 (63, 0) } }

theorem wit_ScoringRows :
    (live.ns .vta < (live.periodStart 1 + live.periodUs (live.periodStart 1) + live.rd .vta Reg.HTR_PERIOD_FEATURE_CUTOFF) * 1000) ∧
    ((let s := scoringAt (some 0) none
      (s.periodStart 1 + s.periodUs (s.periodStart 1) + s.rd .vta Reg.HTR_PERIOD_FEATURE_CUTOFF) * 1000 ≤ s.ns .vta ∧
      s.on .vta Reg.HTR_STATUS_INIT_DONE = true ∧ s.v.gated = false ∧ s.scorable (s.periodStart 1) = true ∧ s.vx.closedP = none ∧
      s.vx.stores.map (·.period) = [s.periodStart 1] ∧ s.vx.running = some 0 ∧ s.vx.waitSet = none) ∧
      (scoringAt none (some (10 ^ 9, []))).vx.closedP = some (10 ^ 9, []) ∧ (scoringAt none (some (10 ^ 9, []))).periodStart 1 < 10 ^ 9) ∧
    (live.vx.running = none ∧ noGorse.vx.running = some (noGorse.periodStart 1) ∧ noGorse.isPeriod 1 (noGorse.periodStart 1) = true ∧
      noGorse.vx.runSlots = [] ∧ noGorse.heathJobs = [] ∧ noGorse.gorseUp .vta = false ∧ noGorse.vx.waitSet = none ∧
      noGorse.on .vta Reg.VTA_FLT_STREAM_S_VALID = false) ∧
    (63 < 64 ∧ (([0, 7] : List Nat).eraseDups.filter fun i => decide (i < (banked.vx.golden.filter (·.bank == 63)).length)).length = 1 ∧
      banked.rd .vta (Reg.HTR_BANK_STATE 63) = 0 ∧ live.rd .vta (Reg.HTR_BANK_STATE 63) ≠ 0 ∧ 16 < (banked.dayFixes 63).length + 1) ∧
    (live.gorseUp .vta = true ∧ live.v.conns = []) := by decide +kernel

def jobDue (dup : Bool) : State := sets .htu [(Reg.HTU_JOB_STATE, jobArmed)] (scheduling .htu [due (.job dup) (some (2, 7))])

def forwarded : State := { live with v := { live.v with conns := [(63, { fwds := [{ peer := 63, tag := 7, opcode := 0x92, cmd := none, packet := pkt 0 [] }] })] } }

theorem wit_JobsRolesAndReplies :
    (((live.jobEntries .htu).filter fun e => live.due .htu e.t) = [] ∧
      (((jobDue false).jobEntries .htu).filter fun e => (jobDue false).due .htu e.t) = [due (.job false) (some (2, 7))] ∧
      (jobDue false).timev .htu = true ∧ (sets .htu [(Reg.TIM_STATUS_TIMEV, 0)] (jobDue false)).timev .htu = false ∧
      (jobDue false).rd .htu Reg.HTU_JOB_STATE = jobArmed) ∧
    (63 < 64 ∧ live.roleAt .rack = none ∧ live.gorseUp .vta = true ∧ live.on .vta Reg.VTA_FLT_STREAM_V_VALID = false) ∧
    (fieldAt (recWith 0 [(0, 1, 2)]).payload 0 1 = levelNo .rack ∧ fieldAt (recWith 0 [(0, 1, 1)]).payload 0 1 < 2 ∧
      4 < fieldAt (recWith 0 [(0, 1, 5)]).payload 0 1) ∧
    (((forwarded.conn .vta 63).fwds.find? fun f => f.tag == 7 && (aReply.status.toNat != stAccepted)).isSome = true ∧
      ((live.conn .vta 63).fwds.find? fun f => f.tag == 7 && (aReply.status.toNat != stAccepted)) = none) := by decide +kernel

/-- A standby of the rack role; the VTA's own number is an open constant. -/
def standby : State := { live with vx := { live.vx with
  roles := [{ level := .rack, holder := Config.vtaAddr.toNat + 1, standby := Config.vtaAddr.toNat, since := 0, prev := Config.vtaAddr.toNat + 1 }] } }

theorem wit_RoleTakeover : ∃ r, standby.roleAt .rack = some r ∧ r.standby = Config.vtaAddr.toNat ∧ r.holder ≠ Config.vtaAddr.toNat :=
  ⟨_, rfl, rfl, by simp⟩

theorem wit_RoleChange : sameUnit .hall (fieldAt (recWith 0 [(4, 4, 5)]).payload 4 4 % 2048) = true ∧
    standby.roleAt .rack ≠ none ∧ standby.gorseUp .vta = true := ⟨rfl, by simp [standby, State.roleAt], by decide +kernel⟩

/-- R28: the holder before a change keeps the role up to its instant. -/
theorem test_role_at_its_instant (s : State)
    (h : s.vx.roles = [{ level := .row, holder := Config.vtaAddr.toNat, standby := 0, since := 9, prev := Config.vtaAddr.toNat + 1 }]) :
    s.holdsRoleAt .row 9 = false ∧ s.holdsRoleAt .row 10 = true := by
  simp [State.holdsRoleAt, State.roleAt, h]

def policed : State := sets .vta [(Reg.SCH_POL_PIR 255, 1), (Reg.SCH_POL_PBS 255, 0)] live

def anIngress (held : List Rec) : Ingress := { die := 0, unit := 0, stream := 3, next := some 5, held }

def ingressing (held : List Rec) : State := { live with vx := { live.vx with ingress := [anIngress held] } }

def aSeg : Segment := { die := 0, unit := 0, stream := 3, part := 0, recs := [] }

theorem wit_RecordsAndDatagrams :
    (63 < 64 ∧ live.rd .vta (Reg.SCH_POL_CIR 255) = 0 ∧ live.rd .vta (Reg.SCH_POL_PIR 255) = 0 ∧ policed.rd .vta (Reg.SCH_POL_PIR 255) ≠ 0 ∧
      (policed.meter 255 { aRec with part := 255 }.size 0).1 = red ∧
      (let s := sets .vta [(Reg.SCH_POL_PBS 255, 1)] policed
       (s.meter 255 { aRec with part := 255 }.size 0).1 = yellow ∧ s.ingressOcc < s.rd .vta Reg.SCH_INGRESS_YELLOW_DROP ∧
        (sets .vta [(Reg.SCH_INGRESS_YELLOW_DROP, 0)] s).rd .vta Reg.SCH_INGRESS_YELLOW_DROP ≤ s.ingressOcc) ∧ aRec.rsvd = false) ∧
    ((ingressing []).ingressOf 0 0 3 = some (anIngress []) ∧ (anIngress []).ord = true ∧ (anIngress []).next = some 5 ∧ serialGt 32 5 4 = true ∧ 4 ≠ 0 ∧ serialGt 32 5 5 = false ∧
      serialGt 32 5 6 = false ∧ 6 ≠ 5 % 2 ^ 32 ∧ live.ingressOf 0 0 3 = none) ∧
    ((ingressing [recWith 0x10 [] 9]).ingressOf 0 0 3 = some (anIngress [recWith 0x10 [] 9]) ∧ 5 ≠ (recWith 0x10 [] 9).seq) ∧
    ((live.vx.segs.find? fun g => g.die == 0 && g.unit == 0 && g.stream == 3) = none ∧
      ({ live with vx := { live.vx with segs := [aSeg] } }.vx.segs.find? fun g => g.die == 0 && g.unit == 0 && g.stream == 3) = some aSeg) ∧
    (live.gorseUp .vta = true ∧ noGorse.gorseUp .vta = false) := by decide +kernel

def portAt (st : Nat) (p : Port) : State :=
  sets .htu [(Reg.FUR_PORT_STATE 1, st)] (withFn .htu (fidPort 1) .running { live with h := { live.h with ports := [(1, p)] } })

def knownB (s : State) : Bool :=
  [portDown, portTraining, portRetrain].contains (s.rd .htu (Reg.FUR_PORT_STATE 1)) && !(s.port .htu 1).refused && (s.fn .htu (fidPort 1)).st == .running

theorem wit_PortsTrainAndFall :
    (1 < portCount .htu ∧ knownB (portAt portDown {}) = true ∧ knownB (portAt portDown { refused := true }) = false) ∧
    (aTrain.peer = true ∧ aTrain.part % 4096 ≠ peerPart .htu 1 ∧ ({ aTrain with part := 0x4A2, gen := 1 }).part % 4096 = 0x4A2 ∧
      ({ aTrain with part := 0x4A2, gen := 2 }).part % 4096 = peerPart .htu 1 ∧ ({ aTrain with gen := 2 }).gen % 16 ≠ 1 ∧ ({ aTrain with laneFail := 1 }).laneFail ≠ 0) ∧
    ((live.conn .htu 0).peerNo = none ∧ ((portAt portDown {}).port .htu 1).add = none ∧
      ((portAt portDown { add := some (2, 7) }).port .htu 1).add = some (2, 7)) ∧
    ((portAt portUp {}).rd .htu (Reg.FUR_PORT_STATE 1) ≠ portDown ∧ (portAt portDown {}).rd .htu (Reg.FUR_PORT_STATE 1) = portDown) ∧
    ((portConns .vta 63).contains (61 % 64) = false ∧ (portConns .vta 63).contains (62 % 64) = true) := by decide +kernel

def aFlit (kind fseq : Nat) : List Byte := ({ kind, fseq } : Flit).bytes

set_option maxRecDepth 20000 in
theorem wit_FlitsKeepTheirSequence :
    ((portAt portUp {}).rd .htu (Reg.FUR_PORT_STATE 1) = portUp ∧ (portAt portDown {}).rd .htu (Reg.FUR_PORT_STATE 1) ≠ portUp) ∧
    (Flit.ofBytes [] = none ∧ (Flit.ofBytes (aFlit 3 0)).map (·.kind) = some 3 ∧ (Flit.ofBytes (aFlit kindIdle 0)).map (·.kind) = some kindIdle) ∧
    ((Flit.ofBytes (aFlit kindData 0)).map (·.fseq) = some ((portAt portUp {}).port .htu 1).fseqRx ∧
      (Flit.ofBytes (aFlit kindData 4095)).map (·.fseq) = some 4095) ∧
    (((portAt portUp { retry := [(0, [])], retries := 14 }).port .htu 1).retries + 1 < 16 ∧
      ((portAt portUp { retry := [(0, [])], retries := 14 }).port .htu 1).retry ≠ [] ∧ ((portAt portUp {}).port .htu 1).retry.length < 64 ∧
      64 ≤ ((portAt portUp { retry := List.replicate 64 (0, []) }).port .htu 1).retry.length ∧ ((portAt portUp {}).port .htu 1).retry = []) ∧
    (((portAt portUp {}).port .htu 1).resend = [] ∧ ((portAt portUp {}).port .htu 1).relay = [] ∧ ((portAt portUp {}).port .htu 1).ctl = [] ∧
      ((portAt portUp {}).port .htu 1).time = [] ∧ ((portAt portUp {}).dev .htu).conns = [] ∧
      ((portAt portUp { resend := [(5, [])] }).port .htu 1).resend = (5, []) :: []) := by decide +kernel

/-- Fleet time of the HTU from port A, with an exchange under way. -/
def syncing (t1 t2 q t3 src : Nat) : State :=
  sets .htu [(Reg.TIM_STATUS_SRC, src)] { live with h := { live.h with servos := [(0, { t1, t2, t3 := some (q, t3), sync := true })] } }

def reply0 (ts : Nat) : TimeMsg := { aTime with ts }

theorem wit_ExchangesSetFleetTime :
    (0 < portCount .htu ∧ isMaster .htu 0 = false ∧ isMaster .htu 1 = true ∧ isMaster .vta 63 = true) ∧
    ((live.servo .htu 0).t3 = none ∧ ((syncing 0 0 0 0 1).servo .htu 0).sync = true ∧ (live.servo .htu 0).sync = false ∧ ((syncing 0 0 0 0 1).servo .htu 0).t3 = some (0, 0) ∧ (0 : Nat) = aTime.seq ∧ (5 : Nat) ≠ aTime.seq ∧
      (syncing 0 0 0 0 1).timePort .htu = some 0 ∧ (syncing 0 0 0 0 2).timePort .htu ≠ some 0) ∧
    ((sets .htu [(Reg.FUR_PORT_STATE 0, portUp)] live).rd .htu (Reg.FUR_PORT_STATE 0) = portUp ∧ live.rd .htu (Reg.FUR_PORT_STATE 0) ≠ portUp) ∧
    (({ aTime with timev := false }).timev = false ∧ aTime.timev = true) := by decide +kernel

def slaved : State :=
  sets .vta [(Reg.TIM_PTP_STATUS_PORT1, 5), (Reg.TIM_PTP_STATUS_PORT0, 3), (Reg.TIM_PTP_GM_CLOCK_ID 0, 77)]
    { live with v := { live.v with servos := [(65, { t3 := some (4, 9), sync := true, wait := some (4, 6, 0) })] } }

theorem wit_Ptp :
    (1 < 2 ∧ 5 ≠ live.rd .vta Reg.TIM_PTP_CFG_DOMAIN ∧ aPtp.udp = (sets .vta [(Reg.TIM_PTP_CFG_TRANSPORT, 1)] live).on .vta Reg.TIM_PTP_CFG_TRANSPORT ∧
      aPtp.udp ≠ (sets .vta [(Reg.TIM_PTP_CFG_TRANSPORT, 0)] live).on .vta Reg.TIM_PTP_CFG_TRANSPORT ∧ aPtp.other = false ∧
      ((slaved.servo .vta 65).sync = true ∧ (slaved.servo .vta 65).wait = some (4, 6, 0) ∧ aPtpTime.seq = 4 ∧ (live.servo .vta 65).wait = none) ∧ slaved.rd .vta (ptpPort 1) = 5 ∧ slaved.rd .vta (ptpPort 0) = 3 ∧
      slaved.gmIndex 77 = some (slaved.rd .vta Reg.TIM_PTP_STATUS_GM_INDEX) ∧ slaved.gmIndex 78 = none ∧ slaved.rd .vta (ptpPort 0) ≠ 5) ∧
    ((slaved.servo .vta 65).t3 = some (4, 9) ∧ (slaved.servo .vta 64).t3 = none ∧ (sets .vta [(Reg.TIM_STATUS_SRC, 5)] live).rd .vta Reg.TIM_STATUS_SRC = 5) ∧
    (((List.range 2).find? fun k => slaved.rd .vta (ptpPort k) == 5) = some 1 ∧ live.rd .vta (ptpPort 0) ≠ 5 ∧ live.rd .vta (ptpPort 1) ≠ 5 ∧
      0 < (sets .vta [(Reg.TIM_PTP_STATUS_GM_INDEX, 3)] slaved).rd .vta Reg.TIM_PTP_STATUS_GM_INDEX) := by decide +kernel

def switching (moved : Bool) : State :=
  sets .htu [(Reg.TIM_STATUS_PLL_B_RDY, 1), (Reg.TIM_STATUS_SRC, 1)]
    { live with h := { live.h with sw := some { target := 1, moved }, servos := [(1, { sinceV := 0 })] } }

def lost (src safe : Nat) : State :=
  sets .vta [(Reg.TIM_STATUS_SAFE, safe), (Reg.TIM_STATUS_PLL_A_RDY, 1)] (sets .htu [(Reg.TIM_STATUS_SRC, src), (Reg.TIM_STATUS_SAFE, safe),
    (Reg.TIM_STATUS_PLL_B_RDY, 1)] { live with h := { live.h with gated := true }, v := { live.v with gated := true } })

theorem wit_TheCounterAndItsSources :
    ((live.dev .htu).gated = false ∧ ((lost 0 0).dev .htu).gated = true ∧ (({ live with h := { live.h with ticks := 7 } }).h.ticks + 1) % 8 = 0 ∧
      (live.h.ticks + 1) % 8 ≠ 0) ∧
    ((match (syncing 0 0 0 0 1).timePort .htu with
        | some k => decide (((syncing 0 0 0 0 1).servo .htu k).missed ≥ 4)
        | none => false) = true ∧ (syncing 0 0 0 0 1).rd .htu Reg.TIM_STATUS_SRC ≠ 5 ∧ (syncing 0 0 0 0 1).on .htu Reg.TIM_STATUS_HOLD = false) ∧
    ((switching false).h.sw = some { target := 1 } ∧ (switching false).switchReady .htu 1 = true ∧ (switching false).instantNear = false ∧
      (let s := scheduling .htu [due (.step 9)]; s.instantNear = true ∧ s.h.ticks < 0 + 125000) ∧ (switching true).h.sw = some { target := 1, moved := true } ∧
      live.h.sw = none) ∧
    ((lost 1 1).on .htu Reg.TIM_STATUS_SAFE = true ∧ (lost 1 1).timePort .htu = some 0 ∧ (lost 1 1).on .htu (pllRdy .htu (1 - 0)) = true ∧
      (lost 1 1).on .vta Reg.TIM_STATUS_SAFE = true ∧ (lost 1 1).on .vta Reg.TIM_STATUS_PLL_A_RDY = true ∧ (lost 1 1).rd .vta Reg.TIM_STATUS_SRC ≠ 5 ∧
      (syncing 0 0 0 0 1).timePort .htu ≠ none ∧ live.timePort .htu = none) ∧
    ((lost 0 0).rd .htu Reg.TIM_STATUS_SRC = 0 ∧ (lost 0 0).on .vta Reg.TIM_STATUS_SAFE = false ∧ live.live = true ∧
      live.on .htu Reg.TIM_STATUS_SRC = false ∧ live.rd .htu (Reg.FUR_PORT_STATE 0) ≠ portUp ∧
      { live with h := { live.h with anyPort := true } }.h.anyPort = true) := by decide +kernel

-- witnesses of further clauses

theorem wit_FramedAndOverflowing :
    (let s := sets .htu [(Reg.MBX_STATUS_GEN 0, 1)] live
     s.on .htu (Reg.MBX_STATUS_GEN 0) = true ∧
      packetOf (.nop .htu 0 (asV1 (pkt 0 []) (s.rd .htu (Reg.MBX_V1_IDENT_PARTITION 0)) (s.rd .htu (Reg.MBX_V1_IDENT_ROLE 0)))) =
        some (.htu, 0, 1, asV1 (pkt 0 []) (s.rd .htu (Reg.MBX_V1_IDENT_PARTITION 0)) (s.rd .htu (Reg.MBX_V1_IDENT_ROLE 0)))) ∧
    (let s := withMbx .htu 2 { words := List.replicate (reqWords .htu) 0 }
     s.takes .htu 2 = true ∧ s.reqFree .htu 2 < packetWords (pkt 0 []) (s.on .htu (Reg.MBX_STATUS_GEN 2)) ∧ (s.mb .htu 2).held = [] ∧
      (s.mb .htu 2).waiting = []) := by decide +kernel

/-- What a secured message verifies to is an open constant; either answer meets its clause. -/
theorem wit_BoundDoorbell : let s := withMbx .vta 0 { bound := true }
    s.on .vta (Reg.MBX_STATUS_OPEN 0) = true ∧ (s.mb .vta 0).spilled = false ∧ (s.mb .vta 0).bound = true ∧
      (Config.unwrap (s.mb .vta 0).sessNo (s.mb .vta 0).keyGen (ofWords (s.mb .vta 0).words) = none ∨
        ∃ ws, (Config.unwrap (s.mb .vta 0).sessNo (s.mb .vta 0).keyGen (ofWords (s.mb .vta 0).words)).map toWords = some ws) := by
  refine ⟨by decide +kernel, by decide +kernel, by decide +kernel, ?_⟩
  cases Config.unwrap _ _ _ <;> simp

theorem wit_LostEffects :
    (let s := withMbx .htu 2 { outst := [{ anOutst true with opcode := 3 }], held := [(3, pkt 0 [])], effects := [(9, 0x1005)] }
     (s.mb .htu 2).lostOf (pkt 0 []) [9] = [9] ∧ (s.mb .htu 2).lostOf (pkt 0 []) [8] = [] ∧ (s.mb .htu 2).lostOf (pkt 0x2000 []) [9] = []) := by
  decide +kernel

/-- The map of `mapped` as it was committed. -/
def mapTaken : State := { mapped 1 with hx := { live.hx with mapNext := some ((List.range 256).map pendPhys, 0) } }

theorem wit_MapTaken : mapTaken.hx.mapNext = some ((List.range 256).map pendPhys, 0) ∧ mapTaken.timev .htu = true ∧ mapTaken.h.gated = false ∧
    serialGe 32 (mapTaken.epoch .htu) 0 = true ∧ serialGe 32 (mapTaken.epoch .htu) 1 = false ∧
    ((List.range 256).map pendPhys).getD 255 0 ≠ mapTaken.physOf 255 ∧
    ((List.range 256).all fun n => decide (((List.range 256).map pendPhys).getD n 0 / 17 = n / 16)) = true ∧
    (((List.range 256).map pendPhys).Pairwise (· < ·)) ∧ live.estimateDue = true ∧
    ({ live with hx := { live.hx with enAt := some (0, 0) } }).estimateDue = false := by decide +kernel

theorem wit_Patches (fail : Nat) :
    State.reset.patchesOk .htu { fail, blank := false, slow := false, brackens := [] } = true ∧
    State.reset.patchesOk .vta { fail, blank := false, slow := false, brackens := [], patches := [{ signed := false }] } = false := ⟨rfl, rfl⟩

/-- The heartbeat period is an open constant; after three of it a bound session has lost its heartbeat. -/
theorem wit_HeartbeatLost (s : State) (h : s = { withMbx .vta 0 { bound := true } with
    v := { (withMbx .vta 0 { bound := true }).v with ticks := 3 * Config.heartbeatTicks } }) : (s.mb .vta 0).bound = true ∧ s.beatLost 0 = true := by
  subst h
  refine ⟨rfl, ?_⟩
  show decide (0 + 3 * Config.heartbeatTicks ≤ 3 * Config.heartbeatTicks) = true
  simp

theorem wit_PeerLease : { pkt 0 (body 16 [(0, 1, 1)]) with role := 6 }.roleN = rolePeer ∧
    opLeaseRenew.check live .vta 9 { pkt 0 (body 16 [(0, 1, 1)]) with role := 6 } = none := by decide +kernel

theorem wit_DrainingReaders : ((draining .htu fidSentinel 0).fn .htu fidSentinel).st = .draining ∧
    ((folding [aFold] [] (ticksPerS + 1)).h.evr.slots.find? fun f => f.first.same 0x0403 (zeros 8) && decide (f.tick + ticksPerS < ticksPerS + 1))
      = some aFold := by decide +kernel

/-- Station 271 with words in its outward FIFO. -/
def queued (l : List OutWord) (stalled : Bool := true) : State :=
  { station271 0 with hx := { live.hx with stations := [(271, { out := l, stalled })] } }

theorem wit_StationWords :
    ((queued [.heartbeat]).station 271).out ≠ [] ∧ (live.station 271).out = [] ∧ (live.station 271).stalled = false ∧
    12 < ((queued (List.replicate 13 .heartbeat)).station 271).out.length ∧ ((queued []).station 271).stalled = true ∧
    ((station271 1).serves 271 = false ∧ ((station271 1).station 271).fallow = false) := by decide +kernel

theorem wit_JoinedCaptures :
    (let s := scheduling .htu [due (.periodic 0 9), due (.snapshot 0 1)]
     (s.h.sched.any fun e => e.t / 1000 == 0 / 1000 && e.kind.captures && (match e.kind with
        | .periodic _ _ => false
        | _ => true)) = true) ∧
    ((sets .htu [(Reg.TIM_HIGH_WATER_NS, 5)] { live with h := { live.h with stepped := true } }).past .htu 5 = true ∧ live.past .htu 0 = false) ∧
    (let s := scheduling .htu [due (.sweep 3)]
     s.h.taken.contains 0 = false ∧ (s.captureEntries .htu 0).any (· != due (.sweep 3)) = false) := by decide +kernel

theorem wit_DumpUnits :
    (let s := dumpRun 8192
     let n := min (s.unitBytes .htu) 8192
     s.live = true ∧ s.unitStarts .htu false true n = true ∧ dead.live = false ∧
      (((hdmaSplit n 0 n).takeWhile fun x => s.inWindow 0 x.1 x.2).map (·.2)).sum = n) ∧
    (let s := dumpRun 8
     let n := min (s.unitBytes .htu) 8192
     (((hdmaSplit n 0 n).takeWhile fun x => s.inWindow 0 x.1 x.2).map (·.2)).sum = 0 ∧ 0 < n) ∧
    ({ dumpRun 8192 with h := { (dumpRun 8192).h with engines := List.replicate 64 (10 ^ 9) } }).unitStarts .htu true false 4096 = false := by
  decide +kernel

theorem wit_HeldOutputs : State.reset.h.inReset = true ∧ State.reset.live = false ∧ (4 : BitVec 128).toNat % 16 = 4 := by decide +kernel

/-- R44: while the unit is held in reset a BARRIER_DONE is answered with every release. -/
theorem test_barrier_done_in_reset : (match exec .barrierDone State.reset with
    | .next t => t.h.out
    | _ => []) = [.barrierRel 0xFFFF] := by decide +kernel

/-- R100, R101: the capability list of the HTU begins with 0x0011_0101 and ends at 0x1D0. -/
theorem test_capabilities : (State.reset.word .htu 0x100).toNat % 2 ^ 32 = 0x00110101 ∧ (State.reset.word .htu 0x1D0).toNat % 2 ^ 32 = 0x00000110 := by
  decide +kernel

-- tests of one step or one operation, with values that the manual's worked examples give

/-- R4's worked example: HTU_ID reads 0x4A22_4200. -/
theorem test_id_register : State.reset.rd .htu Reg.ID_PART = 0x4A2 ∧ State.reset.rd .htu Reg.ID_GEN = 2 ∧ State.reset.rd .htu Reg.ID_STEP = 0x42 ∧
    State.reset.rd .htu Reg.ID_METAL = 0 := by decide +kernel

/-- R53: logical cluster 37 is at physical cluster 39 after reset. -/
theorem test_default_map : Reg.defaultMap 37 = 39 := by decide

/-- The words of the worked example of chapter 3 (R75): ARM_COLLECTOR for collector 5, tag 7, SEQ 42. -/
theorem test_packet_words :
    (parseV2 [0x1005002000070510, 0x0000002A00000100, 0, 0, 0, 0]).map (fun q => (q.1, q.2.flags, q.2.tag, q.2.target, q.2.role, q.2.seq))
      = some (0x10, 5, 7, 0x1005, 1, 42) := by decide +kernel

/-- Its reply (R76): OK with tag 7 and RESULT 0x0123. -/
theorem test_reply_words : toWords (replyBytes 0x10 7 { status := stOk, result := 0x123 }) = [0x0000000000070010, 0x0000012300000000] := by
  decide +kernel

/-- The worked example of chapter 8 (R229 to R231): |z| = 1,536.0, |y| = 1,536.25 and d_77 = τ pass, as a near miss. -/
theorem test_tolerance :
    (let s := sets .htu [(Reg.SNT_TOL_NEAR_LOG2, 1)] live
    let v := s.tileResult 61 { zs := [0x44C00000, 0x44967402] } { aTile with y := [0x44C00800, 0x44964400] } modeGated
    (v.verdict, v.near, v.maxD, v.tau)) = (vPass, true, 0x3FC00800, 0x3FC00800) := by decide +kernel

/-- At n = 12 the same tile fails. -/
theorem test_tolerance_fails :
    ((sets .htu [(Reg.SNT_TOL_N, 12)] live).tileResult 61 { zs := [0x44C00000, 0x44967402] } { aTile with y := [0x44C00800, 0x44964400] }
      modeGated).verdict = vFail := by decide +kernel

def leaf (arg : Half) : Node := { kind := 2, dflt := false, feat := 0, out := 0, arg, lo := 0, hi := 0, rsvd := false }

def split (feat : Nat) (arg : Half) (dflt : Bool) (lo hi : Nat) : Node := { kind := 0, dflt, feat, out := 0, arg, lo, hi, rsvd := false }

/-- The three trees of the worked example of chapter 9. -/
def forest : List Tree := [
  { group := 0, nodes := [split 0 0x437A0000 true 1 2, leaf 0xFFFF8000, split 1 0x40400000 false 3 4, leaf 0x00004000, leaf 0x00020000] },
  { group := 0, nodes := [split 1 0x40400000 true 1 2, leaf 0xFFFFC000, leaf 0x00010000] },
  { group := 0, nodes := [split 0 0x43C80000 false 1 2, leaf 0, leaf 0x00018000] }]

/-- Its layout (R277). -/
theorem test_layout : groupLayout forest 0 2 = [{ feat := 0, thr := some (0x437A0000, true) }, { feat := 0, thr := some (0x43C80000, false) },
    { feat := 0, thr := none }, { feat := 1, thr := some (0x40400000, false) }, { feat := 1, thr := some (0x40400000, true) },
    { feat := 1, thr := none }] := by decide +kernel

/-- Its seven entries (R279 to R281): bank, care, value and leaf. -/
theorem test_entries :
    (match placeImage (List.range 64) 2 { version := 0, groups := 1, signed := false, feats := [], bases := [0], trees := forest, jobs := [], bytes := [] }
        [groupLayout forest 0 2] forest.zipIdx [] [] 0 with
      | .inr (l, _) => l.map fun e => (e.bank, e.care.toNat, e.value.toNat, e.leaf)
      | .inl _ => []) =
    [(0, 0b000001, 0b000000, 0xFFFF8000), (0, 0b001001, 0b000001, 0x00004000), (0, 0b001001, 0b001001, 0x00020000),
      (1, 0b010000, 0b000000, 0xFFFFC000), (1, 0b010000, 0b010000, 0x00010000), (2, 0b000010, 0b000000, 0), (2, 0b000010, 0b000010, 0x00018000)] := by
  decide +kernel

/-- Its two keys (R278): f0 = 250.0 with f1 missing, and f0 = 399.875 with f1 = 3.0. -/
theorem test_keys : encodeKey (groupLayout forest 0 2) [some 0x437A0000, some 0x7FC00000] = 0b110001 ∧
    encodeKey (groupLayout forest 0 2) [some 0x43C7F000, some 0x40400000] = 0b011001 := by decide +kernel

/-- The check value of the CRC-32 of IEEE 802.3 (R376) over the bytes of 123456789. -/
theorem test_crc32 : crc32 [0x31, 0x32, 0x33, 0x34, 0x35, 0x36, 0x37, 0x38, 0x39] = 0xCBF43926 := by decide +kernel

/-- R139: t2 − t1 = 44 ns and t4 − t3 = 36 ns on a port without asymmetry give offset 4.0 ns and delay 40.0 ns, in steps of 0.1 ns. -/
theorem test_exchange :
    (match exec (.dlyResp .htu 0 (reply0 (65536 * 536))) (syncing 0 (65536 * 44) 0 (65536 * 500) 1) with
      | .next t => (t.rd .htu Reg.TIM_OFFSET_OFFSET, t.rd .htu Reg.TIM_DELAY_DELAY)
      | _ => (0, 0)) = (40, 400) := by decide +kernel

/-- R10: a misaligned read returns all ones and leaves one record of TYPE 0x0001. -/
theorem test_misaligned_read :
    (match exec (.misalignedAccess .htu .hreg 2 4 false) live with
      | .next t => (t.h.bus, t.h.evr.staged.map (·.typ))
      | _ => (0, [])) = (BitVec.allOnes 64, [1]) := by decide +kernel

/-- R73, R76, R93: an IDENT in mailbox 0 before policy answers OK with its tag and 32 bytes, HTU_ID first. -/
theorem test_ident_replies :
    (match exec (.ident .htu 0 (pkt 0 [])) (sets .htu [(Reg.HTU_STATUS_POLICY, 0)] live) with
      | .next t => ((t.mb .htu 0).replies.map (fun r => (r.1.length, r.1.take 2, r.1[2]?.map (·.setWidth 32), r.2)),
          (t.mb .htu 0).outst, t.rd .htu (Reg.MBX_NEXT_SEQ_SEQ 0))
      | _ => ([], [], 0)) = ([(6, [0x0000002000070002, 0], some (0x4A224200 : Half), 32)], [], 1) := by decide +kernel

end Sys2Proof.Tests
end

section

/-! # Packets that vanish and accesses that are misaligned: O25 and O5 -/

namespace Sys2Proof.Machine

/-- Settles O25: the answer to a misaligned access is one program for every state of a unit out of reset. -/
theorem misalignedAccessIsRecorded : Obligations.MisalignedAccessIsRecorded := by
  intro u a off size s hr
  constructor
  all_goals
    change Host.Outcome.next ((Prog.up u (.misaligned u a off size _)).run s) = _
    rw [Prog.run_up _ _ _ hr]
    rfl

/-- Taking a packet's 32-byte form twice is taking it once: ORD stands in FLAGS and the parameters already have 24 bytes. -/
theorem asV1_asV1 (p : Packet) (part role : Nat) : asV1 (asV1 p part role) part role = asV1 p part role := by
  have hf (b : Bool) : (BitVec.ofNat 8 (1 + 4 * b.toNat))[2] = b := by
    cases b <;> rfl
  have hz : (zeros 4104).length = 4104 := List.length_replicate
  by_cases hl : p.params.length ≤ 24 <;> simp [asV1, hf, hl, hz]

/-- Each packet instruction runs its command from the packet that it carries. -/
theorem exec_packetOf {i : Instr} {u : UnitId} {m code : Nat} {p : Packet} (hi : packetOf i = some (u, m, code, p)) (s : State) :
    exec i s = runCommand u m code p s := by
  cases i <;> simp only [packetOf, Option.some.injEq, Prod.mk.injEq, reduceCtorEq] at hi <;>
    (obtain ⟨rfl, rfl, h, rfl⟩ := hi; rw [← h]; rfl)

/-- On a mailbox with v1 framing a packet is committed as its 32-byte form (R97, R98). -/
theorem commit_asV1 (s : State) (u : UnitId) (m code : Nat) (p : Packet) (h : s.on u (Reg.MBX_STATUS_GEN m) = true) :
    (Prog.commit u m code (asV1 p (s.rd u (Reg.MBX_V1_IDENT_PARTITION m)) (s.rd u (Reg.MBX_V1_IDENT_ROLE m)))).run s
      = (Prog.commit u m code p).run s := by
  simp [Prog.commit, h, asV1_asV1, packetWords]

/-- A command for a mailbox that the unit has runs. -/
theorem runCommand_inst {u : UnitId} {m : Nat} (hm : m < mbxCount u) (code : Nat) (p : Packet) (s : State) :
    runCommand u m code p s = .next ((Prog.command u m code p).run s) := by
  simp [runCommand, hm]

/-- A command for a unit out of reset is committed, and the mailbox goes on with its work. -/
theorem command_ready {s : State} {u : UnitId} (m code : Nat) (p : Packet) (h : s.blockReady u 0x1000 = true) :
    (Prog.command u m code p).run s
      = (Prog.settle u).run ((Prog.mbxWork u m).run ((Prog.mbxWork u m).run ((Prog.commit u m code p).run s))) := by
  simp [Prog.command, h]

/-- A command for a unit that does not answer changes nothing (R16, R59). -/
theorem command_notReady {s : State} {u : UnitId} (m code : Nat) (p : Packet) (h : s.blockReady u 0x1000 = false) :
    (Prog.command u m code p).run s = s := by
  simp [Prog.command, h]

/-- No block of a unit held in reset answers (R16). -/
theorem blockReady_inReset {s : State} {u : UnitId} (off : Nat) (h : (s.dev u).inReset = true) : s.blockReady u off = false := by
  simp [State.blockReady, h]

/-- A packet that is only counted leaves an idle mailbox with no work. -/
theorem command_counted {s : State} {u : UnitId} {m code : Nat} {p : Packet} {f : Fld} (hb : s.blockReady u 0x1000 = true)
    (hh : (s.mb u m).held = []) (hw : (s.mb u m).waiting = [])
    (hc : (Prog.commit u m code p).run s = (Prog.mbxErr u m f).run s) :
    (Prog.command u m code p).run s = (Prog.settle u).run ((Prog.mbxErr u m f).run s) := by
  have idle := Prog.mbxWork_idle ((Prog.mbxErr u m f).run s) u m (by simpa using hh) (by simpa using hw)
  rw [command_ready m code p hb, hc, idle, idle]

/-- Settles O5, by the branches of `Prog.commit`: v1 framing, a closed mailbox, a full request queue. -/
theorem closedAndHeldMailboxes : Obligations.ClosedAndHeldMailboxes := by
  refine ⟨fun i s u m code p hi hm => ⟨fun hr => ?_, fun hg j hj => ?_⟩,
    fun i s u m code p hi hm hb hh hw => ⟨fun ht => ?_, fun ht hf => ?_⟩⟩
  · rw [exec_packetOf hi, runCommand_inst hm, command_notReady m code p (blockReady_inReset _ hr)]
  · rw [exec_packetOf hi, exec_packetOf hj, runCommand_inst hm, runCommand_inst hm]
    simp only [Prog.command, Prog.run_get, Prog.run_cond, Prog.run_seq_cons, commit_asV1 s u m code p hg]
  · rw [exec_packetOf hi, runCommand_inst hm, command_counted (f := Reg.MBX_ERR2_CLOSED m) hb hh hw (by simp [Prog.commit, ht])]
  · rw [exec_packetOf hi, runCommand_inst hm, command_counted (f := Reg.MBX_ERR_OVERFLOW m) hb hh hw (by simp [Prog.commit, ht, Nat.not_le.2 hf])]
end Sys2Proof.Machine

end

section

/-! # Fields of a written word, and the program that stores it -/

namespace Sys2Proof.Machine

variable (f g : Fld) (w d m : Word)

/-- The bits of a field's mask. -/
theorem Fld.getLsbD_mask {i : Nat} (hi : i < 64) : f.mask.getLsbD i = decide (f.lsb ≤ i ∧ i < f.lsb + f.width) := by
  rw [Fld.mask, BitVec.getLsbD_shiftLeft, BitVec.getLsbD_ofNat, Nat.testBit_two_pow_sub_one, decide_eq_true hi,
    decide_eq_true (show i - f.lsb < 64 by omega)]
  by_cases h1 : i < f.lsb
  · simp [h1]
  · rw [decide_eq_false h1]
    simp only [Bool.true_and, Bool.not_false, decide_eq_decide]
    omega

/-- A field depends on its own bits alone. -/
theorem Fld.getW_congr {w d : Word} (h : ∀ i, i < f.width → f.lsb + i < 64 → w.getLsbD (f.lsb + i) = d.getLsbD (f.lsb + i)) :
    f.getW w = f.getW d := by
  apply Nat.eq_of_testBit_eq
  intro i
  rw [Fld.testBit_getW, Fld.testBit_getW]
  by_cases hi : i < f.width
  · by_cases hb : f.lsb + i < 64
    · rw [h i hi hb]
    · rw [BitVec.getLsbD_of_ge _ _ (by omega), BitVec.getLsbD_of_ge _ _ (by omega)]
  · simp [hi]

/-- The word `w` with the bits of a RW field that lie in `m` taken from `d`. -/
def Fld.store (m w d : Word) : Word := (w &&& ~~~(f.mask &&& m)) ||| (d &&& (f.mask &&& m))

/-- The word `w` with the bits of a W1C field that lie in `m` cleared where `d` holds a 1. -/
def Fld.clear (m w d : Word) : Word := w &&& ~~~(d &&& (f.mask &&& m))

/-- A RW field in the written part of a word takes the bits written. -/
theorem Fld.getW_store_same (hm : f.mask &&& m = f.mask) : f.getW (f.store m w d) = f.getW d := by
  rw [Fld.store, hm]
  refine Fld.getW_congr f fun i hi hb => ?_
  have hm : f.mask.getLsbD (f.lsb + i) = true := by rw [Fld.getLsbD_mask f hb]; exact decide_eq_true (by omega)
  rw [BitVec.getLsbD_or, BitVec.getLsbD_and, BitVec.getLsbD_and, BitVec.getLsbD_not, hm]
  simp

variable {f g} in
/-- A field that shares no bit with another has none in its mask. -/
theorem Fld.mask_other (hd : g.lsb + g.width ≤ f.lsb ∨ f.lsb + f.width ≤ g.lsb) {i : Nat} (hi : i < g.width) (hb : g.lsb + i < 64) :
    f.mask.getLsbD (g.lsb + i) = false := by
  rw [Fld.getLsbD_mask f hb]
  exact decide_eq_false (by omega)

/-- A field that shares no bit with the one written keeps its value. -/
theorem Fld.getW_store_other (hd : g.lsb + g.width ≤ f.lsb ∨ f.lsb + f.width ≤ g.lsb) :
    g.getW (f.store m w d) = g.getW w := by
  refine Fld.getW_congr g fun i hi hb => ?_
  rw [Fld.store, BitVec.getLsbD_or, BitVec.getLsbD_and, BitVec.getLsbD_and, BitVec.getLsbD_not, BitVec.getLsbD_and, Fld.mask_other hd hi hb]
  simp [hb]

/-- A field that shares no bit with a W1C field keeps its value. -/
theorem Fld.getW_clear_other (hd : g.lsb + g.width ≤ f.lsb ∨ f.lsb + f.width ≤ g.lsb) :
    g.getW (f.clear m w d) = g.getW w := by
  refine Fld.getW_congr g fun i hi hb => ?_
  rw [Fld.clear, BitVec.getLsbD_and, BitVec.getLsbD_not, BitVec.getLsbD_and, BitVec.getLsbD_and, Fld.mask_other hd hi hb]
  simp [hb]

/-- A W1C bit in the written part of a word is cleared by a 1 and kept by a 0. -/
theorem Fld.getW_clear_bit (h1 : f.width = 1) (hf : f.lsb < 64) (hm : f.mask &&& m = f.mask) :
    f.getW (f.clear m w d) = if d.getLsbD f.lsb then 0 else f.getW w := by
  have hb : f.mask.getLsbD f.lsb = true := by rw [Fld.getLsbD_mask f hf]; exact decide_eq_true (by omega)
  have key : (w &&& ~~~(d &&& f.mask)).getLsbD f.lsb = (!d.getLsbD f.lsb && w.getLsbD f.lsb) := by
    rw [BitVec.getLsbD_and, BitVec.getLsbD_not, BitVec.getLsbD_and, hb, decide_eq_true hf]
    simp [Bool.and_comm]
  rw [Fld.clear, hm]
  apply Nat.eq_of_testBit_eq
  intro i
  by_cases hi : i = 0
  · subst hi
    rw [Fld.testBit_getW, Nat.add_zero, key]
    split
    · next h => simp [h]
    · next h => rw [Fld.testBit_getW, Nat.add_zero, Bool.eq_false_of_not_eq_true h, Bool.not_false, Bool.true_and]
  · rw [Fld.testBit_getW, show decide (i < f.width) = false from decide_eq_false (by omega)]
    split
    · simp
    · rw [Fld.testBit_getW, show decide (i < f.width) = false from decide_eq_false (by omega)]
      rfl

/-- A field reads alike where only bits outside it are masked out. -/
theorem Fld.getW_and (hm : f.mask &&& m = f.mask) : f.getW (w &&& m) = f.getW w := by
  refine Fld.getW_congr f fun i hi hb => ?_
  have hf : f.mask.getLsbD (f.lsb + i) = true := by rw [Fld.getLsbD_mask f hb]; exact decide_eq_true (by omega)
  have hi : m.getLsbD (f.lsb + i) = true := by
    rw [← hm, BitVec.getLsbD_and, Bool.and_eq_true] at hf
    exact hf.2
  rw [BitVec.getLsbD_and, hi, Bool.and_true]

/-- A field of 64 bits stores the whole word. -/
theorem Fld.setW_whole (off : Nat) (w v : Word) : Fld.setW ⟨off, 0, 64⟩ w v.toNat = v := by
  apply BitVec.eq_of_getLsbD_eq
  intro i hi
  rw [Fld.getLsbD_setW ⟨off, 0, 64⟩ v.toNat w i hi, if_pos ⟨by simp, by simpa using hi⟩, Nat.mod_eq_of_lt v.isLt]
  rfl

/-- A write of a whole word is what the word reads. -/
theorem State.word_wr_whole (s : State) (u : UnitId) (off : Nat) (v : Word) : (s.wr u ⟨off, 0, 64⟩ v.toNat).word u off = v := by
  rw [show off = (Fld.mk off 0 64).off from rfl, State.word_wr_same, Fld.setW_whole]

/-- What a field reads after its whole word was written. -/
theorem State.rd_wr_whole (s : State) (u : UnitId) (v : Word) : (s.wr u ⟨f.off, 0, 64⟩ v.toNat).rd u f = f.getW v := by
  rw [State.rd, State.word_wr_whole]

-- the program
variable (s : State) (u : UnitId) (a : Agent) (off : Nat) (v : Word)

/-- A change of a unit's common part leaves the registers. -/
@[simp] theorem State.modDev_word (k : Dev → Dev) (x : UnitId) (o : Nat) : (s.modDev x k).word u o = s.word u o := by
  cases u <;> cases x <;> rfl

/-- Two changes of a unit's part are one. -/
theorem State.modDev_modDev (f g : Dev → Dev) : (s.modDev u f).modDev u g = s.modDev u (g ∘ f) := by cases u <;> rfl

/-- The outcome of a program whose result is known. -/
theorem next_of {p : Prog} {s t : State} (h : p.run s = t) : Prog.next p s = .next t := congrArg _ h

/-- An instruction of a unit out of reset runs its program. -/
theorem next_up {s : State} {u : UnitId} (p : Prog) (h : (s.dev u).inReset = false) : Prog.next (.up u p) s = .next (p.run s) :=
  congrArg _ (Prog.run_up s u p h)

/-- A register write of a unit out of reset, and what follows it. -/
theorem next_thenSettle {s : State} {u : UnitId} (p : Prog) (h : (s.dev u).inReset = false) :
    Prog.next (.up u (.thenSettle u p)) s = .next ((Prog.settle u).run (p.run s)) :=
  next_up _ h

/-- A 32-bit write of the low half of a word that is no 64-bit register stores its bits (R9, R12). -/
theorem Prog.writeReg_low (h4 : off % 8 = 0) (hb : s.blockReady u off = true) (hw : isWide u off = false) :
    (Prog.writeReg u a off false v).run s = (Prog.storeWord u a off 4 0xFFFFFFFF (v &&& 0xFFFFFFFF)).run ((Prog.dropLow u a).run s) := by
  have h8 : off / 8 * 8 = off := by omega
  have h1 : off % 4 = 0 := by omega
  simp [Prog.writeReg, h1, h4, hb, h8, hw]

/-- A 32-bit write of the high half of such a word stores its bits 32 higher (R9, R12). -/
theorem Prog.writeReg_high {base : Nat} (h8 : base % 8 = 0) (hb : s.blockReady u (base + 4) = true) (hw : isWide u base = false) :
    (Prog.writeReg u a (base + 4) false v).run s
      = (Prog.storeWord u a (base + 4) 4 0xFFFFFFFF00000000 (v <<< 32)).run ((Prog.dropLow u a).run s) := by
  have h1 : (base + 4) / 8 * 8 = base := by omega
  have h2 : (base + 4) % 4 = 0 := by omega
  have h3 : (base + 4) % 8 = 4 := by omega
  simp [Prog.writeReg, h1, h2, h3, hb, hw]

/-- A write that no field refuses stores its word and acts. -/
theorem Prog.storeWord_ok {base : Nat} {size : Nat} {mask data w : Word} (ho : off / 8 * 8 = base)
    (hw : s.writeWord u a base mask data = (w, [])) :
    (Prog.storeWord u a off size mask data).run s
      = (Prog.afterWrite u a base mask data s).run (s.wr u ⟨base, 0, 64⟩ w.toNat) := by
  simp [Prog.storeWord, ho, hw]

end Sys2Proof.Machine

end

section

/-! # The interrupt registers of a mailbox -/

namespace Sys2Proof.Machine

/-- The fields of the word with MBX_IRQ_EN and MBX_ERR of mailbox 0. -/
theorem wordFields_mbxErr (u : UnitId) : wordFields u 0x1028 = [
    (⟨true, true, 0x1028, 0, 2, .rw, 0, [(256, 3, 10)]⟩, [0], ⟨0x1028, 0, 2⟩),
    (⟨true, true, 0x102C, 0, 8, .rc, 0, [(256, 3, 10)]⟩, [0], ⟨0x1028, 32, 8⟩),
    (⟨true, true, 0x102C, 8, 8, .rc, 0, [(256, 3, 10)]⟩, [0], ⟨0x1028, 40, 8⟩),
    (⟨true, true, 0x102C, 16, 8, .rc, 0, [(256, 3, 10)]⟩, [0], ⟨0x1028, 48, 8⟩),
    (⟨true, true, 0x102C, 24, 8, .rc, 0, [(256, 3, 10)]⟩, [0], ⟨0x1028, 56, 8⟩)] := by
  cases u <;> rfl

/-- The fields of the word with MBX_CTL and MBX_IRQ_STATUS of mailbox 0. -/
theorem wordFields_mbxCtl (u : UnitId) : wordFields u 0x1020 = [
    (⟨true, true, 0x1020, 0, 1, .rw, 0, [(256, 3, 10)]⟩, [0], ⟨0x1020, 0, 1⟩),
    (⟨true, true, 0x1024, 0, 1, .w1c, 0, [(256, 3, 10)]⟩, [0], ⟨0x1020, 32, 1⟩),
    (⟨true, true, 0x1024, 1, 1, .w1c, 0, [(256, 3, 10)]⟩, [0], ⟨0x1020, 33, 1⟩)] := by
  cases u <;> rfl

/-- Neither word of mailbox 0 is a 64-bit register (R11), and neither names a stream. -/
theorem isWide_mbxErr (u : UnitId) : isWide u 0x1028 = false := by cases u <;> rfl
theorem isWide_mbxCtl (u : UnitId) : isWide u 0x1020 = false := by cases u <;> rfl
theorem regStreams_mbxErr (u : UnitId) : regStreams u 0x1028 = [] := by cases u <;> rfl
theorem regStreams_mbxCtl (u : UnitId) : regStreams u 0x1020 = [] := by cases u <;> rfl

variable (s : State) (u : UnitId) (a : Agent) (v : Word)

/-- Every block above the identification registers is ready when one is (R9). -/
theorem blockReady_high {s : State} {u : UnitId} {a b : Nat} (ha : 0x1000 ≤ a) (hb : 0x1000 ≤ b) (h : s.blockReady u a = true) :
    s.blockReady u b = true := by
  have h1 : ¬ a < 0x1000 := by omega
  have h2 : ¬ b < 0x1000 := by omega
  simpa only [State.blockReady, if_neg h1, if_neg h2] using h

/-- A block is ready in a unit out of reset. -/
theorem inReset_of_blockReady {s : State} {u : UnitId} {off : Nat} (h : s.blockReady u off = true) : (s.dev u).inReset = false := by
  simp only [State.blockReady, Bool.and_eq_true, Bool.not_eq_true'] at h
  exact h.1

/-- The row of a register write. -/
theorem exec_registerWrite {s : State} {u : UnitId} (off : Nat) (wide : Bool) (h : (s.dev u).inReset = false) :
    exec (.registerWrite u a off wide v) s = .next ((Prog.settle u).run ((Prog.writeReg u a off wide v).run s)) :=
  next_thenSettle _ h


/-- An access leaves the low halves that agents hold, and no register, where it discards one (R11). -/
@[simp] theorem State.word_dropLow (w : UnitId) (off : Nat) : ((Prog.dropLow u a).run s).word w off = s.word w off := by
  simp [Prog.dropLow]


/-- The registers of mailboxes 0 to 2 stand in both units. -/
theorem mbxBlock (off : Nat) (h : 0x1000 ≤ off ∧ off < 0x1300) (u : UnitId) : 0x1000 ≤ off ∧ off < 0x1000 + 256 * mbxCount u := by
  cases u <;> simp only [mbxCount] <;> omega

/-- MBX_IRQ_EN is a RW field (R12, R74). -/
theorem writeWord_irqEn (d : Word) : s.writeWord u a 0x1028 0xFFFFFFFF d
    = ((Reg.MBX_IRQ_EN_EN 0).store 0xFFFFFFFF (s.word u 0x1028) d, []) := by
  simp only [State.writeWord, wordFields_mbxErr, List.foldl]
  simp [State.refusal, hostOnly, fieldFn, Fld.mask, Fld.store, Reg.MBX_IRQ_EN_EN]

/-- The bits of MBX_IRQ_STATUS are W1C (R12, R74). -/
theorem writeWord_irqStatus (d : Word) : s.writeWord u a 0x1020 0xFFFFFFFF00000000 d
    = ((Reg.MBX_IRQ_STATUS_ERROR 0).clear 0xFFFFFFFF00000000
        ((Reg.MBX_IRQ_STATUS_NOTIFY_REPLY 0).clear 0xFFFFFFFF00000000 (s.word u 0x1020) d) d, []) := by
  simp only [State.writeWord, wordFields_mbxCtl, List.foldl]
  simp [State.refusal, hostOnly, fieldFn, Fld.mask, Fld.clear, Reg.MBX_IRQ_STATUS_NOTIFY_REPLY, Reg.MBX_IRQ_STATUS_ERROR]

/-- A write of MBX_IRQ_EN of mailbox 0 stores its word, and the interrupt line follows (R74). -/
theorem writeReg_irqEn (hb : s.blockReady u 0x1000 = true) : (Prog.writeReg u a 0x1028 false v).run s
    = (Prog.irqEdge u 0 ((Prog.dropLow u a).run s)).run (((Prog.dropLow u a).run s).wr u ⟨0x1028, 0, 64⟩
        ((Reg.MBX_IRQ_EN_EN 0).store 0xFFFFFFFF (s.word u 0x1028) (v &&& 0xFFFFFFFF)).toNat) := by
  rw [Prog.writeReg_low s u a 0x1028 v rfl (blockReady_high (by decide) (by decide) hb) (isWide_mbxErr u),
    Prog.storeWord_ok _ u a 0x1028 rfl (writeWord_irqEn ..), State.word_dropLow]
  simp [Prog.afterWrite, Prog.streamWrites, regStreams_mbxErr, mbxBlock 0x1028 (by decide) u]

/-- A write of MBX_IRQ_STATUS of mailbox 0 stores its word, and the interrupt line follows (R74). -/
theorem writeReg_irqStatus (hb : s.blockReady u 0x1000 = true) : (Prog.writeReg u a 0x1024 false v).run s
    = (Prog.both (.genSelect u 0 ((Prog.dropLow u a).run s)) (.irqEdge u 0 ((Prog.dropLow u a).run s))).run
      (((Prog.dropLow u a).run s).wr u ⟨0x1020, 0, 64⟩ ((Reg.MBX_IRQ_STATUS_ERROR 0).clear 0xFFFFFFFF00000000
        ((Reg.MBX_IRQ_STATUS_NOTIFY_REPLY 0).clear 0xFFFFFFFF00000000 (s.word u 0x1020) (v <<< 32)) (v <<< 32)).toNat) := by
  rw [Prog.writeReg_high s u a v (base := 0x1020) rfl (blockReady_high (by decide) (by decide) hb) (isWide_mbxCtl u),
    Prog.storeWord_ok _ u a (0x1020 + 4) rfl (writeWord_irqStatus ..), State.word_dropLow]
  simp [Prog.afterWrite, Prog.streamWrites, regStreams_mbxCtl, mbxBlock 0x1020 (by decide) u]

/-- GEN_SEL acts on MBX_CTL and MBX_STATUS alone. -/
theorem genSelect_keeps (m : Nat) (was : State) : (Prog.genSelect u m was).keeps fun w o =>
    w = u ∧ (o = (Reg.MBX_STATUS_GEN m).off ∨ o = (Reg.MBX_CTL_GEN_SEL m).off) := by
  intro t
  simp only
  split
  · next h => obtain ⟨rfl, rfl⟩ := h; split <;> simp
  · simp

/-- No field but GEN_SEL of MBX_CTL changes with GEN_SEL. -/
theorem rd_genSelect (m : Nat) (was : State) (f : Fld) (h : 1 ≤ f.lsb) (ho : f.off = (Reg.MBX_CTL_GEN_SEL m).off) :
    ((Prog.genSelect u m was).run s).rd u f = s.rd u f := by
  have hs : (Reg.MBX_STATUS_GEN m).off ≠ (Reg.MBX_CTL_GEN_SEL m).off := by simp [Reg.MBX_STATUS_GEN, Reg.MBX_CTL_GEN_SEL]
  simp only [Prog.genSelect, Prog.run_get]
  split
  · next hu =>
    obtain ⟨rfl, rfl⟩ := hu
    split
    · exact State.rd_wr_other _ _ _ _ _ (Or.inr (Or.inl (ho ▸ hs.symm)))
    · exact State.rd_wr_other _ _ _ _ _ (Or.inr (Or.inr (Or.inr h)))
  · exact State.rd_wr_other _ _ _ _ _ (Or.inr (Or.inr (Or.inr h)))

/-- An edge of an interrupt line leaves every field. -/
theorem rd_irqEdge (w : UnitId) (m : Nat) (was : State) (f : Fld) : ((Prog.irqEdge u m was).run s).rd w f = s.rd w f :=
  Prog.rd_keeps (F := fun _ _ => False) (Prog.irqEdge_keeps u m was) f id s

/-- An edge of an interrupt line leaves every word. -/
theorem word_irqEdge (w : UnitId) (m off : Nat) (was : State) : ((Prog.irqEdge u m was).run s).word w off = s.word w off :=
  Prog.word_keeps (F := fun _ _ => False) (Prog.irqEdge_keeps u m was) id s

/-- A bit of the low half stands 32 bits higher in a high half's write. -/
theorem getLsbD_high (i : Nat) (h : i < 32) : (v <<< 32).getLsbD (32 + i) = v.getLsbD i := by
  rw [BitVec.getLsbD_shiftLeft, decide_eq_true (by omega : 32 + i < 64)]
  simp

/-- Writes of RW and W1C registers of mailbox 0 (R12, R74). -/
theorem irqRegisterWrites (hb : s.blockReady u 0x1000 = true) :
      (∃ t : State, exec (.registerWrite u a 0x1028 false v) s = .next ((Prog.settle u).run t) ∧
        t.rd u (Reg.MBX_IRQ_EN_EN 0) = v.toNat % 4 ∧ t.rd u (Reg.MBX_ERR_FRAMING 0) = s.rd u (Reg.MBX_ERR_FRAMING 0) ∧
        t.rd u (Reg.MBX_ERR_EMPTY_READ 0) = s.rd u (Reg.MBX_ERR_EMPTY_READ 0) ∧
        ∀ w off, ¬ (w = u ∧ off = 0x1028) → t.word w off = s.word w off) ∧
      (∃ t : State, exec (.registerWrite u a 0x1024 false v) s = .next ((Prog.settle u).run t) ∧
        t.rd u (Reg.MBX_IRQ_STATUS_NOTIFY_REPLY 0) = (if v.getLsbD 0 then 0 else s.rd u (Reg.MBX_IRQ_STATUS_NOTIFY_REPLY 0)) ∧
        t.rd u (Reg.MBX_IRQ_STATUS_ERROR 0) = (if v.getLsbD 1 then 0 else s.rd u (Reg.MBX_IRQ_STATUS_ERROR 0)) ∧
        t.rd u (Reg.MBX_IRQ_EN_EN 0) = s.rd u (Reg.MBX_IRQ_EN_EN 0)) := by
  have hr := inReset_of_blockReady hb
  refine ⟨⟨_, exec_registerWrite a v _ _ hr, ?_⟩, ⟨_, exec_registerWrite a v _ _ hr, ?_⟩⟩
  · rw [writeReg_irqEn s u a v hb]
    simp only [rd_irqEdge, word_irqEdge]
    refine ⟨?_, ?_, ?_, fun w off h => ?_⟩
    · refine (State.rd_wr_whole (Reg.MBX_IRQ_EN_EN 0) _ u _).trans ((Fld.getW_store_same _ _ _ _ (by decide)).trans ?_)
      rw [Fld.getW_and _ _ _ (by decide)]
      simp [Fld.getW, Reg.MBX_IRQ_EN_EN]
    · exact (State.rd_wr_whole (Reg.MBX_ERR_FRAMING 0) _ u _).trans (Fld.getW_store_other _ _ _ _ _ (by decide))
    · exact (State.rd_wr_whole (Reg.MBX_ERR_EMPTY_READ 0) _ u _).trans (Fld.getW_store_other _ _ _ _ _ (by decide))
    · rw [State.word_wr_other _ _ _ _ (Decidable.not_and_iff_not_or_not.1 h), State.word_dropLow]
  · rw [writeReg_irqStatus s u a v hb, Prog.run_both]
    simp only [rd_irqEdge]
    refine ⟨?_, ?_, ?_⟩
    · rw [rd_genSelect _ _ _ _ (Reg.MBX_IRQ_STATUS_NOTIFY_REPLY 0) (by decide) rfl]
      refine (State.rd_wr_whole (Reg.MBX_IRQ_STATUS_NOTIFY_REPLY 0) _ u _).trans ((Fld.getW_clear_other _ _ _ _ _ (by decide)).trans
        ((Fld.getW_clear_bit _ _ _ _ rfl (by decide) (by decide)).trans ?_))
      rw [← getLsbD_high v 0 (by decide)]; rfl
    · rw [rd_genSelect _ _ _ _ (Reg.MBX_IRQ_STATUS_ERROR 0) (by decide) rfl]
      refine (State.rd_wr_whole (Reg.MBX_IRQ_STATUS_ERROR 0) _ u _).trans
        ((Fld.getW_clear_bit _ _ _ _ rfl (by decide) (by decide)).trans ?_)
      rw [← getLsbD_high v 1 (by decide), Fld.getW_clear_other _ _ _ _ _ (by decide)]; rfl
    · rw [Prog.rd_keeps (genSelect_keeps u 0 _) _ (by simp [Reg.MBX_STATUS_GEN, Reg.MBX_CTL_GEN_SEL, Reg.MBX_IRQ_EN_EN]),
        State.rd_wr_other _ _ _ _ _ (by simp [Reg.MBX_IRQ_EN_EN])]
      simp [State.rd]

end Sys2Proof.Machine

end

section

/-! # Reads that clear and reads that are refused: O26 -/

namespace Sys2Proof.Machine

/-- Only offset 0x10 of a mailbox takes words of the reply queue (R68). -/
theorem rspOf_none (u : UnitId) {off : Nat} (h : off % 256 ≠ 0x10) : rspOf u off = none := by
  simp [rspOf, h]

/-- The field of SEC_POLICY_VER. -/
theorem wordFields_policyVer (u : UnitId) : wordFields u 0x80008 = [
    (⟨true, true, 0x80008, 0, 32, .gro, 0, []⟩, [], ⟨0x80008, 0, 32⟩)] := by cases u <;> rfl

/-- SEC_POLICY_VER is no 64-bit register. -/
theorem isWide_policyVer (u : UnitId) : isWide u 0x80008 = false := by cases u <;> rfl

variable (s : State) (u : UnitId) (a : Agent)

/-- The row of a read that clears. -/
theorem exec_rcRead {s : State} {u : UnitId} (off : Nat) (wide : Bool) (h : (s.dev u).inReset = false) :
    exec (.rcRead u a off wide) s = .next ((Prog.readReg u a off wide).run s) :=
  next_up _ h

/-- The row of a read of a GRO field. -/
theorem exec_groRead {s : State} {u : UnitId} (off : Nat) (wide : Bool) (h : (s.dev u).inReset = false) :
    exec (.groRead u a off wide) s = .next ((Prog.readReg u a off wide).run s) :=
  next_up _ h

/-- MBX_IRQ_EN and MBX_ERR of a mailbox follow no other state. -/
theorem view_mbxErr : s.view u a 0x1028 = s.word u 0x1028 := by
  cases u <;> simp [State.view, State.follows, mbxBlock, Reg.MBX_STATUS_OUTSTANDING, Reg.MBX_STATUS_REQ_FREE, Reg.MBX_RSP_LEVEL_RSP_WORDS]

/-- SEC_POLICY_VER follows no other state. -/
theorem view_policyVer : s.view u a 0x80008 = s.word u 0x80008 := by
  cases u <;> simp [State.view, State.follows]

/-- A read of MBX_ERR returns its counters and clears them (R12, R14). -/
theorem readWord_mbxErr : s.readWord u a 0x1028 0xFFFFFFFF00000000 = (s.word u 0x1028 &&& 0xFFFFFFFF00000000, 0xFFFFFFFF00000000, false) := by
  simp only [State.readWord, wordFields_mbxErr, List.foldl, view_mbxErr]
  simp [Fld.mask, ← BitVec.and_or_distrib_left]

/-- A read of SEC_POLICY_VER by Gorse (R13). -/
theorem readWord_policyVer_gorse : s.readWord u .gorse 0x80008 0xFFFFFFFF = (s.word u 0x80008 &&& 0xFFFFFFFF, 0, false) := by
  simp only [State.readWord, wordFields_policyVer, List.foldl, view_policyVer]
  simp [Fld.mask]

/-- A read of SEC_POLICY_VER by another agent (R13). -/
theorem readWord_policyVer_other (h : a ≠ .gorse) : s.readWord u a 0x80008 0xFFFFFFFF = (0, 0, true) := by
  simp only [State.readWord, wordFields_policyVer, List.foldl, view_policyVer]
  simp [Fld.mask, h]

/-- A 32-bit read of a word that is no 64-bit register (R9, R12). -/
theorem readReg_narrow {base : Nat} (high : Bool) {v clear : Word} {denied : Bool}
    (h8 : base % 8 = 0) (hb : s.blockReady u (base + 4 * high.toNat) = true)
    (hd : dieWideReg u (base + 4 * high.toNat) false = false) (hn : base ≠ 0x2008) (hr : rspOf u base = none)
    (hw : isWide u base = false)
    (hv : s.readWord u a base (if high then 0xFFFFFFFF00000000 else 0xFFFFFFFF) = (v, clear, denied)) :
    (Prog.readReg u a (base + 4 * high.toNat) false).run s = (Prog.afterRead u a (base + 4 * high.toNat) 4 base clear v denied).run
      (s.modDev u fun d => { d with bus := if high then v >>> 32 else v }) := by
  simp only [BitVec.ofNat_eq_ofNat] at hv
  have h1 : (base + 4 * high.toNat) / 8 * 8 = base := by cases high <;> simp <;> omega
  have h2 : (base + 4 * high.toNat) % 4 = 0 := by cases high <;> simp <;> omega
  have h3 : (base + 4 * high.toNat) % 8 = 4 ↔ high = true := by cases high <;> simp <;> omega
  cases hl : ((s.dev u).hiLatch.find? fun (e : Agent × Nat × Half) => e.1 == a && e.2.1 == base) <;>
    simp [Prog.readReg, h1, h2, h3, hb, hd, hn, hr, hw, hv, hl]

/-- Nothing is left to do after a read that clears nothing and refuses nothing. -/
theorem afterRead_plain (off size base : Nat) (taken : Word) : (Prog.afterRead u a off size base 0 taken false).run s = s := by
  simp [Prog.afterRead]

/-- What a read that refuses leaves is its record. -/
theorem afterRead_denied (off size base : Nat) (taken : Word) : (Prog.afterRead u a off size base 0 taken true).run s
    = (Prog.event u 0x0002 (accessPayload off a size false 2)).run s := by
  simp [Prog.afterRead]


/-- The fields of a RC read are cleared one by one: each was taken as it stood (R12, R14). -/
theorem clearTaken_run (l : List (Row × List Nat × Fld)) (taken : Word) (s : State)
    (ht : ∀ e ∈ l, e.2.2.getW taken = s.rd u e.2.2)
    (hd : l.Pairwise fun e f => e.2.2.lsb + e.2.2.width ≤ f.2.2.lsb) :
    (Prog.each l fun e => .get fun s => .wr u e.2.2 (s.rd u e.2.2 - e.2.2.getW taken)).run s
      = l.foldl (fun t e => t.wr u e.2.2 0) s := by
  induction l generalizing s with
  | nil => rfl
  | cons e l ih =>
    rw [List.pairwise_cons] at hd
    have h0 : s.rd u e.2.2 - e.2.2.getW taken = 0 := by rw [ht e List.mem_cons_self, Nat.sub_self]
    simp only [Prog.each, List.foldr, Prog.run_both, Prog.run_get, Prog.run_wr, h0, List.foldl] at ih ⊢
    refine ih _ (fun f hf => ?_) hd.2
    rw [ht f (List.mem_cons_of_mem _ hf), State.rd_wr_other _ _ _ _ _ (Or.inr (Or.inr (Or.inr (hd.1 f hf))))]

/-- A read of MBX_ERR's counters returns them and clears all four (R12, R14). -/
theorem readReg_mbxErr (hb : s.blockReady u 0x1000 = true) : (Prog.readReg u a 0x102C false).run s
    = ((((s.modDev u fun d => { d with bus := (s.word u 0x1028 &&& 0xFFFFFFFF00000000) >>> 32 }).wr u (Reg.MBX_ERR_FRAMING 0) 0).wr u
        (Reg.MBX_ERR_OVERFLOW 0) 0).wr u (Reg.MBX_ERR_DUP_TAG 0) 0).wr u (Reg.MBX_ERR_EMPTY_READ 0) 0 := by
  have hd : dieWideReg u 0x102C false = false := by cases u <;> rfl
  have hf : ((wordFields u 0x1028).filter fun e => e.2.2.mask &&& (0xFFFFFFFF00000000 : Word) != 0 && e.1.acc == .rc)
      = (wordFields u 0x1028).tail := by rw [wordFields_mbxErr]; decide
  rw [show (0x102C : Nat) = 0x1028 + 4 * true.toNat from rfl, readReg_narrow s u a true rfl (blockReady_high (by decide) (by decide) hb) hd
    (by decide) (rspOf_none u (by decide)) (isWide_mbxErr u) (readWord_mbxErr s u a), Prog.afterRead, hf]
  simp only [Prog.run_seq_cons, Prog.run_seq_nil]
  rw [clearTaken_run]
  · rw [wordFields_mbxErr]
    simp [Reg.MBX_ERR_FRAMING, Reg.MBX_ERR_OVERFLOW, Reg.MBX_ERR_DUP_TAG, Reg.MBX_ERR_EMPTY_READ]
  · intro e he
    rw [wordFields_mbxErr] at he
    simp only [List.tail_cons, List.mem_cons, List.not_mem_nil, or_false] at he
    rcases he with rfl | rfl | rfl | rfl <;> exact (Fld.getW_and _ _ _ (by decide)).trans (by simp [State.rd])
  · rw [wordFields_mbxErr]
    decide

/-- The high half of a word, as a number made of its four bytes. -/
theorem highHalf_bytes (w : Word) : ((w &&& 0xFFFFFFFF00000000) >>> 32).toNat
    = (Reg.MBX_ERR_FRAMING 0).getW w + 256 * (Reg.MBX_ERR_OVERFLOW 0).getW w + 65536 * (Reg.MBX_ERR_DUP_TAG 0).getW w
      + 16777216 * (Reg.MBX_ERR_EMPTY_READ 0).getW w := by
  have hw : ((w &&& 0xFFFFFFFF00000000) >>> 32).toNat = w.toNat / 2 ^ 32 % 2 ^ 32 := by
    rw [BitVec.ushiftRight_and_distrib, BitVec.toNat_and, BitVec.toNat_ushiftRight, Nat.shiftRight_eq_div_pow]
    exact Nat.and_two_pow_sub_one_eq_mod _ 32
  rw [hw]
  simp only [Fld.getW, Reg.MBX_ERR_FRAMING, Reg.MBX_ERR_OVERFLOW, Reg.MBX_ERR_DUP_TAG, Reg.MBX_ERR_EMPTY_READ,
    BitVec.toNat_ushiftRight, Nat.shiftRight_eq_div_pow]
  omega

/-- A read of MBX_ERR's counters (R12, R14). -/
theorem errCountersRead (hb : s.blockReady u 0x1000 = true) :
      ∃ t : State, exec (.rcRead u a 0x102C false) s = .next t ∧
        (t.dev u).bus.toNat = s.rd u (Reg.MBX_ERR_FRAMING 0) + 256 * s.rd u (Reg.MBX_ERR_OVERFLOW 0)
          + 65536 * s.rd u (Reg.MBX_ERR_DUP_TAG 0) + 16777216 * s.rd u (Reg.MBX_ERR_EMPTY_READ 0) ∧
        (∀ f ∈ [Reg.MBX_ERR_FRAMING 0, Reg.MBX_ERR_OVERFLOW 0, Reg.MBX_ERR_DUP_TAG 0, Reg.MBX_ERR_EMPTY_READ 0], t.rd u f = 0) ∧
        t.rd u (Reg.MBX_IRQ_EN_EN 0) = s.rd u (Reg.MBX_IRQ_EN_EN 0) ∧ ∀ w off, ¬ (w = u ∧ off = 0x1028) → t.word w off = s.word w off := by
  have e (f : Fld) (ho : f.off = 0x1028) : f.getW (s.word u 0x1028) = s.rd u f := by rw [State.rd, ho]
  refine ⟨_, exec_rcRead a _ _ (inReset_of_blockReady hb), ?_⟩
  rw [readReg_mbxErr s u a hb]
  refine ⟨?_, ?_, ?_, fun w off h => ?_⟩
  · rw [← e _ rfl, ← e _ rfl, ← e _ rfl, ← e _ rfl, ← highHalf_bytes]
    simp
  · intro f hf
    simp only [List.mem_cons, List.not_mem_nil, or_false] at hf
    rcases hf with rfl | rfl | rfl | rfl <;>
      simp [State.rd_wr_same, State.rd_wr_other, Reg.MBX_ERR_FRAMING, Reg.MBX_ERR_OVERFLOW, Reg.MBX_ERR_DUP_TAG, Reg.MBX_ERR_EMPTY_READ]
  · simp [State.rd_wr_other, Reg.MBX_ERR_FRAMING, Reg.MBX_ERR_OVERFLOW, Reg.MBX_ERR_DUP_TAG, Reg.MBX_ERR_EMPTY_READ, Reg.MBX_IRQ_EN_EN]
  · have h : w ≠ u ∨ off ≠ 0x1028 := Decidable.not_and_iff_not_or_not.1 h
    rw [State.word_wr_other _ _ _ _ h, State.word_wr_other _ _ _ _ h, State.word_wr_other _ _ _ _ h, State.word_wr_other _ _ _ _ h,
      State.modDev_word]

/-- A read of SEC_POLICY_VER (R12, R13). -/
theorem policyVersionRead (hb : s.blockReady u 0x80000 = true) :
      (exec (.groRead u .gorse 0x80008 false) s = .next
        (s.modDev u fun d => { d with bus := BitVec.ofNat 64 (s.rd u Reg.SEC_POLICY_VER_VERSION) })) ∧
      (∀ a : Agent, a ≠ .gorse → exec (.groRead u a 0x80008 false) s = .next
        ((Prog.event u 0x0002 (accessPayload 0x80008 a 4 false 2)).run (s.modDev u fun d => { d with bus := 0 }))) := by
  have hr := inReset_of_blockReady hb
  have hb8 : s.blockReady u (0x80008 + 4 * false.toNat) = true := blockReady_high (by decide) (by decide) hb
  have hd : dieWideReg u (0x80008 + 4 * false.toNat) false = false := by cases u <;> rfl
  have read (a : Agent) {v clear : Word} {denied : Bool} (hv : s.readWord u a 0x80008 0xFFFFFFFF = (v, clear, denied)) :
      exec (.groRead u a 0x80008 false) s = .next
        ((Prog.afterRead u a 0x80008 4 0x80008 clear v denied).run (s.modDev u fun d => { d with bus := v })) :=
    (exec_groRead a 0x80008 false hr).trans (congrArg _ (readReg_narrow s u a (base := 0x80008) false rfl hb8 hd (by decide)
      (rspOf_none u (by decide)) (isWide_policyVer u) hv))
  constructor
  · rw [read .gorse (readWord_policyVer_gorse s u), afterRead_plain]
    have hv : s.word u 0x80008 &&& 0xFFFFFFFF = BitVec.ofNat 64 (s.rd u Reg.SEC_POLICY_VER_VERSION) := by
      apply BitVec.eq_of_toNat_eq
      rw [BitVec.toNat_and, BitVec.toNat_ofNat]
      refine (Nat.and_two_pow_sub_one_eq_mod _ 32).trans ?_
      simp only [State.rd, Fld.getW, Reg.SEC_POLICY_VER_VERSION, BitVec.ushiftRight_zero]
      omega
    rw [hv]
  · intro a ha
    rw [read a (readWord_policyVer_other s u a ha), afterRead_denied]

/-- Settles O26, register by register. -/
theorem registerAccessTypes : Obligations.RegisterAccessTypes :=
  ⟨fun u a v s => irqRegisterWrites s u a v, fun u a s => errCountersRead s u a, fun u s => policyVersionRead s u⟩

end Sys2Proof.Machine

end

section

/-! # 64-bit registers in halves: O27 -/

namespace Sys2Proof.Machine

variable (s : State) (u : UnitId) (a : Agent)

/-- TIM_INC is one RO field of 40 bits. -/
theorem wordFields_timInc : wordFields u 0x2018 = [(⟨true, true, 0x2018, 0, 40, .ro, 0, []⟩, [], ⟨0x2018, 0, 40⟩)] := by cases u <;> rfl

/-- TIM_INC is a 64-bit register. -/
theorem isWide_timInc : isWide u 0x2018 = true := by cases u <;> rfl

/-- HTR_SVC.REPORT is one GRW field of 64 bits. -/
theorem wordFields_report : wordFields .vta 0x1002010 = [(⟨false, true, 0x1002010, 0, 64, .grw, 0, [(32, 0, 8)]⟩, [0], ⟨0x1002010, 0, 64⟩)] := by
  rfl

/-- TIM_INC follows no other state. -/
theorem view_timInc : s.view u a 0x2018 = s.word u 0x2018 := by
  cases u <;> simp [State.view, State.follows, mbxCount]

/-- What TIM_INC reads, in whole or in part. -/
theorem readWord_timInc (m : Word) (h : (Reg.TIM_INC_INC).mask &&& m ≠ 0) :
    s.readWord u a 0x2018 m = (s.word u 0x2018 &&& (Reg.TIM_INC_INC.mask &&& m), 0, false) := by
  simp only [State.readWord, wordFields_timInc, List.foldl, view_timInc]
  change (if Reg.TIM_INC_INC.mask &&& m = 0 then _ else _) = _
  rw [if_neg h]
  simp [Reg.TIM_INC_INC]

/-- The entry that replaces all with its key is the one found. -/
theorem find?_replaced {α : Type} (p : α → Bool) (l : List α) (x : α) (h : p x = true) :
    ((l.filter fun e => !p e) ++ [x]).find? p = some x := by
  have hn : (l.filter fun e => !p e).find? p = none := by simp +contextual [List.find?_eq_none]
  simp [List.find?_append, hn, h]

/-- A read of the low half of a 64-bit register returns it and latches the high half for its agent (R11). -/
theorem readReg_wideLow {base : Nat} {v taken clear clear' : Word} {denied denied' : Bool} (h8 : base % 8 = 0) (hb : s.blockReady u base = true)
    (hd : dieWideReg u base false = false) (hn : base ≠ 0x2008) (hr : rspOf u base = none) (hw : isWide u base = true)
    (hl : s.readWord u a base 0xFFFFFFFF = (taken, clear, denied)) (hv : s.readWord u a base 0xFFFFFFFFFFFFFFFF = (v, clear', denied')) :
    (Prog.readReg u a base false).run s = (Prog.afterRead u a base 4 base clear taken denied).run (s.modDev u fun d => { d with
      bus := taken, hiLatch := (d.hiLatch.filter fun e => !(e.1 == a && e.2.1 == base)) ++ [(a, base, (v >>> 32).setWidth 32)] }) := by
  simp only [BitVec.ofNat_eq_ofNat] at hl hv
  have h1 : base / 8 * 8 = base := by omega
  have h2 : base % 4 = 0 := by omega
  cases hf : ((s.dev u).hiLatch.find? fun (e : Agent × Nat × Half) => e.1 == a && e.2.1 == base) <;>
    simp [Prog.readReg, h1, h2, h8, hb, hd, hn, hr, hw, hl, hv, hf]

/-- A read of the high half gets what the low half's read latched (R11). -/
theorem readReg_wideHigh {base : Nat} {v clear : Word} {denied : Bool} {e : Agent × Nat × Half} (h8 : base % 8 = 0)
    (hb : s.blockReady u (base + 4) = true) (hd : dieWideReg u (base + 4) false = false) (hr : rspOf u base = none) (hw : isWide u base = true)
    (hf : ((s.dev u).hiLatch.find? fun e => e.1 == a && e.2.1 == base) = some e)
    (hv : s.readWord u a base 0xFFFFFFFF00000000 = (v, clear, denied)) :
    (Prog.readReg u a (base + 4) false).run s = (Prog.afterRead u a (base + 4) 4 base clear (e.2.2.setWidth 64 <<< 32) denied).run
      (s.modDev u fun d => { d with
        bus := e.2.2.setWidth 64 <<< 32 >>> 32, hiLatch := d.hiLatch.filter fun e => !(e.1 == a && e.2.1 == base) }) := by
  simp only [BitVec.ofNat_eq_ofNat] at hv
  have h1 : (base + 4) / 8 * 8 = base := by omega
  have h2 : (base + 4) % 4 = 0 := by omega
  have h3 : (base + 4) % 8 = 4 := by omega
  simp [Prog.readReg, h1, h2, h3, hb, hd, hr, hw, hf, hv]

/-- A half that stands high in a word comes down again whole. -/
theorem half_shifted (x : Half) : x.setWidth 64 <<< 32 >>> 32 = x.setWidth 64 := by
  apply BitVec.eq_of_toNat_eq
  simp
  have := x.isLt
  omega

/-- TIM_INC is read in halves at one instant (R11). -/
theorem timIncHalves (hb : s.blockReady u 0x2018 = true) :
    (∃ t : State, exec (.lowHalfRead u a 0x2018) s = .next t ∧ (t.dev u).bus.toNat = s.rd u Reg.TIM_INC_INC % 2 ^ 32 ∧
      ((t.dev u).hiLatch.find? fun e => e.1 == a && e.2.1 == 0x2018)
        = some (a, 0x2018, BitVec.ofNat 32 (s.rd u Reg.TIM_INC_INC / 2 ^ 32)) ∧ t.hregs = s.hregs ∧ t.vregs = s.vregs) ∧
    (∀ e, ((s.dev u).hiLatch.find? fun e => e.1 == a && e.2.1 == 0x2018) = some e →
      (((Prog.readReg u a 0x201C false).run s).dev u).bus = e.2.2.setWidth 64) := by
  have hd (off : Nat) (h : 0x2018 ≤ off ∧ off < 0x2020) : dieWideReg u off false = false := by
    simp only [dieWideReg, dieWideOff, Bool.false_and, Bool.or_false, Bool.and_eq_false_iff, Bool.or_eq_false_iff, beq_eq_false_iff_ne, decide_eq_false_iff_not]
    omega
  constructor
  · refine ⟨_, next_up _ (inReset_of_blockReady hb), ?_⟩
    rw [readReg_wideLow s u a rfl hb (hd _ (by decide)) (by decide) (rspOf_none u (by decide)) (isWide_timInc u)
      (readWord_timInc s u a _ (by decide)) (readWord_timInc s u a _ (by decide)), afterRead_plain]
    refine ⟨?_, ?_, by simp, by simp⟩
    · simp only [State.modDev_dev]
      exact (BitVec.toNat_and ..).trans ((Nat.and_two_pow_sub_one_eq_mod _ 32).trans (by simp [State.rd, Fld.getW, Reg.TIM_INC_INC]))
    · have hw : ((s.word u 0x2018 &&& (Reg.TIM_INC_INC.mask &&& 0xFFFFFFFFFFFFFFFF)) >>> 32).setWidth 32
          = BitVec.ofNat 32 (s.rd u Reg.TIM_INC_INC / 2 ^ 32) := by
        apply BitVec.eq_of_toNat_eq
        have hm : (s.word u 0x2018 &&& (Reg.TIM_INC_INC.mask &&& 0xFFFFFFFFFFFFFFFF)).toNat = (s.word u 0x2018).toNat % 2 ^ 40 :=
          (BitVec.toNat_and ..).trans (Nat.and_two_pow_sub_one_eq_mod _ 40)
        rw [BitVec.toNat_setWidth, BitVec.toNat_ushiftRight, hm]
        simp [State.rd, Fld.getW, Reg.TIM_INC_INC, Nat.shiftRight_eq_div_pow]
      rw [hw]
      rw [State.modDev_dev]
      exact find?_replaced _ _ _ (by simp)
  · intro e he
    rw [show (0x201C : Nat) = 0x2018 + 4 from rfl, readReg_wideHigh s u a rfl
      (blockReady_high (by decide) (by decide) hb) (hd _ (by decide)) (rspOf_none u (by decide))
      (isWide_timInc u) he (readWord_timInc s u a _ (by decide)), afterRead_plain]
    simp [half_shifted]

/-- The low half of a 64-bit register is held for its agent (R11). -/
theorem writeReg_wideLow {off : Nat} (v : Half) (h8 : off % 8 = 0) (hw : isWide u off = true) (hb : s.blockReady u off = true) :
    (Prog.writeReg u a off false (v.setWidth 64)).run s = s.modDev u fun d =>
      { d with loHeld := (d.loHeld.filter fun e => !(e.1 == a)) ++ [(a, off, v)] } := by
  have h1 : off / 8 * 8 = off := by omega
  have h2 : off % 4 = 0 := by omega
  simp [Prog.writeReg, h1, h2, h8, hb, hw, Prog.dropLow, State.modDev_modDev, Function.comp_def]

/-- The high half of a 64-bit register is stored with the low half that its agent holds (R11). -/
theorem writeReg_wideHigh_held {base : Nat} {lo : Half} (v : Word) (h8 : base % 8 = 0) (hw : isWide u base = true)
    (hb : s.blockReady u (base + 4) = true) (hl : s.lowHeld u a base = some lo) :
    (Prog.writeReg u a (base + 4) false v).run s
      = (Prog.storeWord u a (base + 4) 4 0xFFFFFFFFFFFFFFFF ((v <<< 32) ||| lo.setWidth 64)).run ((Prog.dropLow u a).run s) := by
  have h1 : (base + 4) / 8 * 8 = base := by omega
  have h2 : (base + 4) % 4 = 0 := by omega
  have h3 : (base + 4) % 8 = 4 := by omega
  simp [Prog.writeReg, h1, h2, h3, hb, hw, hl]

/-- The high half of a 64-bit register is stored alone where its agent holds no low half (R11). -/
theorem writeReg_wideHigh_alone {base : Nat} (v : Word) (h8 : base % 8 = 0) (hw : isWide u base = true)
    (hb : s.blockReady u (base + 4) = true) (hl : s.lowHeld u a base = none) :
    (Prog.writeReg u a (base + 4) false v).run s
      = (Prog.storeWord u a (base + 4) 4 0xFFFFFFFF00000000 (v <<< 32)).run ((Prog.dropLow u a).run s) := by
  have h1 : (base + 4) / 8 * 8 = base := by omega
  have h2 : (base + 4) % 4 = 0 := by omega
  have h3 : (base + 4) % 8 = 4 := by omega
  simp [Prog.writeReg, h1, h2, h3, hb, hw, hl]

/-- A read of TIM_NOW (R162). -/
theorem timNowReads (hb : s.blockReady u 0x2008 = true) :
      (exec (.timNowRead u a true) s = .next (s.modDev u fun d => { d with
        bus := BitVec.ofNat 64 (s.rd u Reg.TIM_NOW_NS), fracs := (d.fracs.filter (·.1 != a)) ++ [(a, d.pubFrac)] })) ∧
      ∃ t : State, exec (.timNowRead u a false) s = .next t ∧ (t.dev u).bus.toNat = s.rd u Reg.TIM_NOW_NS % 2 ^ 32 ∧
        (t.dev u).fracs = ((s.dev u).fracs.filter (·.1 != a)) ++ [(a, (s.dev u).pubFrac)] ∧ t.hregs = s.hregs ∧ t.vregs = s.vregs := by
  have hd (wide : Bool) : dieWideReg u 0x2008 wide = false := by cases u <;> cases wide <;> rfl
  constructor
  · refine (next_up _ (inReset_of_blockReady hb)).trans ?_
    simp [Prog.readReg, hb, hd, Prog.readNow]
  · refine ⟨_, next_up _ (inReset_of_blockReady hb), ?_⟩
    have hv : (BitVec.ofNat 64 (s.rd u Reg.TIM_NOW_NS) &&& 0xFFFFFFFF).toNat = s.rd u Reg.TIM_NOW_NS % 2 ^ 32 := by
      refine (BitVec.toNat_and ..).trans ((Nat.and_two_pow_sub_one_eq_mod _ 32).trans ?_)
      rw [BitVec.toNat_ofNat]
      omega
    simp only [BitVec.ofNat_eq_ofNat] at hv
    simp [Prog.readReg, hb, hd, Prog.readNow, hv]

/-- An agent holds no low half after one is discarded. -/
theorem lowHeld_dropLow (base : Nat) : ((Prog.dropLow u a).run s).lowHeld u a base = none := by
  simp +contextual [Prog.dropLow, State.lowHeld, List.find?_eq_none]

/-- A register write leaves the low halves that are held. -/
@[simp] theorem State.lowHeld_wr (w : UnitId) (f : Fld) (v : Nat) (base : Nat) : (s.wr u f v).lowHeld w a base = s.lowHeld w a base := by
  simp [State.lowHeld]

/-- Gorse writes HTR_SVC.REPORT (R12). -/
theorem writeWord_report (m d : Word) (h : (Reg.HTR_SVC_REPORT 0).mask &&& m ≠ 0) :
    s.writeWord .vta .gorse 0x1002010 m d = ((Reg.HTR_SVC_REPORT 0).store m (s.word .vta 0x1002010) d, []) := by
  simp only [State.writeWord, wordFields_report, List.foldl]
  change (if (Reg.HTR_SVC_REPORT 0).mask &&& m = 0 then _ else _) = _
  rw [if_neg h]
  simp [State.refusal, fieldFn, Fld.store, Reg.HTR_SVC_REPORT]

/-- HTR_SVC.REPORT is stored, and nothing follows its write. -/
theorem storeWord_report (m d : Word) (h : (Reg.HTR_SVC_REPORT 0).mask &&& m ≠ 0) : (Prog.storeWord .vta .gorse 0x1002014 4 m d).run s
    = s.wr .vta ⟨0x1002010, 0, 64⟩ ((Reg.HTR_SVC_REPORT 0).store m (s.word .vta 0x1002010) d).toNat := by
  have hs : regStreams .vta 0x1002010 = [] := rfl
  rw [Prog.storeWord_ok s .vta .gorse 0x1002014 rfl (writeWord_report s m d h)]
  simp [Prog.afterWrite, Prog.streamWrites, hs]

/-- A word made of two halves. -/
theorem toNat_halves (hi : Half) (lo : Word) (h : lo.toNat < 2 ^ 32) : (hi.setWidth 64 <<< 32 ||| lo).toNat = 2 ^ 32 * hi.toNat + lo.toNat := by
  have := hi.isLt
  rw [BitVec.toNat_or, BitVec.toNat_shiftLeft, BitVec.toNat_setWidth, Nat.mod_eq_of_lt (a := hi.toNat) (by omega),
    Nat.shiftLeft_eq, Nat.mod_eq_of_lt (by omega), ← Nat.shiftLeft_eq, ← Nat.shiftLeft_add_eq_or_of_lt h, Nat.shiftLeft_eq]
  omega

/-- HTR_SVC.REPORT is written in halves at one instant (R11). -/
theorem reportHalves (v : Half) (hb : s.blockReady .vta 0x1002010 = true) :
      ∃ t : State, exec (.highHalfWrite .vta .gorse 0x1002014 v) s = .next ((Prog.settle .vta).run t) ∧
        t.rd .vta (Reg.HTR_SVC_REPORT 0) = 2 ^ 32 * v.toNat + (match s.lowHeld .vta .gorse 0x1002010 with
          | some lo => lo.toNat
          | none => s.rd .vta (Reg.HTR_SVC_REPORT 0) % 2 ^ 32) ∧
        t.lowHeld .vta .gorse 0x1002010 = none ∧ ∀ w off, ¬ (w = .vta ∧ off = 0x1002010) → t.word w off = s.word w off := by
  have hb4 : s.blockReady .vta (0x1002010 + 4) = true := blockReady_high (by decide) (by decide) hb
  have hw : isWide .vta 0x1002010 = true := rfl
  have full (w : Word) : (Reg.HTR_SVC_REPORT 0).getW w = w.toNat := by
    simp [Nat.mod_eq_of_lt w.isLt, Fld.getW, Reg.HTR_SVC_REPORT]
  refine ⟨_, next_thenSettle _ (inReset_of_blockReady hb), ?_⟩
  rw [show (0x1002014 : Nat) = 0x1002010 + 4 from rfl]
  cases hl : s.lowHeld .vta .gorse 0x1002010 with
  | some lo =>
    rw [writeReg_wideHigh_held s .vta .gorse _ rfl hw hb4 hl, storeWord_report _ _ _ (by decide)]
    refine ⟨?_, ?_, fun w off h => ?_⟩
    · refine (State.rd_wr_whole (Reg.HTR_SVC_REPORT 0) _ _ _).trans ((Fld.getW_store_same _ _ _ _ (by decide)).trans ?_)
      have := lo.isLt
      rw [full, toNat_halves _ _ (by simp; omega)]
      simp; omega
    · rw [State.lowHeld_wr, lowHeld_dropLow]
    · rw [State.word_wr_other _ _ _ _ (Decidable.not_and_iff_not_or_not.1 h), State.word_dropLow]
  | none =>
    rw [writeReg_wideHigh_alone s .vta .gorse _ rfl hw hb4 hl, storeWord_report _ _ _ (by decide)]
    refine ⟨?_, ?_, fun w off h => ?_⟩
    · refine (State.rd_wr_whole (Reg.HTR_SVC_REPORT 0) _ _ _).trans ?_
      rw [full, State.word_dropLow, Fld.store, BitVec.or_comm, show (Reg.HTR_SVC_REPORT 0).mask &&& 0xFFFFFFFF00000000 = 0xFFFFFFFF00000000 from by decide]
      have hlow : (s.word .vta 0x1002010 &&& ~~~(0xFFFFFFFF00000000 : Word)).toNat = (s.word .vta 0x1002010).toNat % 2 ^ 32 :=
        (BitVec.toNat_and ..).trans (Nat.and_two_pow_sub_one_eq_mod _ 32)
      have hhigh : (v.setWidth 64 <<< 32 &&& 0xFFFFFFFF00000000 : Word) = v.setWidth 64 <<< 32 := by
        have hv : v.setWidth 64 &&& (0xFFFFFFFF : Word) = v.setWidth 64 := by
          apply BitVec.eq_of_toNat_eq
          refine (BitVec.toNat_and ..).trans ((Nat.and_two_pow_sub_one_eq_mod _ 32).trans ?_)
          have := v.isLt
          rw [BitVec.toNat_setWidth]
          omega
        rw [show (0xFFFFFFFF00000000 : Word) = (0xFFFFFFFF : Word) <<< 32 from rfl, ← BitVec.shiftLeft_and_distrib, hv]
      rw [hhigh, toNat_halves _ _ (by omega), hlow]
      rw [State.rd, full]
      simp [Reg.HTR_SVC_REPORT]
    · rw [State.lowHeld_wr, lowHeld_dropLow]
    · rw [State.word_wr_other _ _ _ _ (Decidable.not_and_iff_not_or_not.1 h), State.word_dropLow]

/-- Settles O27: the halves of TIM_INC, of any 64-bit register that is written, of HTR_SVC.REPORT and of TIM_NOW. -/
theorem wideRegistersInHalves : Obligations.WideRegistersInHalves :=
  ⟨⟨fun u a s => timIncHalves s u a, fun u a _ v s h8 hw hb => (next_thenSettle _ (inReset_of_blockReady hb)).trans
    (by rw [writeReg_wideLow s u a v h8 hw hb]), fun v s => reportHalves s v⟩, fun u a s => timNowReads s u a⟩

end Sys2Proof.Machine

end

section

/-! # Register writes that act: O28 -/

namespace Sys2Proof.Machine

variable (s : State) (u : UnitId) (a : Agent)

/-- An access that discards a held low half leaves the blocks ready that were. -/
@[simp] theorem blockReady_dropLow (off : Nat) : ((Prog.dropLow u a).run s).blockReady u off = s.blockReady u off := by
  cases u <;> simp [Prog.dropLow, State.blockReady, State.on, State.rd]

/-- A write by an agent that may make it acts. -/
theorem guarded_ok {s : State} {u : UnitId} {off : Nat} (cause : Nat) (p : Prog) (h : s.blockReady u off = true) :
    (Prog.guarded u a off true cause p).run s = p.run ((Prog.dropLow u a).run s) := by
  simp [Prog.guarded, Prog.ready, h]

/-- A write by an agent that may not make it leaves a DENIED record (R13). -/
theorem guarded_denied {s : State} {u : UnitId} {off : Nat} (cause : Nat) (p : Prog) (h : s.blockReady u off = true) :
    (Prog.guarded u a off false cause p).run s
      = (Prog.event u 0x0002 (accessPayload off a 4 true cause)).run ((Prog.dropLow u a).run s) := by
  simp [Prog.guarded, Prog.ready, h]

/-- An instruction that is guarded runs its guarded program. -/
theorem next_guarded {s t : State} {u : UnitId} {off cause : Nat} {ok b : Bool} {p : Prog} (hok : ok = b)
    (h : (Prog.guarded u a off b cause p).run s = t) : Prog.next (.guarded u a off ok cause p) s = .next t := by
  subst hok h
  rfl

/-- An instruction whose operands name what exists. -/
theorem nextIf_of {c : Prop} [Decidable c] (h : c) (p : Prog) (s : State) : Prog.nextIf (decide c) p s = Prog.next p s :=
  congrArg (Prog.nextIf · p s) (decide_eq_true h)

/-- Writes by agents that may not make them (R13, R55, R147, R363). -/
theorem deniedWrites :
      (s.blockReady .htu 0xA2000 = true → agentActs .htu a = .bracken → ∀ imm, exec (.mapCommit a imm) s = .next
        ((Prog.event .htu 0x0002 (accessPayload 0xA2000 a 4 true 4)).run ((Prog.dropLow .htu a).run s))) ∧
      (∀ c < 8, s.blockReady .htu (0x50800 + 32 * c) = true → agentActs .htu a = .bracken → exec (.trcDumpHalt a c) s = .next
        ((Prog.event .htu 0x0002 (accessPayload (0x50800 + 32 * c) a 4 true 4)).run ((Prog.dropLow .htu a).run s))) ∧
      (s.blockReady u 0x2000 = true → a ≠ .gorse →
        exec (.switch u a) s = .next ((Prog.event u 0x0002 (accessPayload 0x2000 a 4 true 1)).run ((Prog.dropLow u a).run s)) ∧
        ∀ v, exec (.srcPref u a v) s = .next ((Prog.event u 0x0002 (accessPayload 0x2000 a 4 true 1)).run ((Prog.dropLow u a).run s))) := by
  have hbr (h : agentActs .htu a = .bracken) : (agentActs .htu a != .bracken) = false := by simp [h]
  have hgo (h : a ≠ .gorse) : (a == .gorse) = false := by simpa using h
  refine ⟨fun hb h imm => next_guarded a (hbr h) (guarded_denied a _ _ hb), fun c hc hb h => ?_,
    fun hb h => ⟨next_guarded a (hgo h) (guarded_denied a _ _ hb), fun v => next_guarded a (hgo h) (guarded_denied a _ _ hb)⟩⟩
  exact (nextIf_of hc _ s).trans (next_guarded a (hbr h) (guarded_denied a _ _ hb))

/-- A HALT of a dump channel by an agent that may end it (R363). -/
theorem dumpHaltActs (c : Nat) : let s' := (Prog.dropLow .htu a).run s
      c < 8 → s'.blockReady .htu (0x50800 + 32 * c) = true → agentActs .htu a ≠ .bracken →
      (s'.rd .htu (Reg.TRC_DUMP_STATE c) ≠ chanHalted → exec (.trcDumpHalt a c) s = .next s') ∧
      (s'.rd .htu (Reg.TRC_DUMP_STATE c) = chanHalted → exec (.trcDumpHalt a c) s = .next (Prog.startDumps.run
        (((s'.wr .htu (Reg.TRC_DUMP_STATE c) chanIdle).wr .htu (Reg.TRC_DUMP_HALT c) 0).wr .htu (Reg.TRC_DUMP_CAUSE c) 0))) := by
  intro s' hc hb ha
  rw [blockReady_dropLow] at hb
  have acts : exec (.trcDumpHalt a c) s = .next ((Prog.dumpHalt c).run s') :=
    (nextIf_of hc _ s).trans (next_guarded a (bne_iff_ne.2 ha) (guarded_ok a _ _ hb))
  constructor <;> intro h <;> rw [acts] <;> simp [Prog.dumpHalt, beq_false_of_ne, h]

/-- A planned switch to a port that is ready and not the time port starts; else nothing changes (R149, R150). -/
theorem planSwitch_run (k : Nat) : (Prog.planSwitch u k).run s = if s.switchReady u k = true ∧ s.timePort u ≠ some k then
      match u with
      | .htu => s.modDev .htu fun d => { d with sw := some { target := k, since := d.ticks } }
      | .vta => ((s.wr .vta (ptpPort (k - 64)) 5).wr .vta (ptpPort (65 - k)) 3).modDev .vta fun d =>
          { d with sw := some { target := k, moved := true } }
    else s := by
  cases u <;> simp [Prog.planSwitch, Prog.run_cond]

/-- A SWITCH by Gorse (R150). -/
theorem switchActs (hb : ((Prog.dropLow u .gorse).run s).blockReady u 0x2000 = true) : exec (.switch u .gorse) s = .next
    ((Prog.planSwitch u (((Prog.dropLow u .gorse).run s).otherPort u)).run ((Prog.dropLow u .gorse).run s)) := by
  rw [blockReady_dropLow] at hb
  exact next_guarded .gorse rfl (guarded_ok .gorse _ _ hb)

/-- A write of SRC_PREF by Gorse (R147). -/
theorem srcPrefActs (v : BitVec 2) : let s' := (Prog.dropLow u .gorse).run s
      s'.blockReady u 0x2000 = true →
      (s'.rd u Reg.TIM_CTL_SRC_PREF = v.toNat → exec (.srcPref u .gorse v) s = .next ((Prog.joinReady u).run s')) ∧
      (s'.rd u Reg.TIM_CTL_SRC_PREF ≠ v.toNat → exec (.srcPref u .gorse v) s = .next
        ((Prog.joinReady u).run ((Prog.setSrcPref u v.toNat).run s'))) := by
  intro s' hb
  rw [blockReady_dropLow] at hb
  have acts : exec (.srcPref u .gorse v) s = .next ((Prog.both (.rd u Reg.TIM_CTL_SRC_PREF fun was =>
      .cond (was != v.toNat) (.setSrcPref u v.toNat)) (.joinReady u)).run s') :=
    next_guarded .gorse rfl (guarded_ok .gorse _ _ hb)
  constructor <;> intro h <;> rw [acts] <;> simp [Prog.rd, h, Prog.run_cond]

/-- A read of a whole 64-bit word. -/
theorem readReg_whole {base : Nat} {v clear : Word} {denied : Bool} (h8 : base % 8 = 0) (hb : s.blockReady u base = true)
    (hd : dieWideReg u base true = false) (hn : base ≠ 0x2008) (hr : rspOf u base = none)
    (hv : s.readWord u a base 0xFFFFFFFFFFFFFFFF = (v, clear, denied)) :
    (Prog.readReg u a base true).run s
      = (Prog.afterRead u a base 8 base clear v denied).run (s.modDev u fun d => { d with bus := v }) := by
  have h1 : base / 8 * 8 = base := by omega
  simp only [BitVec.ofNat_eq_ofNat] at hv
  cases hl : ((s.dev u).hiLatch.find? fun (e : Agent × Nat × Half) => e.1 == a && e.2.1 == base) <;>
    simp [Prog.readReg, h1, h8, hb, hd, hn, hr, hv, hl]

/-- SNT_REPLAY_POP is one RC field. -/
theorem wordFields_replayPop : wordFields .htu 0x30088 = [(⟨true, false, 0x30088, 0, 32, .rc, 0, []⟩, [], ⟨0x30088, 0, 32⟩)] := rfl

/-- SNT_REPLAY_POP shows the collective of the head entry (R254). -/
theorem getW_view_replayPop : Reg.SNT_REPLAY_POP_COLL_ID.getW (s.view .htu a 0x30088)
    = ((s.hx.replayQ.head?.map ReplayEnt.collId).getD 0).toNat := by
  have hv : s.view .htu a 0x30088 = Reg.SNT_REPLAY_POP_COLL_ID.setW (s.word .htu 0x30088)
      (min ((s.hx.replayQ.head?.map ReplayEnt.collId).getD 0).toNat (2 ^ 32 - 1)) := by
    simp [State.view, State.follows, Reg.SNT_REPLAY_POP_COLL_ID, Reg.SNT_STATUS_CONTEXTS, Reg.SNT_REPLAY_HEAD_KIND, Reg.SNT_REPLAY_HEAD_EXP,
      Reg.SNT_REPLAY_HEAD_RING_POS, Reg.SNT_REPLAY_HEAD_STEP, Reg.SNT_DIGEST_STAT_OPEN_NOW]
  have := ((s.hx.replayQ.head?.map ReplayEnt.collId).getD 0).isLt
  rw [hv, Fld.getW_setW_same _ _ (by decide)]
  simp only [Reg.SNT_REPLAY_POP_COLL_ID]
  omega

/-- What a read of SNT_REPLAY_POP returns and clears. -/
theorem readWord_replayPop : s.readWord .htu a 0x30088 0xFFFFFFFFFFFFFFFF = (s.view .htu a 0x30088 &&& 0xFFFFFFFF, 0xFFFFFFFF, false) := by
  simp only [State.readWord, wordFields_replayPop, List.foldl]
  simp [Fld.mask]

/-- A read of SNT_REPLAY_POP (R254). -/
theorem replayPopActs (hb : s.blockReady .htu 0x30088 = true) : ∃ t : State, exec (.sntReplayPop a) s = .next t ∧
      t.hx = { s.hx with replayQ := s.hx.replayQ.drop 1 } ∧
      t.h.bus.toNat = ((s.hx.replayQ.head?.map ReplayEnt.collId).getD 0).toNat := by
  have hd : dieWideReg .htu 0x30088 true = false := rfl
  have hm : (s.view .htu a 0x30088 &&& 0xFFFFFFFF).toNat = Reg.SNT_REPLAY_POP_COLL_ID.getW (s.view .htu a 0x30088) :=
    (BitVec.toNat_and ..).trans ((Nat.and_two_pow_sub_one_eq_mod _ 32).trans (by simp [Fld.getW, Reg.SNT_REPLAY_POP_COLL_ID]))
  refine ⟨_, next_up _ (inReset_of_blockReady hb), ?_⟩
  rw [readReg_whole s .htu a rfl hb hd (by decide) (rspOf_none .htu (by decide)) (readWord_replayPop s a), Prog.afterRead]
  rw [← getW_view_replayPop s a, ← hm]
  simp [wordFields_replayPop, Fld.mask, Prog.replayPop]

/-- Settles O28: the writes that are denied, then each write that acts. -/
theorem registerActions : Obligations.RegisterActions := by
  refine ⟨fun u a s => deniedWrites s u a, fun a s => replayPopActs s a, fun a c s => dumpHaltActs s a c, fun s hb => ?_, fun s hb => ?_,
    fun u v s => srcPrefActs s u v⟩
  · rw [switchActs s .htu hb, planSwitch_run]
  · rw [switchActs s .vta hb, planSwitch_run]

end Sys2Proof.Machine

end

section

/-! # Resets: O30 -/

namespace Sys2Proof.Machine

/-- Entries that a filter by number keeps are found as before. -/
theorem Sparse.find_filter_keep {α : Type} (l : List (Nat × α)) (p : Nat → Bool) {k : Nat} (h : p k = true) :
    Sparse.find (l.filter fun e => p e.1) k = Sparse.find l k := by
  induction l with
  | nil => rfl
  | cons e l ih =>
    by_cases hk : e.1 = k
    · simp [Sparse.find, hk, h]
    · cases hp : p e.1 <;> simp [Sparse.find, hk, hp, ih]

/-- Entries that a filter by number drops are not found. -/
theorem Sparse.find_filter_drop {α : Type} (l : List (Nat × α)) (p : Nat → Bool) {k : Nat} (h : p k = false) :
    Sparse.find (l.filter fun e => p e.1) k = none := by
  induction l with
  | nil => rfl
  | cons e l ih =>
    cases hp : p e.1
    · simpa [List.filter_cons, hp] using ih
    · have hk : e.1 ≠ k := by rintro rfl; simp [hp] at h
      simpa [List.filter_cons, Sparse.find, hk, hp] using ih

variable (s : State) (u : UnitId)

/-- A reset of the registers keeps the words listed (R15). -/
theorem word_clearRegs_keep {keep : List Nat} {off : Nat} (h : off ∈ keep) :
    ((Prog.clearRegs u keep).run s).word u off = s.word u off := by
  cases u <;>
    exact congrArg (Option.getD · _) (Sparse.find_filter_keep _ (keep.contains ·) (List.contains_iff_mem.2 h))

/-- A reset of the registers gives every word that is not listed its reset value (R15). -/
theorem word_clearRegs {keep : List Nat} {off : Nat} (h : off ∉ keep) :
    ((Prog.clearRegs u keep).run s).word u off = Reg.resetWord u off := by
  cases u <;>
    exact congrArg (Option.getD · _) (Sparse.find_filter_drop _ (keep.contains ·) (by simpa using h))

/-- What is sent one by one stands in the outputs in order. -/
theorem run_each_send {α : Type} (l : List α) (f : α → Out) :
    (Prog.each l fun x => .send u (f x)).run s = s.modDev u fun d => { d with out := d.out ++ l.map f } := by
  induction l generalizing s with
  | nil => cases u <;> simp [State.modDev]
  | cons x l ih => simp [ih, State.modDev_modDev, Function.comp_def]

/-- A field holds no more than its width. -/
theorem State.rd_lt (f : Fld) : s.rd u f < 2 ^ f.width := Nat.mod_lt _ (Nat.two_pow_pos _)

/-- HOST_RST, part by part (R15, R43, R44, R64). -/
theorem hostRst_run (powerUp : Bool) : (Prog.hostRst powerUp).run s = { s with
    hregs := ((Prog.clearRegs .htu (if powerUp then [] else [Reg.PWR_BO_RET_RET_VALID.off, Reg.PWR_BO_RET_T_ENTRY.off])).run s).hregs
    h := { Dev.afterReset powerUp s.h with out := s.h.out ++ (s.hx.rels.map fun r => Out.barrierRel r.rest)
      ++ ((List.range 2).filter (s.irqLine .htu)).map fun m => Out.irq m false }
    hx := { idle := s.hx.idle, droop := s.hx.droop, selftests := s.hx.selftests } } := by
  simp only [Prog.hostRst, Prog.run_get, Prog.run_seq_cons, Prog.run_seq_nil, run_each_send, State.modDev_modDev]
  rfl

/-- A fundamental reset, part by part (R15, R43, R426). -/
theorem vtaReset_run (powerOn : Bool) : (Prog.vtaReset powerOn).run s = { s with
    vregs := ((Prog.cond (!powerOn) (.wr .vta Reg.MEM_BCH_CFG_DDR_T (s.rd .vta Reg.MEM_BCH_CFG_DDR_T))).run
      ((Prog.clearRegs .vta []).run s)).vregs
    ddr := if powerOn then [] else s.ddr
    entity := []
    v := { Dev.afterReset powerOn s.v with out := s.v.out ++ (if s.irqLine .vta 8 then [Out.irq 8 false] else []) }
    vx := { arch := if powerOn then [] else s.vx.arch, archPos := if powerOn then [] else s.vx.archPos, refresh2 := s.vx.refresh2,
            selfRef := s.vx.selfRef && !powerOn, refHeld := s.vx.refHeld, thermTrip := s.vx.thermTrip && !powerOn } } := by
  simp only [Prog.vtaReset, Prog.run_get, Prog.run_seq_cons, Prog.run_seq_nil]
  cases s.irqLine .vta 8 <;> cases powerOn <;>
    simp only [Prog.run_cond_true, Prog.run_cond_false, Bool.false_eq_true, if_false, List.append_nil] <;> rfl

/-- Settles O30: a reset's program gives its state part by part, and the registers follow from `clearRegs`. -/
theorem resetsClearOneUnit : Obligations.ResetsClearOneUnit := by
  intro powerUp s
  refine ⟨⟨_, next_of (hostRst_run s powerUp), rfl, rfl, rfl, rfl, rfl, rfl, rfl, rfl, rfl, rfl, fun off h => ?_⟩, fun off h => ?_,
    fun h => next_of (Prog.run_up s .htu _ h), fun h => next_of (Prog.run_up_reset s .htu _ h),
    ⟨_, next_of (vtaReset_run s powerUp), rfl, rfl, rfl, rfl, rfl, rfl, rfl, rfl, rfl, rfl, fun off h => ?_, fun h => ?_⟩⟩
  · refine word_clearRegs s .htu ?_
    cases powerUp
    · simpa [Reg.PWR_BO_RET_RET_VALID, Reg.PWR_BO_RET_T_ENTRY] using h rfl
    · simp
  · refine ⟨_, next_of (hostRst_run s false), word_clearRegs_keep s .htu ?_⟩
    simpa [Reg.PWR_BO_RET_RET_VALID, Reg.PWR_BO_RET_T_ENTRY] using h
  · cases powerUp
    · exact (State.word_wr_other _ .vta Reg.MEM_BCH_CFG_DDR_T _ (Or.inr h)).trans (word_clearRegs s .vta (by simp))
    · exact word_clearRegs s .vta (by simp)
  · subst h
    exact (State.rd_wr_same _ .vta Reg.MEM_BCH_CFG_DDR_T _ (by decide)).trans (Nat.mod_eq_of_lt (s.rd_lt .vta _))

end Sys2Proof.Machine

end

section

/-! # Jobs, roles and replies: O55 -/

namespace Sys2Proof.Machine

variable (s : State)

/-- A start instant that no entry waits for changes nothing (R154). -/
theorem jobStart_none (u : UnitId) (hd : ((s.jobEntries u).filter fun e => s.due u e.t) = []) : (Prog.jobStart u).run s = s := by
  simp [Prog.jobStart, hd]

/-- What the start instant of the armed job does before its command is answered (R313, R314). -/
def State.jobStarted (s : State) (e : Sched) : State :=
  (Prog.both (.wr .htu Reg.HTU_JOB_STATE jobRunning) (.release 0)).run ((Prog.both (.unschedule .htu e) (.acted .htu e.t)).run s)

/-- The start instant of the armed job (R313, R314). -/
theorem jobStart_armed (e : Sched) (hd : ((s.jobEntries .htu).filter fun e => s.due .htu e.t) = [e]) (ht : s.timev .htu = true)
    (ha : s.rd .htu Reg.HTU_JOB_STATE = jobArmed) : (Prog.jobStart .htu).run s
      = (Prog.answer .htu e.cmd { status := stOk, result := if e.kind = .job true then 1 else 0 }).run (s.jobStarted e) := by
  simp [Prog.jobStart, Prog.run_cond, hd, ht, ha, jobState, State.jobStarted]

/-- A start instant without time (R143, R314). -/
theorem jobStart_noTime (e : Sched) (hd : ((s.jobEntries .htu).filter fun e => s.due .htu e.t) = [e]) (ht : s.timev .htu = false)
    (ha : s.rd .htu Reg.HTU_JOB_STATE = jobArmed) : (Prog.jobStart .htu).run s
      = (((Prog.answer .htu e.cmd { status := stDeadline }).run ((Prog.unschedule .htu e).run s)).wr .htu Reg.HTU_JOB_STATE jobIdle).wr .htu
          Reg.HTU_JOB_JOB_ID 0 := by
  simp [Prog.jobStart, Prog.jobMissed, Prog.run_cond, Prog.unschedule, hd, ht, ha, jobState, jobId]

/-- A register reads as before where only a unit's common part has changed. -/
@[simp] theorem State.rd_modDev (u w : UnitId) (f : Fld) (d : Dev → Dev) : (s.modDev u d).rd w f = s.rd w f := by
  simp [State.rd]

/-- A change of the HTU's own part leaves the registers. -/
@[simp] theorem State.word_hx (x : HtuX) (w : UnitId) (off : Nat) : ({ s with hx := x } : State).word w off = s.word w off := by cases w <;> rfl

/-- A change of the VTA's own part leaves the registers. -/
@[simp] theorem State.word_vx (x : VtaX) (w : UnitId) (off : Nat) : ({ s with vx := x } : State).word w off = s.word w off := by cases w <;> rfl

/-- A change of the HTU's own part leaves every field. -/
@[simp] theorem State.rd_hx (x : HtuX) (w : UnitId) (f : Fld) : ({ s with hx := x } : State).rd w f = s.rd w f := by simp [State.rd]
/-- A change of the VTA's own part leaves every field. -/
@[simp] theorem State.rd_vx (x : VtaX) (w : UnitId) (f : Fld) : ({ s with vx := x } : State).rd w f = s.rd w f := by simp [State.rd]

/-- A release joins the queue of releases, and the registers stay (R342). -/
theorem release_run (step : Nat) : (Prog.release step).run s = { s with hx := { s.hx with rels :=
    if (s.live && !s.hx.relBlocked && !s.on .htu Reg.SNT_STATUS_DRAINED) then s.hx.rels ++ [{ step }] else s.hx.rels } } := by
  rw [Prog.release, Prog.run_get, Prog.run_cond]
  split <;> rfl

/-- The job runs, its instant is the high water mark, and its first release is queued where releases are (R143, R313). -/
theorem jobStarted_state (e : Sched) : (s.jobStarted e).rd .htu Reg.HTU_JOB_STATE = jobRunning ∧
    (s.jobStarted e).rd .htu Reg.TIM_HIGH_WATER_NS = max (s.rd .htu Reg.TIM_HIGH_WATER_NS) e.t % 2 ^ 64 ∧
    (s.jobStarted e).hx.rels
      = (if s.live && !s.hx.relBlocked && !s.on .htu Reg.SNT_STATUS_DRAINED then s.hx.rels ++ [{ step := 0 }] else s.hx.rels) := by
  have hw : (Prog.both (.unschedule .htu e) (.acted .htu e.t)).run s
      = ((Prog.unschedule .htu e).run s).wr .htu Reg.TIM_HIGH_WATER_NS (max (s.rd .htu Reg.TIM_HIGH_WATER_NS) e.t) := by
    simp [Prog.acted, Prog.unschedule]
  rw [State.jobStarted, hw, Prog.run_both, Prog.run_wr, release_run, Prog.unschedule, Prog.run_dev]
  refine ⟨?_, ?_, ?_⟩
  · rw [State.rd_hx, State.rd_wr_same _ _ _ _ (by decide)]
    rfl
  · rw [State.rd_hx, State.rd_wr_other _ _ _ _ _ (Or.inr (Or.inl (by decide))), State.rd_wr_same _ _ _ _ (by decide)]
    rfl
  · simp [State.live, State.on, State.rd_wr_other, Reg.SNT_STATUS_DRAINED, Reg.HTU_STATUS_BOUNDARY_LIVE, Reg.TIM_HIGH_WATER_NS, Reg.HTU_JOB_STATE]

/-- A due start of the HTU (R313, R314). -/
theorem jobStarts : (∀ u, (s.dev u).inReset = false → ((s.jobEntries u).filter fun e => s.due u e.t) = [] →
      exec (.jobStart u) s = .next ((Prog.settle u).run s)) ∧
    (∀ e, s.h.inReset = false → ((s.jobEntries .htu).filter fun e => s.due .htu e.t) = [e] → s.timev .htu = true →
      s.rd .htu Reg.HTU_JOB_STATE = jobArmed → ∃ b : State, exec (.jobStart .htu) s = .next ((Prog.settle .htu).run
        ((Prog.answer .htu e.cmd { status := stOk, result := if e.kind = .job true then 1 else 0 }).run b)) ∧
        b.rd .htu Reg.HTU_JOB_STATE = jobRunning ∧ b.rd .htu Reg.TIM_HIGH_WATER_NS = max (s.rd .htu Reg.TIM_HIGH_WATER_NS) e.t % 2 ^ 64 ∧
        b.hx.rels = (if s.live && !s.hx.relBlocked && !s.on .htu Reg.SNT_STATUS_DRAINED then s.hx.rels ++ [{ step := 0 }] else s.hx.rels)) ∧
    (∀ e, s.h.inReset = false → ((s.jobEntries .htu).filter fun e => s.due .htu e.t) = [e] → s.timev .htu = false →
      s.rd .htu Reg.HTU_JOB_STATE = jobArmed → exec (.jobStart .htu) s = .next ((Prog.settle .htu).run
        ((((Prog.answer .htu e.cmd { status := stDeadline }).run ((Prog.unschedule .htu e).run s)).wr .htu Reg.HTU_JOB_STATE jobIdle).wr .htu
          Reg.HTU_JOB_JOB_ID 0))) := by
  refine ⟨fun u hr hd => (next_thenSettle _ hr).trans (by rw [jobStart_none s u hd]), fun e hr hd ht ha => ⟨s.jobStarted e, ?_, jobStarted_state s e⟩,
    fun e hr hd ht ha => (next_thenSettle (u := .htu) _ hr).trans (by rw [jobStart_noTime s e hd ht ha])⟩
  exact (next_thenSettle (u := .htu) _ hr).trans (by rw [jobStart_armed s e hd ht ha])

/-- A reply that ends no forwarded command (R378). -/
theorem vc1Reply_none (u : UnitId) (port : Nat) (r : ReplyMsg)
    (h : ((s.conn u port).fwds.find? fun f => f.tag == r.tag && r.status.toNat != stAccepted) = none) : (Prog.vc1Reply u port r).run s = s := by
  rw [Prog.vc1Reply, Prog.run_get, h, Prog.run_opt_none]

/-- A final reply completes its forwarded command (R378). -/
theorem vc1Reply_some (u : UnitId) (port : Nat) (r : ReplyMsg) (f : Fwd)
    (h : ((s.conn u port).fwds.find? fun f => f.tag == r.tag && r.status.toNat != stAccepted) = some f) : (Prog.vc1Reply u port r).run s
      = (Prog.fwdDone u f { status := r.status.toNat, detail := r.detail.toNat, result := r.result.toNat, data := r.data }).run
          ((Prog.modConn u port fun k => { k with fwds := k.fwds.filter (·.tag != r.tag) }).run s) := by
  rw [Prog.vc1Reply, Prog.run_get, h, Prog.run_opt_some, Prog.run_both]

/-- A VC1 reply (R378). -/
theorem vc1Replies (u : UnitId) (port : Nat) (r : ReplyMsg) (hp : port < (match u with | .htu => 1 | .vta => 64)) (hr : (s.dev u).inReset = false) :
    (((s.conn u port).fwds.find? fun f => f.tag == r.tag && r.status.toNat != stAccepted) = none →
      exec (.vc1Reply u port r) s = .next ((Prog.settle u).run s)) ∧
    ∀ f, ((s.conn u port).fwds.find? fun f => f.tag == r.tag && r.status.toNat != stAccepted) = some f →
      exec (.vc1Reply u port r) s = .next ((Prog.settle u).run ((Prog.fwdDone u f { status := r.status.toNat, detail := r.detail.toNat
                                                                                    result := r.result.toNat, data := r.data }).run
        ((Prog.modConn u port fun k => { k with fwds := k.fwds.filter (·.tag != r.tag) }).run s))) := by
  have run : exec (.vc1Reply u port r) s = .next ((Prog.settle u).run ((Prog.vc1Reply u port r).run s)) :=
    (nextIf_of hp _ s).trans (next_thenSettle _ hr)
  exact ⟨fun h => run.trans (by rw [vc1Reply_none s u port r h]), fun f h => run.trans (by rw [vc1Reply_some s u port r f h])⟩

-- roles

/-- A program of Gorse where Gorse runs (R28). -/
theorem gorse_up (u : UnitId) (p : Prog) (h : s.gorseUp u = true) : (Prog.gorse u p).run s = p.run s := by
  rw [Prog.gorse, Prog.run_get, h, Prog.run_cond_true]

/-- A program of Gorse where Gorse does not run (R28). -/
theorem gorse_down (u : UnitId) (p : Prog) (h : s.gorseUp u = false) : (Prog.gorse u p).run s = s := by
  rw [Prog.gorse, Prog.run_get, h, Prog.run_cond_false]

/-- The records of a register-named stream are dropped while it names none (R446). -/
theorem verdictRec_off (typ : Nat) (b : List Byte) (h : s.on .vta Reg.VTA_FLT_STREAM_V_VALID = false) : (Prog.verdictRec typ b).run s = s := by
  rw [Prog.verdictRec, Prog.emitReg, Prog.run_get, h, Prog.run_cond_false]

/-- A datagram that fits in a frame leaves; a longer one does not (R435). -/
theorem ether_run (dst tc n : Nat) (o : Out) : (Prog.ether dst tc n o).run s = if n + (s.frame dst tc).overhead ≤ 9216 then
    s.modDev .vta fun d => { d with out := d.out ++ [.ether (s.frame dst tc) o] } else s := by
  rw [Prog.ether, Prog.run_get, Prog.run_cond]
  simp

/-- A heartbeat fits in a frame. -/
theorem overhead_le (f : Frame) : 0 + f.overhead ≤ 9216 := by
  rw [Frame.overhead]
  split <;> omega

/-- The heartbeat of a role holder (R318). -/
theorem roleHeartbeat_run (l : Level) : (Prog.roleHeartbeat l).run s = if l ≠ .tray ∧ s.holdsRole l = true ∧ s.gorseUp .vta = true then
    s.modDev .vta fun d => { d with out := d.out ++ [.ether (s.frame (8 + levelNo l) 5) (.heartbeat l)] } else s := by
  rw [Prog.roleHeartbeat, Prog.run_get, Prog.run_cond, ether_run, if_pos (overhead_le _)]
  simp [and_assoc]

/-- A program that changes no more than the outputs of the VTA. -/
def Prog.sendsOnly (p : Prog) : Prop := ∀ s, ∃ outs, p.run s = s.modDev .vta fun d => { d with out := d.out ++ outs }

/-- What a datagram changes is the outputs alone. -/
theorem ether_sendsOnly (dst tc n : Nat) (o : Out) : (Prog.ether dst tc n o).sendsOnly := by
  intro s
  rw [ether_run]
  split
  · exact ⟨_, rfl⟩
  · exact ⟨[], by simp [State.modDev]⟩

/-- A record or message that leaves. -/
theorem ethRec_sendsOnly (up : Bool) (tc : Nat) (r : Rec) : (Prog.ethRec up tc r).sendsOnly := ether_sendsOnly _ _ _ _

/-- One such program after another. -/
theorem Prog.sendsOnly.both {p q : Prog} (hp : p.sendsOnly) (hq : q.sendsOnly) : (Prog.both p q).sendsOnly := by
  intro s
  obtain ⟨o1, h1⟩ := hp s
  obtain ⟨o2, h2⟩ := hq (p.run s)
  exact ⟨o1 ++ o2, by rw [Prog.run_both, h2, h1, State.modDev_modDev]; simp [Function.comp_def]⟩

/-- The messages of a takeover, whose record goes to a stream that is not named (R318, R446). -/
theorem takeoverMessages (r : Rec) (b : List Byte) (hv : s.on .vta Reg.VTA_FLT_STREAM_V_VALID = false) :
    ∃ outs, (Prog.seq [.ethRec false 5 r, .ethRec true 5 r, .verdictRec 0x64 b]).run s
      = s.modDev .vta fun d => { d with out := d.out ++ outs } := by
  obtain ⟨outs, h⟩ := ((ethRec_sendsOnly false 5 r).both (ethRec_sendsOnly true 5 r)) s
  rw [Prog.run_both] at h
  refine ⟨outs, ?_⟩
  rw [Prog.run_seq_cons, Prog.run_seq_cons, Prog.run_seq_cons, Prog.run_seq_nil, h, verdictRec_off _ _ _ (by simpa [State.on] using hv)]

/-- What a takeover of a role changes while no stream takes its record (R28, R318). -/
theorem roleTakeover_run (l : Level) (r : RoleSt) (hl : s.roleAt l = some r) (hs : r.standby = Config.vtaAddr.toNat)
    (hh : r.holder ≠ Config.vtaAddr.toNat) (hv : s.on .vta Reg.VTA_FLT_STREAM_V_VALID = false) :
    ∃ outs, (Prog.roleTakeover l).run s = { s with
      v := { s.v with out := s.v.out ++ outs }
      vx := { s.vx with roles := s.vx.roles.map fun e => if e.level = l then
        { e with holder := Config.vtaAddr.toNat, standby := r.holder, since := s.ns .vta + 2000, prev := r.holder } else e } } := by
  simp only [Prog.roleTakeover, Prog.run_get, hl, Prog.run_opt_some, hs, BEq.rfl, Bool.true_and, bne_iff_ne.2 hh, Prog.run_cond_true]
  rw [Prog.run_seq_cons]
  exact takeoverMessages _ _ _ (by simpa [State.on] using hv)

/-- A takeover by another unit's standby, or by the holder, changes nothing (R318). -/
theorem roleTakeover_other (l : Level) (r : RoleSt) (hl : s.roleAt l = some r)
    (h : r.standby ≠ Config.vtaAddr.toNat ∨ r.holder = Config.vtaAddr.toNat) : (Prog.roleTakeover l).run s = s := by
  have hc : (r.standby == Config.vtaAddr.toNat && r.holder != Config.vtaAddr.toNat) = false := by
    rcases h with h | h <;> simp [h]
  simp only [Prog.roleTakeover, Prog.run_get, hl, Prog.run_opt_some, hc, Prog.run_cond_false]

/-- A level with no role known has none to take over (R318). -/
theorem roleTakeover_none (l : Level) (h : s.roleAt l = none) : (Prog.roleTakeover l).run s = s := by
  rw [Prog.roleTakeover, Prog.run_get, h, Prog.run_opt_none]

/-- The holder of a role for an epoch: the one before up to the change, the new one after it (R28). -/
theorem holdsRoleAt_iff (l : Level) (e : RoleSt) (t : Nat) (hl : l ≠ .tray) (he : s.roleAt l = some e) :
    (t ≤ e.since → (s.holdsRoleAt l t = true ↔ e.prev = Config.vtaAddr.toNat)) ∧
    (e.since < t → (s.holdsRoleAt l t = true ↔ e.holder = Config.vtaAddr.toNat)) := by
  constructor <;> intro h
  · simp [State.holdsRoleAt, hl, he, Nat.not_lt.2 h]
  · simp [State.holdsRoleAt, hl, he, h]

/-- The level that a ROLE_CHANGE names (R318). -/
theorem roleLevel_find (l : Level) (hl : l ≠ .tray) : ([Level.rack, .row, .hall].find? fun x => levelNo x == levelNo l) = some l := by
  cases l
  · exact absurd rfl hl
  all_goals rfl

/-- A ROLE_CHANGE whose number is that of no level above the tray (R318). -/
theorem roleLevel_none (n : Nat) (h : n < 2 ∨ 4 < n) : ([Level.rack, .row, .hall].find? fun x => levelNo x == n) = none := by
  simp [List.find?_eq_none, levelNo]
  omega

/-- A ROLE_CHANGE that names no level changes nothing (R318). -/
theorem roleChange_none (r : Rec) (h : fieldAt r.payload 0 1 < 2 ∨ 4 < fieldAt r.payload 0 1) : (Prog.roleChange r).run s = s := by
  simp only [Prog.roleChange, Prog.run_get, roleLevel_none _ h, Prog.run_opt_none]

/-- A change of the holder of a unit below leaves all but the list of heads (R318). -/
theorem headChange (l : Level) (holder since : Nat) : ∃ hs, (Prog.opt (headInput l holder) fun (up, i) => .cond (sameUnit up holder) <|
      .vta fun x => { x with heads := (x.heads.filter fun h => !(h.1 == up && h.2.1 == i)) ++ [(up, i, holder, since)] }).run s
    = { s with vx := { s.vx with heads := hs } } := by
  cases headInput l holder with
  | none => exact ⟨s.vx.heads, rfl⟩
  | some e =>
    obtain ⟨up, i⟩ := e
    rw [Prog.run_opt_some, Prog.run_cond]
    split
    · exact ⟨_, rfl⟩
    · exact ⟨s.vx.heads, rfl⟩

/-- What a ROLE_CHANGE of this VTA's own unit changes while no stream takes a record (R318). -/
theorem roleChange_run (r : Rec) (l : Level) (hl : l ≠ .tray) (hf : fieldAt r.payload 0 1 = levelNo l)
    (hu : sameUnit l (fieldAt r.payload 4 4 % 2048) = true) (hv : s.on .vta Reg.VTA_FLT_STREAM_V_VALID = false) :
    ∃ hs, (Prog.roleChange r).run s = (Prog.cond (levelNo l == levelNo s.topRole + 1) .mbx9Reopen).run { s with vx := { s.vx with
      heads := hs
      roles := s.vx.roles.map fun e => if e.level = l ∧ e.holder ≠ fieldAt r.payload 4 4 % 2048 then
        { e with holder := fieldAt r.payload 4 4 % 2048, since := fieldAt r.payload 8 8, prev := e.holder } else e } } := by
  obtain ⟨hs, hh⟩ := headChange s l (fieldAt r.payload 4 4 % 2048) (fieldAt r.payload 8 8)
  refine ⟨hs, ?_⟩
  have hw (t : State) (b : Bool) (p : List Byte) (ht : t.vregs = s.vregs) : (Prog.cond b (.verdictRec 0x64 p)).run t = t := by
    have : t.on .vta Reg.VTA_FLT_STREAM_V_VALID = false := by rw [← hv]; simp [State.on, State.rd, State.word, State.regs, ht]
    rw [Prog.run_cond, verdictRec_off _ _ _ this, ite_self]
  simp only [Prog.roleChange, Prog.run_get, hf, roleLevel_find l hl, Prog.run_opt_some, Prog.run_both, hh, hu, Prog.run_cond_true,
    Prog.run_seq_cons, Prog.run_seq_nil, Prog.run_vta]
  exact congrArg (Prog.run _) (hw _ _ _ (by rfl))

/-- Mailbox 9 reopens: its session ends, and no other register changes (R114). -/
theorem mbx9Reopen_run : Prog.mbx9Reopen.run s
    = (s.modDev .vta fun d => { d with mbx := Sparse.mod {} d.mbx 9 fun b => { b with keyEx := false, bound := false, chain := 0 } }).wr .vta
        (Reg.MBX_STATUS_OPEN 9) 0 := rfl

/-- What a ROLE_CHANGE of this VTA's own unit does (R114, R318). -/
theorem roleChanges (r : Rec) (l : Level) (hl : l ≠ .tray) (hf : fieldAt r.payload 0 1 = levelNo l)
    (hu : sameUnit l (fieldAt r.payload 4 4 % 2048) = true) (hv : s.on .vta Reg.VTA_FLT_STREAM_V_VALID = false) :
    ((Prog.roleChange r).run s).vx.roles = s.vx.roles.map (fun e => if e.level = l ∧ e.holder ≠ fieldAt r.payload 4 4 % 2048 then
      { e with holder := fieldAt r.payload 4 4 % 2048, since := fieldAt r.payload 8 8, prev := e.holder } else e) ∧
    (∀ off, off ≠ (Reg.MBX_STATUS_OPEN 9).off → ((Prog.roleChange r).run s).word .vta off = s.word .vta off) ∧
    (levelNo l = levelNo s.topRole + 1 → ((Prog.roleChange r).run s).on .vta (Reg.MBX_STATUS_OPEN 9) = false ∧
      (((Prog.roleChange r).run s).mb .vta 9).bound = false ∧ (((Prog.roleChange r).run s).mb .vta 9).keyEx = false) := by
  obtain ⟨hs, h⟩ := roleChange_run s r l hl hf hu hv
  rw [h, Prog.run_cond, mbx9Reopen_run]
  refine ⟨?_, fun off ho => ?_, fun hn => ?_⟩
  · split <;> simp
  · split
    · rw [State.word_wr_other _ _ _ _ (Or.inr ho), State.modDev_word, State.word_vx]
    · rw [State.word_vx]
  · rw [if_pos (beq_iff_eq.2 hn)]
    refine ⟨?_, ?_, ?_⟩
    · simp [State.on, State.rd_wr_same, Reg.MBX_STATUS_OPEN]
    · simp [State.mb]
    · simp [State.mb]

/-- A message with no reserved field set is not counted (R8). -/
theorem rsvdFrom_clean (port : Option Nat) : (Prog.rsvdFrom .vta port false).run s = s := by
  cases port <;> rfl

/-- A message with no reserved field set is taken as it is (R8). -/
theorem Rec.clean_of {r : Rec} (h : r.rsvd = false) : r.clean = r := by
  cases r
  exact congrArg _ h.symm

/-- Starts that no reply has come for, roles and their changes at a VTA out of reset (R27, R28, R312 to R318). -/
theorem startsAndRoles (hr : s.v.inReset = false) :
      (∀ port < 64, exec (.startNoReply port) s = .next ((Prog.settle .vta).run
        (if s.jobLive .vta && s.jobTargets.contains (64 + port) && !s.vx.jobReply.any (·.1 == 64 + port)
            && s.rd .vta Reg.VTA_JOB_T_START + 10000 ≤ s.ns .vta then (Prog.abortDecide 2 (s.dieId .vta + port)).run s else s))) ∧
      exec .startAtReplyDeadline s = .next ((Prog.settle .vta).run
        (if s.rd .vta Reg.VTA_JOB_T_START + s.treeLead ≤ s.ns .vta then Prog.startReply.run s else s)) := by
  refine ⟨fun port hp => ((nextIf_of hp _ s).trans (next_thenSettle (u := .vta) _ hr)).trans ?_, (next_thenSettle (u := .vta) _ hr).trans ?_⟩
  · rw [Prog.startNoReply, Prog.run_get, Prog.run_cond]
  · rw [Prog.startDeadline, Prog.run_get, Prog.run_cond]
    simp

/-- Settles O55: jobs, forwarded commands, and the roles of a VTA with their changes. -/
theorem jobsRolesAndReplies : Obligations.JobsRolesAndReplies := by
  intro s
  obtain ⟨h1, h2, h3⟩ := jobStarts s
  refine ⟨h1, h2, h3, fun hr => ?_, fun u port r hp hr => vc1Replies s u port r hp hr⟩
  have run (p : Prog) : Prog.next (.up .vta p) s = .next (p.run s) := next_up (u := .vta) p hr
  refine ⟨(startsAndRoles s hr).1, (startsAndRoles s hr).2, rfl, fun l => (run _).trans (by rw [roleHeartbeat_run]), fun l h => (run _).trans ?_,
    fun l r hg hl h => (run _).trans (by rw [gorse_up _ _ _ hg, roleTakeover_other s l r hl h]), fun l r hg hl hs hh hv => ⟨_, run _, ?_⟩,
    fun r hg => (run _).trans (by rw [gorse_down _ _ _ hg]), fun r hg hb hf => (run _).trans ?_,
    fun r l hg hb hl hf hu hv => ⟨_, run _, ?_⟩, fun l e t => holdsRoleAt_iff s l e t⟩
  · rcases h with h | h
    · rw [gorse_down _ _ _ h]
    · rw [Prog.gorse, Prog.run_get, Prog.run_cond, roleTakeover_none s l h, ite_self]
  · obtain ⟨outs, h⟩ := roleTakeover_run s l r hl hs hh hv
    rw [gorse_up _ _ _ hg, h]
    exact ⟨rfl, rfl, rfl⟩
  · rw [gorse_up _ _ _ hg, Prog.run_both, hb, rsvdFrom_clean, Rec.clean_of hb, roleChange_none s r hf]
  · rw [gorse_up _ _ _ hg, Prog.run_both, hb, rsvdFrom_clean, Rec.clean_of hb]
    exact roleChanges s r l hl hf hu hv

end Sys2Proof.Machine

end

section

/-! # What programs leave alone -/

namespace Sys2Proof.Machine

variable {α β : Type} {g : State → α} {p q : Prog}

/-- A program leaves what `g` reads of the state. -/
def Prog.fixes (g : State → α) (p : Prog) : Prop := ∀ s, g (p.run s) = g s

theorem Prog.fixes_skip : (Prog.skip).fixes g := fun _ => rfl

theorem Prog.fixes_get {k : State → Prog} (h : ∀ s, (k s).fixes g) : (Prog.get k).fixes g := fun s => h s s

theorem Prog.fixes_both (hp : p.fixes g) (hq : q.fixes g) : (Prog.both p q).fixes g := fun s => (hq _).trans (hp s)

theorem Prog.fixes_cond {b : Bool} (h : p.fixes g) : (Prog.cond b p).fixes g := by
  cases b
  · exact Prog.fixes_skip
  · exact h

theorem Prog.fixes_opt {o : Option β} {k : β → Prog} (h : ∀ a, (k a).fixes g) : (Prog.opt o k).fixes g := by
  cases o
  · exact Prog.fixes_skip
  · exact h _

theorem Prog.fixes_each {l : List β} {k : β → Prog} (h : ∀ a ∈ l, (k a).fixes g) : (Prog.each l k).fixes g := by
  induction l with
  | nil => exact Prog.fixes_skip
  | cons a t ih => exact Prog.fixes_both (h a List.mem_cons_self) (ih fun b hb => h b (List.mem_cons_of_mem _ hb))

theorem Prog.fixes_seq_nil : (Prog.seq []).fixes g := Prog.fixes_skip

theorem Prog.fixes_seq_cons {l : List Prog} (hp : p.fixes g) (hl : (Prog.seq l).fixes g) : (Prog.seq (p :: l)).fixes g :=
  fun s => by rw [Prog.run_seq_cons, hl, hp]

theorem Prog.fixes_ite {c : Prop} [Decidable c] (hp : p.fixes g) (hq : q.fixes g) : (if c then p else q).fixes g := by
  split
  · exact hp
  · exact hq

-- the part of a unit that a mailbox error leaves

variable (u w : UnitId) (m n : Nat)

/-- A unit is held in reset or not, whatever is sent. -/
theorem Prog.fixes_send_inReset (o : Out) : (Prog.send w o).fixes fun s => (s.dev u).inReset := by
  intro s
  cases u <;> cases w <;> rfl

/-- A unit is held in reset or not, whatever MSI-X write is sent. -/
theorem Prog.fixes_msix_inReset : (Prog.msix n).fixes fun s => (s.dev u).inReset :=
  Prog.fixes_get fun _ => Prog.fixes_ite (fun s => by rw [Prog.run_wr, State.wr_dev]) (Prog.fixes_send_inReset u .vta _)

/-- A counted mailbox error leaves a unit in reset or not (R74). -/
theorem Prog.fixes_mbxErr_inReset (f : Fld) : (Prog.mbxErr w m f).fixes fun s => (s.dev u).inReset := by
  have hw (x : UnitId) (f : Fld) (v : Nat) : (Prog.wr x f v).fixes fun s => (s.dev u).inReset := fun s => by simp
  refine Prog.fixes_both (Prog.fixes_get fun _ => hw _ _ _) (Prog.fixes_get fun s => ?_)
  exact Prog.fixes_seq_cons (hw _ _ _) (Prog.fixes_seq_cons (Prog.fixes_get fun _ => Prog.fixes_cond (Prog.fixes_send_inReset u w _))
    (Prog.fixes_seq_cons (Prog.fixes_cond (Prog.fixes_msix_inReset u m)) Prog.fixes_seq_nil))

/-- Counting a reserved field that is set leaves a unit in reset or not (R8). -/
theorem Prog.fixes_rsvdFrom_inReset (port : Option Nat) (bad : Bool) : (Prog.rsvdFrom .vta port bad).fixes fun s => (s.dev u).inReset := by
  cases port with
  | none => exact Prog.fixes_cond (Prog.fixes_mbxErr_inReset u .vta 9 _)
  | some k => exact Prog.fixes_cond (fun s => by rw [Prog.run_bump, State.wr_dev])

end Sys2Proof.Machine

end

section

/-! # Steps at the tray: O52 -/

namespace Sys2Proof.Machine

variable (s : State)

/-- A little-endian number fits its bytes. -/
theorem ofLe_lt (b : List Byte) : ofLe b < 256 ^ b.length := by
  induction b with
  | nil => simp [ofLe]
  | cons x t ih =>
    have := x.isLt
    rw [ofLe, List.length_cons, pow_succ]
    omega

/-- A field of a message fits its bytes. -/
theorem fieldAt_lt (b : List Byte) (a n : Nat) : fieldAt b a n < 256 ^ n :=
  lt_of_lt_of_le (ofLe_lt _) (Nat.pow_le_pow_right (by decide) (by simp [cut]))

-- arrivals

/-- A step arrival of an input of its level (R215). -/
theorem exec_stepArrival (l : Level) (input : Nat) (r : Rec) (hr : s.v.inReset = false) (hi : input < levelInputs l) :
    exec (.stepArrival l input r) s
      = .next ((Prog.stepArrival l input r.clean).run ((Prog.rsvdFrom .vta (inputPort l input) r.rsvd).run s)) :=
  (nextIf_of hi _ s).trans (next_up (u := .vta) _ hr)

/-- An arrival with a reserved field set counts, and is taken with zeros (R8). -/
theorem stepArrival_rsvd (l : Level) (input : Nat) (r : Rec) (hr : s.v.inReset = false) (hi : input < levelInputs l) :
    exec (.stepArrival l input r) s = exec (.stepArrival l input r.clean) ((Prog.rsvdFrom .vta (inputPort l input) r.rsvd).run s) := by
  have hr' : ((Prog.rsvdFrom .vta (inputPort l input) r.rsvd).run s).v.inReset = false :=
    (Prog.fixes_rsvdFrom_inReset .vta _ _ s).trans hr
  rw [exec_stepArrival s l input r hr hi, exec_stepArrival _ l input _ hr' hi, show r.clean.rsvd = false from rfl, rsvdFrom_clean,
    Rec.clean_of (r := r.clean) rfl]

/-- An arrival at a level whose role is not held, or from an input that has lost its role, changes nothing (R28, R215, R318). -/
theorem stepArrival_none (l : Level) (input : Nat) (r : Rec)
    (h : s.holdsFor l none r = false ∨ s.fromHead l input r = false ∨ (r.typ == 0x31) ≠ (l == .tray)) :
    (Prog.stepArrival l input r).run s = s := by
  have hc : (s.holdsFor l none r && s.fromHead l input r && input < levelInputs l && (r.typ == 0x31) == (l == .tray)) = false := by
    rcases h with h | h | h
    · simp [h]
    · simp [h]
    · simp [h]
  simp only [Prog.stepArrival, Prog.run_get, hc, Prog.run_cond_false]

/-- The step context that an input opens at the tray, before its arrival joins it (R215). -/
def State.openedStep (s : State) (r : Rec) : MStep :=
  { level := .tray, step := BitVec.ofNat 32 (fieldAt r.payload 0 4), ins := s.stepMembers .tray, members := (s.stepMembers .tray).length
    taint := s.vx.tainted.contains (BitVec.ofNat 32 (fieldAt r.payload 0 4)), part := r.part }

/-- The first arrival of a step at the tray opens its context and renews the lease of its die (R215, R308). -/
theorem stepArrival_first (input : Nat) (r : Rec) (hi : input < 64) (ht : r.typ = 0x31) (hf : s.fromHead .tray input r = true)
    (hm : s.vx.msteps = []) (hv : s.rd .vta (Reg.VTA_DIE_VERDICT input) < 3) (hc : (s.stepMembers .tray).contains input = true)
    (hj : ∃ j ∈ s.stepMembers .tray, j ≠ input) :
    (Prog.stepArrival .tray input r).run s = { (Prog.renewLease input).run s with
      vx := { s.vx with msteps := [(s.openedStep r).join (arrivalOf .tray input r) input] } } := by
  have hheld : s.holdsFor .tray none r = true := by simp [State.holdsFor, State.holdsRoleAt]
  have hin : decide (input < levelInputs .tray) = true := decide_eq_true hi
  have htyp : (r.typ == 0x31) = true := by simp [ht]
  have hgone : decide (s.rd .vta (Reg.VTA_DIE_VERDICT input) ≥ 3) = false := decide_eq_false (by omega)
  have hlease : ((Prog.renewLease input).run s).vx = s.vx := by
    rw [Prog.renewLease, Prog.run_get, Prog.run_cond]; split <;> simp
  have hstep : (arrivalOf .tray input r).step = (s.openedStep r).step := by simp [arrivalOf, ht, State.openedStep]
  have hpart : (arrivalOf .tray input r).part = r.part := by simp [arrivalOf, ht]
  have hnew : (⟨.tray, (s.openedStep r).step, s.stepMembers .tray, [], 0, (s.stepMembers .tray).length, true, false, none, 0, [], false, false,
      s.vx.tainted.contains (s.openedStep r).step, r.part⟩ : MStep) = s.openedStep r := rfl
  have hone : (none == some true) = false := rfl
  have hfew : ¬ 4 ≤ ([] : List MStep).length := by decide
  have hjoin : ((s.openedStep r).join (arrivalOf .tray input r) input).ins.all
      ((s.openedStep r).join (arrivalOf .tray input r) input).got.contains = false := by
    obtain ⟨j, hj, hne⟩ := hj
    simp only [MStep.join, State.openedStep, List.nil_append, List.all_eq_false]
    exact ⟨j, hj, by simpa using hne⟩
  have hlev : (s.openedStep r).level = .tray := rfl
  have hlev' : ((s.openedStep r).join (arrivalOf .tray input r) input).level = .tray := rfl
  have hst' : ((s.openedStep r).join (arrivalOf .tray input r) input).step = (s.openedStep r).step := rfl
  have hgot : (s.openedStep r).got = [] := rfl
  have hdone : (s.openedStep r).done = false := rfl
  simp only [Prog.stepArrival, Prog.run_get, hheld, hf, hin, htyp, hm, List.find?_nil, List.any_nil, hgone,
    Option.map_none, BEq.rfl, Bool.not_false, Bool.and_self, Bool.and_false, Prog.run_cond_true, Prog.run_both, Prog.run_seq_cons, Prog.run_seq_nil, hone,
    Prog.run_cond_false, hlease, List.filter_nil, hc, if_true, Prog.run_vta, List.nil_append, ge_iff_le, hfew, decide_false, hstep, hpart, hnew,
    Prog.modStep, List.map_cons, List.map_nil, hlev, and_self, hgot, hdone, List.contains_nil, Bool.false_eq_true, or_self, if_false, List.find?_cons,
    hlev', hst', Prog.run_opt_some, hjoin]

/-- The lease of a die of the running job ends LEASE from now; that of any other stays (R308). -/
theorem rd_renewLease (input : Nat) : ((Prog.renewLease input).run s).rd .vta (Reg.VTA_DIE_LEASE_END input)
    = if s.inRunning input then (s.ns .vta + s.leaseNs) % 2 ^ 64 else s.rd .vta (Reg.VTA_DIE_LEASE_END input) := by
  rw [Prog.renewLease, Prog.run_get, Prog.run_cond]
  split
  · exact State.rd_wr_same _ _ _ _ (by simp [Reg.VTA_DIE_LEASE_END])
  · rfl

/-- A renewed lease leaves the VTA's common part. -/
theorem renewLease_v (input : Nat) : ((Prog.renewLease input).run s).v = s.v := by
  rw [Prog.renewLease, Prog.run_get, Prog.run_cond]
  split <;> simp

/-- A renewed lease changes no other register. -/
theorem word_renewLease (input off : Nat) (h : off ≠ (Reg.VTA_DIE_LEASE_END input).off) :
    ((Prog.renewLease input).run s).word .vta off = s.word .vta off := by
  rw [Prog.renewLease, Prog.run_get, Prog.run_cond]
  split
  · exact State.word_wr_other _ _ _ _ (Or.inr h)
  · rfl

/-- The first arrival of a step at the tray (R215, R308). -/
theorem stepOpens (input : Nat) (r : Rec) (hr : s.v.inReset = false) (hi : input < 64) (hb : r.rsvd = false) (ht : r.typ = 0x31)
    (hf : s.fromHead .tray input r = true) (hm : s.vx.msteps = []) (hv : s.rd .vta (Reg.VTA_DIE_VERDICT input) < 3)
    (hc : (s.stepMembers .tray).contains input = true) (hj : ∃ j ∈ s.stepMembers .tray, j ≠ input) :
        ∃ t : State, ∃ m : MStep, exec (.stepArrival .tray input r) s = .next t ∧ t.vx.msteps = [m] ∧
          m.step.toNat = fieldAt r.payload 0 4 ∧ m.ins = s.stepMembers .tray ∧ m.members = (s.stepMembers .tray).length ∧ m.got = [input] ∧
          m.count = 1 ∧ m.done = false ∧ m.clean = (fieldAt r.payload 4 1).testBit 0 ∧ m.cap = (fieldAt r.payload 4 1).testBit 1 ∧
          m.taint = (s.vx.tainted.contains m.step || r.taint) ∧
          t.rd .vta (Reg.VTA_DIE_LEASE_END input) = (if s.inRunning input then (s.ns .vta + s.leaseNs) % 2 ^ 64
            else s.rd .vta (Reg.VTA_DIE_LEASE_END input)) ∧
          t.v = s.v ∧ ∀ off, off ≠ (Reg.VTA_DIE_LEASE_END input).off → t.word .vta off = s.word .vta off := by
  have hrun : (Prog.stepArrival .tray input r.clean).run ((Prog.rsvdFrom .vta (inputPort .tray input) r.rsvd).run s)
      = (Prog.stepArrival .tray input r).run s := by rw [hb, rsvdFrom_clean, Rec.clean_of hb]
  refine ⟨_, _, (exec_stepArrival s .tray input r hr hi).trans (congrArg _ (hrun.trans (stepArrival_first s input r hi ht hf hm hv hc hj))), rfl, ?_⟩
  have hw := fieldAt_lt r.payload 0 4
  refine ⟨?_, rfl, ?_, rfl, ?_, rfl, ?_, ?_, ?_, ?_, ?_, ?_⟩
  · simpa [MStep.join, State.openedStep] using hw
  · simp [MStep.join, State.openedStep, arrivalOf, ht]
  · simp [MStep.join, State.openedStep, arrivalOf, ht]
  · simp [MStep.join, State.openedStep, arrivalOf, ht]
  · simp [MStep.join, State.openedStep, arrivalOf, ht]
  · simp [MStep.join, State.openedStep, arrivalOf, ht]
  · rw [State.rd_vx, rd_renewLease]
  · exact renewLease_v s input
  · intro off h
    rw [State.word_vx, word_renewLease s input off h]

-- reports and results

/-- A pending report of a step that none waits for is not made (R216). -/
theorem stepPending_none (l : Level) (step : BitVec 32)
    (h : (s.vx.msteps.find? fun m => m.level == l && m.step == step && !m.done && m.got != []) = none) :
    (Prog.stepPending l step).run s = s := by
  rw [Prog.stepPending, Prog.run_get, h, Prog.run_opt_none]

/-- One more pending report names what is missing (R216). -/
theorem stepPending_some (l : Level) (step : BitVec 32) (m : MStep)
    (h : (s.vx.msteps.find? fun m => m.level == l && m.step == step && !m.done && m.got != []) = some m)
    (hn : (s.stepRec m true false).size + (s.frame 0 6).overhead ≤ 9216) :
    (Prog.stepPending l step).run s = s.modDev .vta fun d =>
      { d with out := d.out ++ [.ether (s.frame 0 6) (.ethRec true (s.stepRec m true false))] } := by
  rw [Prog.stepPending, Prog.run_get, h, Prog.run_opt_some, Prog.ethRec, ether_run]
  exact if_pos hn

/-- A result passes on unless it is PENDING (R217). -/
theorem stepResult_vta (r : Rec) : (Prog.stepResult .vta r).run s
    = if (fieldAt r.payload 8 1).testBit 2 then s else (Prog.stepDown (s.stepMembers .tray) r).run s := by
  cases h : (fieldAt r.payload 8 1).testBit 2 <;> simp [Prog.stepResult, h]

/-- A member takes a result unless it is PENDING (R217). -/
theorem stepResult_htu (r : Rec) : (Prog.stepResult .htu r).run s
    = if (fieldAt r.payload 8 1).testBit 2 then s else (Prog.stepResultRx (BitVec.ofNat 32 (fieldAt r.payload 0 4))
        ((fieldAt r.payload 8 1).testBit 0 && !(fieldAt r.payload 8 1).testBit 3)).run s := by
  cases h : (fieldAt r.payload 8 1).testBit 2 <;> simp [Prog.stepResult, h]

/-- A message to the HTU with no reserved field set is not counted (R8). -/
theorem rsvdFrom_htu_clean (port : Option Nat) : (Prog.rsvdFrom .htu port false).run s = s := rfl

/-- Steps at a merge point (R8, R28, R214 to R217). -/
theorem stepsAtTheTray (hr : s.v.inReset = false) :
      (∀ l input r, input < levelInputs l →
        exec (.stepArrival l input r) s = exec (.stepArrival l input r.clean) ((Prog.rsvdFrom .vta (inputPort l input) r.rsvd).run s)) ∧
      (∀ l input r, input < levelInputs l → r.rsvd = false →
        s.holdsFor l none r = false ∨ s.fromHead l input r = false ∨ (r.typ == 0x31) ≠ (l == .tray) →
        exec (.stepArrival l input r) s = .next s) := by
  refine ⟨fun l input r hi => stepArrival_rsvd s l input r hr hi, fun l input r hi hb h => ?_⟩
  rw [exec_stepArrival s l input r hr hi, hb, rsvdFrom_clean, Rec.clean_of hb, stepArrival_none s l input r h]

-- results at a member

/-- A result of a step that is not open here changes nothing (R217). -/
theorem stepResultRx_none (step : BitVec 32) (clean : Bool) (h : (s.hx.steps.find? fun c => c.step == step) = none) :
    (Prog.stepResultRx step clean).run s = s := by
  rw [Prog.stepResultRx, Prog.run_get, h, Prog.run_opt_none]

/-- A result by the state of its step (R217, R238, R239). -/
theorem stepResultRx_some (step : BitVec 32) (clean : Bool) (c : StepCtx) (h : (s.hx.steps.find? fun c => c.step == step) = some c) :
    (c.st = .final → (Prog.stepResultRx step clean).run s = (Prog.present c.no clean).run s) ∧
    (c.st = .opened ∨ c.st = .closing → clean = true → (Prog.stepResultRx step clean).run s = s) ∧
    (c.st = .opened ∨ c.st = .closing → clean = false →
      let b := (Prog.endStep false c.no).run ((Prog.modCtx c.no fun c => { c with clean := false }).run s)
      (Prog.stepResultRx step clean).run s = (match b.ctxNo c.no with
        | some d => if d.st = .final then (Prog.present c.no clean).run b else b
        | none => b)) ∧
    (c.st = .presented ∨ c.st = .retained → (Prog.stepResultRx step clean).run s = s) := by
  have hrun : (Prog.stepResultRx step clean).run s = (if c.st = .final then Prog.present c.no clean
      else .cond ((c.st == .opened || c.st == .closing) && !clean) <| .seq [
        .modCtx c.no fun c => { c with clean := false }, .endStep false c.no,
        .get fun s => .opt (s.ctxNo c.no) fun c => .cond (c.st == .final) (.present c.no clean)]).run s := by
    rw [Prog.stepResultRx, Prog.run_get, h, Prog.run_opt_some]
  rw [hrun]
  refine ⟨fun hs => ?_, fun hs hc => ?_, fun hs hc => ?_, fun hs => ?_⟩
  · rw [if_pos hs]
  · rcases hs with hs | hs <;> simp [hs, hc]
  · have hno : ¬ c.st = .final := by rcases hs with hs | hs <;> simp [hs]
    have hend : ((c.st == .opened || c.st == .closing) && !clean) = true := by rcases hs with hs | hs <;> simp [hs, hc]
    rw [if_neg hno, hend, Prog.run_cond_true]
    simp only [Prog.run_seq_cons, Prog.run_seq_nil, Prog.run_get]
    cases hd : ((Prog.endStep false c.no).run ((Prog.modCtx c.no fun c => { c with clean := false }).run s)).ctxNo c.no with
    | none => rfl
    | some d =>
      have hno : d.no = c.no := by simpa using List.find?_some hd
      simp [Prog.run_cond, hno]
  · have hout : ((c.st == .opened || c.st == .closing) && !clean) = false := by rcases hs with hs | hs <;> rw [hs] <;> rfl
    have hno : ¬ c.st = .final := by rcases hs with hs | hs <;> simp [hs]
    rw [if_neg hno, hout, Prog.run_cond_false]

-- notices

/-- A notice reaches its unit (R8, R243). -/
theorem exec_taintNotice {s : State} (u : UnitId) (input : Nat) (r : Rec) (hr : (s.dev u).inReset = false) (hb : r.rsvd = false) :
    exec (.taintNotice u input r) s = .next ((Prog.settle u).run ((Prog.taintNotice u input r).run s)) := by
  refine (next_thenSettle _ hr).trans ?_
  rw [Prog.run_both, hb, Rec.clean_of hb]
  cases u
  · rw [rsvdFrom_htu_clean]
  · rw [rsvdFrom_clean]

/-- The poison registers of a notice (R252). -/
def Prog.poison (p : List Byte) : Prog := .get fun s => .seq [
  .wr .htu Reg.SNT_POISON_ORIGIN (fieldAt p 8 4),
  .wr .htu Reg.SNT_POISON_HERE (if fieldAt p 8 4 % 2 ^ 17 = s.dieId .htu then 1 else 0),
  .wr .htu Reg.SNT_POISON_VALID 1, .wr .htu Reg.SNT_POISON_COLL_ID (fieldAt p 12 4),
  .wr .htu Reg.SNT_POISON_BLOCK (fieldAt p 16 2), .wr .htu Reg.SNT_POISON_STEP (BitVec.ofNat 32 (fieldAt p 0 4)).toNat]

/-- A poison notice is kept where none was (R252). -/
theorem noticeRx_poison (r : Rec) (hv : s.on .htu Reg.SNT_POISON_VALID = false) (hc : fieldAt r.payload 4 1 = 4) :
    (Prog.noticeRx r).run s = (Prog.poison r.payload).run s := by
  have h0 : (fieldAt r.payload 4 1).testBit 0 = false := by rw [hc]; decide
  have h1 : (fieldAt r.payload 4 1).testBit 1 = false := by rw [hc]; decide
  have h2 : ((fieldAt r.payload 4 1).testBit 2 && !s.on .htu Reg.SNT_POISON_VALID) = true := by rw [hc, hv]; decide
  dsimp only [Prog.noticeRx]
  rw [Prog.run_get, h0, h1, h2, Prog.run_seq_cons, Prog.run_seq_cons, Prog.run_seq_cons, Prog.run_cond_false,
    Prog.run_cond_false, Prog.run_cond_true, Prog.run_seq_nil]
  rfl

/-- What the poison registers hold after a notice (R252). -/
theorem poison_run (p : List Byte) : let t := (Prog.poison p).run s
    t.hx = s.hx ∧ t.h = s.h ∧ t.rd .htu Reg.SNT_POISON_VALID = 1 ∧ t.rd .htu Reg.SNT_POISON_ORIGIN = fieldAt p 8 4 % 2 ^ 17 ∧
    t.rd .htu Reg.SNT_POISON_COLL_ID = fieldAt p 12 4 ∧ t.rd .htu Reg.SNT_POISON_BLOCK = fieldAt p 16 2 ∧
    t.rd .htu Reg.SNT_POISON_STEP = fieldAt p 0 4 := by
  have h1 := fieldAt_lt p 12 4
  have h2 := fieldAt_lt p 16 2
  have h3 := fieldAt_lt p 0 4
  simp [Prog.poison, State.rd_wr_same, State.rd_wr_other, Reg.SNT_POISON_VALID, Reg.SNT_POISON_ORIGIN, Reg.SNT_POISON_HERE,
    Reg.SNT_POISON_COLL_ID, Reg.SNT_POISON_BLOCK, Reg.SNT_POISON_STEP]
  omega

/-- A taint notice taints its step at a member, the last 8 being kept (R239, R243, R244). -/
theorem noticeRx_taint (r : Rec) (hc : fieldAt r.payload 4 1 = 1) :
    let step := BitVec.ofNat 32 (fieldAt r.payload 0 4)
    let l := s.hx.tainted.filter (· != step)
    (Prog.noticeRx r).run s = (Prog.replayReq step).run ((Prog.sntRec 0x41 step none (fit 24 r.payload)).run
      { s with hx := { s.hx with tainted := (l ++ [step]).drop (l.length - 7) } }) := by
  have h0 : Nat.testBit 1 0 = true := rfl
  have h1 : Nat.testBit 1 1 = false := rfl
  have h2 : Nat.testBit 1 2 = false := rfl
  simp only [Prog.noticeRx, Prog.run_get, hc, h0, h1, h2, Bool.false_and, Prog.run_seq_cons, Prog.run_cond_false, Prog.run_cond_true,
    Prog.run_seq_nil, Prog.run_htu]

/-- What a notice marks at the merge points of a VTA (R243, R244). -/
def State.marked (s : State) (r : Rec) : State :=
  let step := BitVec.ofNat 32 (fieldAt r.payload 0 4)
  let l := s.vx.tainted.filter (· != step)
  if (fieldAt r.payload 4 1).testBit 0 then { s with vx := { s.vx with
    tainted := (l ++ [step]).drop (l.length - 7)
    msteps := s.vx.msteps.map fun m => if m.step = step then { m with taint := true } else m } } else s

/-- A notice at a VTA goes down where it came from above, up where the root is not here, and down from the root (R243). -/
theorem noticeVta_run (input : Nat) (r : Rec) :
    (256 ≤ input → (Prog.noticeVta input r).run s = (Prog.noticeDown r).run (s.marked r)) ∧
    (input < 256 → s.holdsRole s.rootLevel = false → (Prog.noticeVta input r).run s = (Prog.ethRec true 6 r).run (s.marked r)) ∧
    (input < 256 → s.holdsRole s.rootLevel = true → (fieldAt r.payload 4 1).testBit 1 = false →
      (Prog.noticeVta input r).run s = (Prog.noticeDown r).run (s.marked r)) := by
  refine ⟨fun hi => ?_, fun hi hh => ?_, fun hi hh hs => ?_⟩
  · simp only [Prog.noticeVta, Prog.run_get, Prog.run_both, Prog.run_cond, Prog.run_vta, ge_iff_le, hi, if_true, State.marked]
  · simp only [Prog.noticeVta, Prog.run_get, Prog.run_both, Prog.run_cond, Prog.run_vta, ge_iff_le, Nat.not_le.2 hi, if_false, hh, Bool.not_false,
      if_true, State.marked]
  · simp only [Prog.noticeVta, Prog.run_get, Prog.run_both, Prog.run_cond, Prog.run_vta, ge_iff_le, Nat.not_le.2 hi, if_false, hh, hs, Bool.not_true,
      Bool.false_eq_true, State.marked]

/-- A lost replay aborts the job of its die (R317). -/
theorem replayLostRx_run (input : Nat) (r : Rec) : (Prog.replayLostRx input r).run s
    = if s.rd .vta (Reg.VTA_DIE_JOB_ID input) = s.rd .vta Reg.VTA_JOB_JOB_ID then (Prog.abortDecide 5 r.die).run s else s := by
  rw [Prog.replayLostRx, Prog.run_get, Prog.run_cond]
  simp

/-- Settles O52: arrivals and results at a merge point, then results and notices at their units, each from the run of its program. -/
theorem stepsMergeAtTheTray : Obligations.StepsMergeAtTheTray := by
  refine ⟨fun s hr => ⟨(stepsAtTheTray s hr).1, (stepsAtTheTray s hr).2,
      fun input r hi hb ht hf hm hv hc hj => stepOpens s input r hr hi hb ht hf hm hv hc hj,
      fun l step h => ?_, fun l step m h hn => ?_, fun r hb => ?_, fun r hb hr => ?_⟩,
    fun step clean s => ⟨stepResultRx_none s step clean, stepResultRx_some s step clean⟩, fun input r s hr hb hv hc => ?_,
    fun input r s hr hb hc => ?_, fun input r s hr hb => ?_, fun input r s hi hr hb => ?_⟩
  · exact (next_up (u := .vta) _ hr).trans (by rw [stepPending_none s l step h])
  · exact (next_up (u := .vta) _ hr).trans (by rw [stepPending_some s l step m h hn])
  · exact (next_thenSettle (u := .vta) _ hr).trans (by rw [Prog.run_both, hb, rsvdFrom_clean, Rec.clean_of hb, stepResult_vta])
  · exact (next_thenSettle (u := .htu) _ hr).trans (by rw [Prog.run_both, hb, rsvdFrom_htu_clean, Rec.clean_of hb, stepResult_htu])
  · refine ⟨_, exec_taintNotice .htu input r hr hb, ?_⟩
    rw [Prog.taintNotice, noticeRx_poison s r hv hc]
    exact poison_run s r.payload
  · exact (exec_taintNotice .htu input r hr hb).trans (by rw [Prog.taintNotice, noticeRx_taint s r hc])
  · obtain ⟨habove, hup, hdown⟩ := noticeVta_run s input r
    refine ⟨fun hi => ?_, fun hi hh => ?_, fun hi hh hs => ?_⟩
    · exact (exec_taintNotice .vta input r hr hb).trans (by rw [Prog.taintNotice, habove hi]; rfl)
    · exact (exec_taintNotice .vta input r hr hb).trans (by rw [Prog.taintNotice, hup hi hh]; rfl)
    · exact (exec_taintNotice .vta input r hr hb).trans (by rw [Prog.taintNotice, hdown hi hh hs]; rfl)
  · refine ((nextIf_of hi _ s).trans (next_thenSettle (u := .vta) _ hr)).trans ?_
    rw [Prog.run_both, hb, Rec.clean_of hb, Prog.rsvdPort, Prog.run_cond_false, replayLostRx_run]

end Sys2Proof.Machine

end

section

/-! # Flits and their slots: O58 -/

namespace Sys2Proof.Machine

variable {s : State} {u : UnitId} {k : Nat}

/-- A row of a Furrow port of a unit out of reset. -/
theorem next_port (p : Prog) (hk : k < portCount u) (hr : (s.dev u).inReset = false) :
    Prog.nextIf (decide (k < portCount u)) (.up u p) s = .next (p.run s) :=
  (nextIf_of hk _ s).trans (next_up p hr)

variable (s u k)

/-- A register write leaves the ports. -/
@[simp] theorem State.port_wr (w : UnitId) (f : Fld) (v : Nat) : (s.wr w f v).port u k = s.port u k := by simp [State.port]

/-- A port that is not UP takes and sends no flit (R375, R376). -/
theorem portDownRows (hn : ¬ s.rd u (Reg.FUR_PORT_STATE k) = portUp) :
    (∀ b, (Prog.dataFlit u k b).run s = s) ∧ (Prog.retryTimeout u k).run s = s ∧ (Prog.flitSlot u k).run s = s := by
  have h : (s.rd u (Reg.FUR_PORT_STATE k) == portUp) = false := beq_false_of_ne hn
  refine ⟨fun b => ?_, ?_, ?_⟩
  · rw [Prog.dataFlit, Prog.run_get, h, Prog.run_cond_false]
  · rw [Prog.retryTimeout, Prog.run_get, h, Prog.run_cond_false]
  · rw [Prog.flitSlot, Prog.run_get, h, Prog.run_cond_false]

-- flits that arrive

/-- The state with the flit counted that has arrived. -/
def State.rxCounted (s : State) (u : UnitId) (k : Nat) : State := s.wr u (Reg.FUR_PORT_RX_FLITS k) (s.rd u (Reg.FUR_PORT_RX_FLITS k) + 1)

/-- The state with an error of the port's flits counted. -/
def State.crcCounted (s : State) (u : UnitId) (k : Nat) : State :=
  s.wr u (Reg.FUR_PORT_CRC_ERR k) (satAdd 16 (s.rd u (Reg.FUR_PORT_CRC_ERR k)) 1)

/-- A flit with a bad CRC-32 is discarded under NAK (R376, R379). -/
theorem dataFlit_bad (b : List Byte) (hu : s.rd u (Reg.FUR_PORT_STATE k) = portUp) (hb : Flit.ofBytes b = none) :
    (Prog.dataFlit u k b).run s
      = (Prog.modPort u k fun p => { p with nakOut := true }).run ((s.rxCounted u k).crcCounted u k) := by
  simp only [Prog.dataFlit, Prog.run_get, hu, BEq.rfl, Prog.run_cond_true, Prog.run_both, hb]
  rfl

/-- A flit of the reserved KIND is discarded (R376). -/
theorem dataFlit_reserved (b : List Byte) (f : Flit) (hu : s.rd u (Reg.FUR_PORT_STATE k) = portUp) (hb : Flit.ofBytes b = some f)
    (hk : f.kind = 3) : (Prog.dataFlit u k b).run s = (s.rxCounted u k).crcCounted u k := by
  simp only [Prog.dataFlit, Prog.run_get, hu, BEq.rfl, Prog.run_cond_true, Prog.run_both, hb, hk, if_true]
  rfl

/-- The state that a flit finds: it has counted, and its error where its reserved fields are not zero (R8, R376). -/
def State.flitCounted (s : State) (u : UnitId) (k : Nat) (f : Flit) : State :=
  if f.rsvd then (s.rxCounted u k).crcCounted u k else s.rxCounted u k

/-- The state after a flit's acknowledgement and credits (R376, R377, R379). -/
def State.flitHeard (s : State) (u : UnitId) (k : Nat) (f : Flit) : State :=
  (Prog.creditRx u k f).run ((Prog.ackRx u k f).run ((Prog.cond (u == .vta) (.opt ((s.flitCounted u k f).flitConn u k f) fun c =>
    .vta fun x => { x with furAt := Sparse.put x.furAt c s.stamp })).run (s.flitCounted u k f)))

/-- The connection of a flit does not depend on registers (R381). -/
theorem flitConn_any (t : State) (f : Flit) : s.flitConn u k f = t.flitConn u k f := by
  cases u <;> rfl

/-- A flit that is not discarded (R376, R377, R379). -/
theorem dataFlit_taken (b : List Byte) (f : Flit) (hu : s.rd u (Reg.FUR_PORT_STATE k) = portUp) (hb : Flit.ofBytes b = some f)
    (hk : f.kind ≠ 3) : (Prog.dataFlit u k b).run s = (Prog.settle u).run
      ((if f.kind = kindIdle then Prog.flitBody u k f
        else if f.fseq ≠ (s.port u k).fseqRx then .modPort u k fun p => { p with nakOut := true }
        else .both (.modPort u k fun p => { p with fseqRx := (f.fseq + 1) % 4096 }) (.flitBody u k f)).run (s.flitHeard u k f)) := by
  have hr : (Prog.rsvdPort u k f.rsvd).run ((Prog.count u (Reg.FUR_PORT_RX_FLITS k)).run s) = s.flitCounted u k f := by
    rw [Prog.rsvdPort, Prog.run_cond]
    rfl
  simp only [Prog.dataFlit, Prog.run_get, hu, BEq.rfl, Prog.run_cond_true, Prog.run_both, hb, hk, if_false, Prog.run_seq_cons, Prog.run_seq_nil, hr]
  rw [flitConn_any s u k (s.flitCounted u k f)]
  rfl

/-- What a flit does on a port that is UP (R376, R379). -/
theorem dataFlits (hk : k < portCount u) (hr : (s.dev u).inReset = false) (hu : s.rd u (Reg.FUR_PORT_STATE k) = portUp) :
    (∀ b, Flit.ofBytes b = none → exec (.dataFlit u k b) s =
      .next ((Prog.modPort u k fun p => { p with nakOut := true }).run ((s.rxCounted u k).crcCounted u k))) ∧
    (∀ b f, Flit.ofBytes b = some f →
      (f.kind = 3 → exec (.dataFlit u k b) s = .next ((s.rxCounted u k).crcCounted u k)) ∧
      (f.kind ≠ 3 →
        (f.kind = kindIdle → exec (.dataFlit u k b) s = .next ((Prog.settle u).run ((Prog.flitBody u k f).run (s.flitHeard u k f)))) ∧
        (f.kind ≠ kindIdle → f.fseq ≠ (s.port u k).fseqRx → exec (.dataFlit u k b) s =
          .next ((Prog.settle u).run ((Prog.modPort u k fun p => { p with nakOut := true }).run (s.flitHeard u k f)))) ∧
        (f.kind ≠ kindIdle → f.fseq = (s.port u k).fseqRx → exec (.dataFlit u k b) s = .next ((Prog.settle u).run ((Prog.flitBody u k f).run
          ((Prog.modPort u k fun p => { p with fseqRx := (f.fseq + 1) % 4096 }).run (s.flitHeard u k f))))))) := by
  have run (b : List Byte) : exec (.dataFlit u k b) s = .next ((Prog.dataFlit u k b).run s) := next_port _ hk hr
  refine ⟨fun b hb => ?_, fun b f hb => ⟨fun h3 => ?_, fun h3 => ⟨fun hi => ?_, fun hi hf => ?_, fun hi hf => ?_⟩⟩⟩
  · rw [run, dataFlit_bad s u k b hu hb]
  · rw [run, dataFlit_reserved s u k b f hu hb h3]
  · rw [run, dataFlit_taken s u k b f hu hb h3, if_pos hi]
  · rw [run, dataFlit_taken s u k b f hu hb h3, if_neg hi, if_pos hf]
  · rw [run, dataFlit_taken s u k b f hu hb h3, if_neg hi, if_neg (not_not.2 hf), Prog.run_both]

-- retries

/-- A port after a change of it. -/
@[simp] theorem State.port_modPort (f : Port → Port) : ((Prog.modPort u k f).run s).port u k = f (s.port u k) := by
  simp [Prog.modPort, State.port]

/-- A change of a port leaves the registers. -/
@[simp] theorem State.rd_modPort (w : UnitId) (g : Fld) (f : Port → Port) : ((Prog.modPort u k f).run s).rd w g = s.rd w g := by
  simp [Prog.modPort]

/-- With nothing to resend the retry timeout changes nothing (R379). -/
theorem retryTimeout_none (h : (s.port u k).retry = []) : (Prog.retryTimeout u k).run s = s := by
  rw [Prog.retryTimeout, Prog.run_get, Prog.run_cond]
  simp [Prog.resend, h]

/-- The retry timeout resends what is not acknowledged (R379). -/
theorem retryTimeout_resends (hu : s.rd u (Reg.FUR_PORT_STATE k) = portUp) (h : (s.port u k).retry ≠ [])
    (hn : (s.port u k).retries + 1 < 16) : (Prog.retryTimeout u k).run s =
      (Prog.modPort u k fun p => { p with resend := p.retry, retries := p.retries + 1 }).run
        ((Prog.cond (u == .htu) (.count .htu (Reg.TAP_DIE_CNT_COUNT 10))).run
          (s.wr u (Reg.FUR_PORT_RETRIES k) (satAdd 16 (s.rd u (Reg.FUR_PORT_RETRIES k)) 1))) := by
  have h1 : ((s.port u k).retry != []) = true := bne_iff_ne.2 h
  have h2 : decide ((s.port u k).retries + 1 ≥ 16) = false := decide_eq_false (by omega)
  simp only [Prog.retryTimeout, Prog.resend, Prog.run_get, hu, BEq.rfl, Prog.run_cond_true, h1, h2, Prog.run_seq_cons, Prog.run_seq_nil, Prog.run_bump,
    Prog.run_cond_false]
  rfl

/-- A die counter of the HTU leaves the ports' registers. -/
theorem rd_dieCount (b : Bool) (n : Nat) (f : Fld) (hf : 0x90000 ≤ f.off) (hn : b = true → n < 64) :
    ((Prog.cond b (.count .htu (Reg.TAP_DIE_CNT_COUNT n))).run s).rd u f = s.rd u f := by
  rw [Prog.run_cond, Prog.run_count]
  split
  · next h =>
    have := hn h
    exact State.rd_wr_other _ _ _ _ _ (Or.inr (Or.inl (by simp only [Reg.TAP_DIE_CNT_COUNT]; omega)))
  · rfl

/-- A die counter of the HTU leaves the ports. -/
theorem port_dieCount (b : Bool) (n : Nat) : ((Prog.cond b (.count .htu (Reg.TAP_DIE_CNT_COUNT n))).run s).port u k = s.port u k := by
  rw [Prog.run_cond, Prog.run_count]
  split <;> simp

/-- What the retry timeout leaves (R379). -/
theorem retryTimeout_state (hu : s.rd u (Reg.FUR_PORT_STATE k) = portUp) (h : (s.port u k).retry ≠ [])
    (hn : (s.port u k).retries + 1 < 16) : let t := (Prog.retryTimeout u k).run s
      t.rd u (Reg.FUR_PORT_RETRIES k) = satAdd 16 (s.rd u (Reg.FUR_PORT_RETRIES k)) 1 ∧
      t.port u k = { s.port u k with resend := (s.port u k).retry, retries := (s.port u k).retries + 1 } ∧
      t.rd u (Reg.FUR_PORT_STATE k) = portUp := by
  intro t
  have ht : t = _ := retryTimeout_resends s u k hu h hn
  refine ⟨?_, ?_, ?_⟩
  · rw [ht, State.rd_modPort, rd_dieCount _ _ _ _ _ (by simp [Reg.FUR_PORT_RETRIES]; omega) (fun _ => by decide),
      State.rd_wr_same _ _ _ _ (by simp [Reg.FUR_PORT_RETRIES])]
    exact Nat.mod_eq_of_lt (by simp [satAdd, Reg.FUR_PORT_RETRIES])
  · rw [ht, State.port_modPort, port_dieCount, State.port_wr]
  · rw [ht, State.rd_modPort, rd_dieCount _ _ _ _ _ (by simp [Reg.FUR_PORT_STATE]) (fun _ => by decide),
      State.rd_wr_other _ _ _ _ _ (Or.inr (Or.inl (by simp [Reg.FUR_PORT_RETRIES, Reg.FUR_PORT_STATE]))), hu]

-- flit slots

/-- A slot on a port that is UP fills the partitions' buckets first (R388). -/
theorem port_fillParts : ((Prog.fillParts u).run s).port u k = s.port u k := by
  simp [Prog.fillParts, State.port]

/-- A flit to resend departs first (R379). -/
theorem flitSlot_resend (n : Nat) (b : List Byte) (l : List (Nat × List Byte)) (hu : s.rd u (Reg.FUR_PORT_STATE k) = portUp)
    (h : (s.port u k).resend = (n, b) :: l) : (Prog.flitSlot u k).run s = (Prog.departAgain u k n b).run ((Prog.fillParts u).run s) := by
  simp only [Prog.flitSlot, Prog.run_get, hu, BEq.rfl, Prog.run_cond_true, Prog.run_both, port_fillParts, h]

/-- A port whose retry buffer holds 64 flits sends IDLE (R379). -/
theorem flitSlot_full (hu : s.rd u (Reg.FUR_PORT_STATE k) = portUp) (h : (s.port u k).resend = []) (hf : 64 ≤ (s.port u k).retry.length) :
    (Prog.flitSlot u k).run s = (((Prog.fillParts u).run s).idleFlit u k).run ((Prog.fillParts u).run s) := by
  simp only [Prog.flitSlot, Prog.run_get, hu, BEq.rfl, Prog.run_cond_true, Prog.run_both, port_fillParts, h, ge_iff_le, hf, if_true]

/-- The IDLE flit that a port with no connection sends (R376). -/
def State.emptyFlit (s : State) (u : UnitId) (k : Nat) : Flit :=
  { kind := kindIdle, ack := ((s.port u k).fseqRx + 4095) % 4096, nak := (s.port u k).nakOut, ackValid := true
    fwd := u == .vta && 0 != s.connDie u k }

/-- A unit with no connection has none on a port. -/
theorem connsOn_nil (h : (s.dev u).conns = []) : s.connsOn u k = [] := by simp [State.connsOn, h]

/-- A port that relays nothing and whose unit has no connection has no packet to send. -/
theorem packetReady_none (vc : Nat) (hr : (s.port u k).relay = []) (hn : (s.dev u).conns = []) : s.packetReady u k vc = none := by
  simp [State.packetReady, hr, connsOn_nil s u k hn]

/-- Such a port has no bulk packet to send. -/
theorem bulkReady_none (hr : (s.port u k).relay = []) (hn : (s.dev u).conns = []) : s.bulkReady u k = none := by
  simp [State.bulkReady, hr, connsOn_nil s u k hn]

/-- A port where no time message waits has none to send. -/
theorem timeReady_none (ht : (s.port u k).time = []) : s.timeReady u k = none := by
  simp [State.timeReady, ht]

/-- A port where no CONTROL message waits has none to send. -/
theorem controlReady_none (hr : (s.port u k).relay = []) (hc : (s.port u k).ctl = []) : s.controlReady u k = none := by
  simp [State.controlReady, hr, hc]

/-- With no connection the IDLE flit carries no credits. -/
theorem idleFlit_empty (hr : (s.port u k).relay = []) (hn : (s.dev u).conns = []) : s.idleFlit u k = .depart u k (s.emptyFlit u k) := by
  simp [State.idleFlit, State.fillHeader, State.emptyFlit, hr, connsOn_nil s u k hn]

/-- A port with nothing to send sends an IDLE flit (R376, R389). -/
theorem flitSlot_idle (hu : s.rd u (Reg.FUR_PORT_STATE k) = portUp) (h : (s.port u k).resend = []) (hf : (s.port u k).retry.length < 64)
    (hr : (s.port u k).relay = []) (hc : (s.port u k).ctl = []) (ht : (s.port u k).time = []) (hn : (s.dev u).conns = []) :
    (Prog.flitSlot u k).run s = (Prog.depart u k (((Prog.fillParts u).run s).emptyFlit u k)).run
      ((Prog.modPort u k fun p => { p with slots := 0 }).run ((Prog.fillParts u).run s)) := by
  have hp := port_fillParts s u k
  have hd : (((Prog.fillParts u).run s).dev u).conns = [] := by simpa [Prog.fillParts] using hn
  have hbulk := bulkReady_none ((Prog.fillParts u).run s) u k (by rw [hp, hr]) hd
  have htime := timeReady_none ((Prog.fillParts u).run s) u k (by rw [hp, ht])
  have hctl := controlReady_none ((Prog.fillParts u).run s) u k (by rw [hp, hr]) (by rw [hp, hc])
  have hpkt (vc : Nat) := packetReady_none ((Prog.fillParts u).run s) u k vc (by rw [hp, hr]) hd
  have hidle := idleFlit_empty ((Prog.fillParts u).run s) u k (by rw [hp, hr]) hd
  simp only [Prog.flitSlot, Prog.run_get, hu, BEq.rfl, Prog.run_cond_true, Prog.run_both, hp, h, ge_iff_le, Nat.not_le.2 hf, if_false, hbulk, htime, hctl,
    hpkt, ite_self, List.findSome?, id, Option.getD_none, hidle]

/-- A number's bytes. -/
theorem length_le (n v : Nat) : (le n v).length = n := by
  induction n generalizing v with
  | zero => rfl
  | succ n ih => rw [le, List.length_cons, ih]

/-- A flit's payload has the length it is cut to. -/
theorem length_fit (n : Nat) (b : List Byte) : (fit n b).length = n := by
  simp [fit, zeros]

/-- A flit has 256 bytes (R376). -/
theorem length_flitBytes (f : Flit) : f.bytes.length = 256 := by
  simp [Flit.bytes, length_le, length_fit, flitPayload]

/-- The first byte of a flit (R376). -/
theorem fieldAt_flitBytes (f : Flit) :
    fieldAt f.bytes 0 1 = (f.kind + 4 * f.vc + 32 * f.first'.toNat + 64 * f.last'.toNat + 128 * f.fwd.toNat) % 256 := by
  simp [Flit.bytes, le, fieldAt, cut, ofLe]

/-- The KIND of an IDLE flit stands in its first byte (R376). -/
theorem kind_emptyFlit : fieldAt (s.emptyFlit u k).bytes 0 1 % 4 = kindIdle := by
  rw [fieldAt_flitBytes]
  simp only [State.emptyFlit, kindIdle]
  omega

/-- What is sent leaves the registers. -/
@[simp] theorem State.rd_send (w : UnitId) (o : Out) (f : Fld) : ((Prog.send u o).run s).rd w f = s.rd w f := by simp

/-- The departure of an IDLE flit (R376). -/
theorem depart_idle (f : Flit) (hi : f.kind = kindIdle) : (Prog.depart u k f).run s =
    (Prog.modPort u k fun p => { p with nakOut := false }).run ((Prog.cond (u == .htu) (.count .htu (Reg.TAP_DIE_CNT_COUNT (8 + k)))).run
      ((Prog.count u (Reg.FUR_PORT_TX_FLITS k)).run ((Prog.send u (.flit k f.bytes)).run s))) := by
  have hk : (f.kind != kindIdle) = false := by simp [hi]
  simp only [Prog.depart, Prog.run_get, if_pos hi, Prog.run_seq_cons, Prog.run_seq_nil, hk, Prog.linkEnergy, Prog.run_opt_none,
    Prog.run_cond, Bool.false_eq_true, if_false, ite_self]

/-- What the departure of an IDLE flit leaves (R376). -/
theorem depart_idle_state (f : Flit) (hi : f.kind = kindIdle) (hk : k < portCount u) : let t := (Prog.depart u k f).run s
    (t.dev u).out = (s.dev u).out ++ [.flit k f.bytes] ∧ t.rd u (Reg.FUR_PORT_TX_FLITS k) = (s.rd u (Reg.FUR_PORT_TX_FLITS k) + 1) % 2 ^ 64 ∧
    (t.port u k).retry = (s.port u k).retry := by
  intro t
  have ht : t = _ := depart_idle s u k f hi
  have hn (h : (u == .htu) = true) : 8 + k < 64 := by
    rw [beq_iff_eq.1 h, portCount] at hk
    omega
  refine ⟨?_, ?_, ?_⟩
  · rw [ht, Prog.modPort, Prog.run_dev, State.modDev_dev, Prog.run_cond]
    split <;> simp
  · rw [ht, State.rd_modPort, rd_dieCount _ _ _ _ _ (by simp [Reg.FUR_PORT_TX_FLITS]; omega) hn, Prog.run_count,
      State.rd_wr_same _ _ _ _ (by simp [Reg.FUR_PORT_TX_FLITS]), State.rd_send]
    rfl
  · rw [ht, State.port_modPort, port_dieCount, Prog.run_count, State.port_wr]
    simp [State.port]

/-- What an idle slot leaves (R376, R389). -/
theorem flitSlot_idle_state (hk : k < portCount u) (hu : s.rd u (Reg.FUR_PORT_STATE k) = portUp) (h : (s.port u k).resend = [])
    (hf : (s.port u k).retry.length < 64) (hr : (s.port u k).relay = []) (hc : (s.port u k).ctl = []) (ht : (s.port u k).time = [])
    (hn : (s.dev u).conns = []) : let t := (Prog.flitSlot u k).run s
    (t.dev u).out = (s.dev u).out ++ [.flit k (((Prog.fillParts u).run s).emptyFlit u k).bytes] ∧
      t.rd u (Reg.FUR_PORT_TX_FLITS k) = (s.rd u (Reg.FUR_PORT_TX_FLITS k) + 1) % 2 ^ 64 ∧ (t.port u k).retry = (s.port u k).retry := by
  have hrun := flitSlot_idle s u k hu h hf hr hc ht hn
  simp only [hrun]
  obtain ⟨ho, hx, hy⟩ := depart_idle_state ((Prog.modPort u k fun p => { p with slots := 0 }).run ((Prog.fillParts u).run s)) u k
    (((Prog.fillParts u).run s).emptyFlit u k) rfl hk
  refine ⟨ho.trans ?_, hx.trans ?_, hy.trans ?_⟩
  · simp [Prog.modPort, Prog.fillParts]
  · rw [State.rd_modPort]
    simp [Prog.fillParts]
  · rw [State.port_modPort, port_fillParts]

-- queue samples

/-- One queue's sample (R391). -/
def Prog.sampleOne (u : UnitId) (p q : Nat) : Prog := .get fun s =>
  .cond ((s.queueDepth u p q).1 != 0 || s.rd u (Reg.SCH_Q_DEPTH p q) != 0) <| .seq [
    .wr u (Reg.SCH_Q_DEPTH p q) (min (s.queueDepth u p q).1 (2 ^ 24 - 1)),
    .wr u (Reg.SCH_Q_DEPTH_MAX p q) (max (s.rd u (Reg.SCH_Q_DEPTH_MAX p q)) (min (s.queueDepth u p q).1 (2 ^ 24 - 1))),
    .wr u (Reg.SCH_Q_DELAY_MAX_NS p q) (max (s.rd u (Reg.SCH_Q_DELAY_MAX_NS p q)) (min (s.queueDepth u p q).2 (2 ^ 32 - 1)))]

/-- The row samples the occupancy, then each queue of each partition (R391). -/
theorem sampleQueues_eq : Prog.sampleQueues u
    = .both (.queueSample u) (.each (List.range 256) fun p => .each (List.range 6) fun q => .sampleOne u p q) := rfl

/-- Programs run one after another that each bring what `read` shows to its goal, and leave what the others show, bring all to their goals. -/
theorem each_reaches {β γ : Type} {read : β → State → γ} {goal : β → γ} {inv : State → Prop} {f : β → Prog} (l : List β)
    (hinv : ∀ b ∈ l, ∀ s, inv s → inv ((f b).run s)) (hgoal : ∀ b ∈ l, ∀ s, inv s → read b ((f b).run s) = goal b)
    (hkeep : ∀ b ∈ l, ∀ c ∈ l, b ≠ c → (f c).fixes (read b)) (s : State) (hs : inv s) :
    inv ((Prog.each l f).run s) ∧ ∀ b ∈ l, read b ((Prog.each l f).run s) = goal b := by
  induction l generalizing s with
  | nil => exact ⟨hs, fun b hb => absurd hb List.not_mem_nil⟩
  | cons c l ih =>
    have hc := hinv c List.mem_cons_self s hs
    obtain ⟨hi, hl⟩ := ih (fun b hb => hinv b (List.mem_cons_of_mem _ hb)) (fun b hb => hgoal b (List.mem_cons_of_mem _ hb))
      (fun b hb d hd => hkeep b (List.mem_cons_of_mem _ hb) d (List.mem_cons_of_mem _ hd)) _ hc
    refine ⟨hi, fun b hb => ?_⟩
    by_cases hm : b ∈ l
    · exact hl b hm
    · obtain rfl : b = c := (List.mem_cons.1 hb).resolve_right hm
      exact (Prog.fixes_each (fun d hd => hkeep b hb d (List.mem_cons_of_mem _ hd) (by rintro rfl; exact hm hd)) _).trans
        (hgoal b hb s hs)

/-- A queue's sample leaves all but registers. -/
theorem sampleOne_dev (p q : Nat) (w : UnitId) : (Prog.sampleOne u p q).fixes fun s => (s.dev w, s.hx, s.vx) := by
  refine Prog.fixes_get fun s => Prog.fixes_cond (Prog.fixes_seq_cons ?_ (Prog.fixes_seq_cons ?_ (Prog.fixes_seq_cons ?_ Prog.fixes_seq_nil))) <;>
    exact fun t => by simp

/-- A queue's sample shows its depth (R391). -/
theorem rd_sampleOne (p q : Nat) : ((Prog.sampleOne u p q).run s).rd u (Reg.SCH_Q_DEPTH p q) = min (s.queueDepth u p q).1 (2 ^ 24 - 1) := by
  rw [Prog.sampleOne, Prog.run_get, Prog.run_cond]
  split
  · simp [State.rd_wr_other, State.rd_wr_same, Reg.SCH_Q_DEPTH, Reg.SCH_Q_DEPTH_MAX, Reg.SCH_Q_DELAY_MAX_NS]
  · next h =>
    simp only [Bool.or_eq_true, bne_iff_ne, not_or, not_not] at h
    rw [h.1, h.2]
    rfl

/-- A queue's sample leaves the depth of every other (R391). -/
theorem rd_sampleOne_other (p q p' q' : Nat) (hq : q < 6) (hq' : q' < 6) (h : ¬ (p = p' ∧ q = q')) :
    (Prog.sampleOne u p' q').fixes fun s => s.rd u (Reg.SCH_Q_DEPTH p q) := by
  have hw (f : Fld) (v : Nat) (hf : f.off = (Reg.SCH_Q_DEPTH p' q').off ∨ f.off = (Reg.SCH_Q_DEPTH p' q').off + 8) :
      (Prog.wr u f v).fixes fun s => s.rd u (Reg.SCH_Q_DEPTH p q) :=
    fun s => State.rd_wr_other _ _ _ _ _ (Or.inr (Or.inl (by simp only [Reg.SCH_Q_DEPTH] at hf ⊢; omega)))
  refine Prog.fixes_get fun s => Prog.fixes_cond (Prog.fixes_seq_cons (hw _ _ (Or.inl rfl)) (Prog.fixes_seq_cons (hw _ _ (Or.inl rfl))
    (Prog.fixes_seq_cons (hw _ _ (Or.inr ?_)) Prog.fixes_seq_nil)))
  simp [Reg.SCH_Q_DELAY_MAX_NS, Reg.SCH_Q_DEPTH]
  omega

/-- A queue's depth depends on the unit's common part alone. -/
theorem queueDepth_congr {s t : State} (h : t.dev u = s.dev u) (p q : Nat) : t.queueDepth u p q = s.queueDepth u p q := by
  simp only [State.queueDepth, State.ns, h]

/-- The depths of a partition's queues in the registers. -/
def State.depths (s : State) (u : UnitId) (p : Nat) : List Nat := (List.range 6).map fun q => s.rd u (Reg.SCH_Q_DEPTH p q)

/-- The samples of a partition's queues show their depths (R391). -/
theorem samplePart (p : Nat) (t : State) (ht : (t.dev u, t.hx, t.vx) = (s.dev u, s.hx, s.vx)) :
    let b := (Prog.each (List.range 6) fun q => .sampleOne u p q).run t
    (b.dev u, b.hx, b.vx) = (s.dev u, s.hx, s.vx) ∧ b.depths u p = (List.range 6).map fun q => min (s.queueDepth u p q).1 (2 ^ 24 - 1) := by
  obtain ⟨hi, hr⟩ := each_reaches (read := fun q s => s.rd u (Reg.SCH_Q_DEPTH p q)) (goal := fun q => min (s.queueDepth u p q).1 (2 ^ 24 - 1))
    (inv := fun t => (t.dev u, t.hx, t.vx) = (s.dev u, s.hx, s.vx)) (f := fun q => .sampleOne u p q) (List.range 6)
    (fun q _ t ht => (sampleOne_dev u p q u t).trans ht)
    (fun q _ t ht => (rd_sampleOne t u p q).trans (by rw [queueDepth_congr u (Prod.mk.inj ht).1]))
    (fun q hq q' hq' h => rd_sampleOne_other u p q p q' (List.mem_range.1 hq) (List.mem_range.1 hq') fun e => h e.2) t ht
  exact ⟨hi, List.map_congr_left fun q hq => hr q hq⟩

/-- The samples of another partition leave a partition's depths (R391). -/
theorem samplePart_other (p p' : Nat) (h : p ≠ p') : (Prog.each (List.range 6) fun q => .sampleOne u p' q).fixes fun s => s.depths u p :=
  fun _ => List.map_congr_left fun q hq => Prog.fixes_each (fun q' hq' =>
    rd_sampleOne_other u p q p' q' (List.mem_range.1 hq) (List.mem_range.1 hq') fun e => h e.1) _

/-- An occupancy sample leaves the queues. -/
theorem queueDepth_queueSample (p q : Nat) : ((Prog.queueSample u).run s).queueDepth u p q = s.queueDepth u p q := by
  simp [Prog.queueSample, State.queueDepth, State.ns]

/-- QUEUE_SAMPLE shows the occupancy and every queue's depth (R219, R391). -/
theorem sampleQueues_state : let t := (Prog.sampleQueues u).run s
    (t.dev u).ladder.occ = s.occupancy u ∧ t.hx = s.hx ∧ t.vx = s.vx ∧
      ∀ q < 256, ∀ v < 6, t.rd u (Reg.SCH_Q_DEPTH q v) = min (s.queueDepth u q v).1 (2 ^ 24 - 1) := by
  intro t
  have ht : t = (Prog.each (List.range 256) fun p => .each (List.range 6) fun q => .sampleOne u p q).run ((Prog.queueSample u).run s) := by
    rw [← Prog.run_both, ← sampleQueues_eq]
  obtain ⟨hi, hr⟩ := each_reaches (read := fun p s => s.depths u p)
    (goal := fun p => (List.range 6).map fun q => min (((Prog.queueSample u).run s).queueDepth u p q).1 (2 ^ 24 - 1))
    (inv := fun t => (t.dev u, t.hx, t.vx) = (((Prog.queueSample u).run s).dev u, ((Prog.queueSample u).run s).hx, ((Prog.queueSample u).run s).vx))
    (f := fun p => .each (List.range 6) fun q => .sampleOne u p q) (List.range 256)
    (fun p _ t ht => (samplePart _ u p t ht).1) (fun p _ t ht => (samplePart _ u p t ht).2) (fun p _ p' _ h => samplePart_other u p p' h)
    ((Prog.queueSample u).run s) rfl
  rw [← ht] at hi hr
  obtain ⟨hd, hx⟩ := Prod.mk.inj hi
  obtain ⟨hh, hv⟩ := Prod.mk.inj hx
  refine ⟨?_, ?_, ?_, fun q hq v hv => ?_⟩
  · rw [hd]; simp [Prog.queueSample]
  · rw [hh]; simp [Prog.queueSample]
  · rw [hv]; simp [Prog.queueSample]
  · rw [← queueDepth_queueSample]
    exact List.map_inj_left.1 (hr q (List.mem_range.2 hq)) v (List.mem_range.2 hv)

/-- A connection without a path aborts what it forwarded (R26, R396). -/
theorem noPath_run (c : Nat) : (Prog.noPath u c).run s =
    (let b := if u = .htu then (Prog.repath u c).run s else s
    if (b.conn u c).path = none then (Prog.abortFwds u c).run b else b) := by
  cases u <;> simp [Prog.noPath, Prog.run_cond]

/-- Settles O58, row by row: flits that arrive, the retry timeout, flit slots, the time gate, queue samples and lost paths. -/
theorem flitsKeepTheirSequence : Obligations.FlitsKeepTheirSequence := by
  intro u k s hk hr up p rx crc
  have retry : exec (.retryTimeout u k) s = .next ((Prog.retryTimeout u k).run s) := next_port _ hk hr
  have slot : exec (.flitSlot u k) s = .next ((Prog.flitSlot u k).run s) := next_port _ hk hr
  refine ⟨fun hn => ⟨fun b => (next_port _ hk hr).trans ?_, retry.trans ?_, slot.trans ?_⟩,
    fun b hu hb => (dataFlits s u k hk hr hu).1 b hb, fun b f hu hb => (dataFlits s u k hk hr hu).2 b f hb,
    fun hu h => ?_, fun hu h hn => ⟨_, retry, retryTimeout_state s u k hu h hn⟩,
    fun hu h hf hre hc ht hcs => ?_, fun hu h hf => ?_, fun n b l hu h => ?_, fun g hg => ?_, ⟨_, next_up _ hr, sampleQueues_state s u⟩, fun c hc => ?_⟩
  · rw [(portDownRows s u k hn).1 b]
  · rw [(portDownRows s u k hn).2.1]
  · rw [(portDownRows s u k hn).2.2]
  · rw [retry, retryTimeout_none s u k h]
  · obtain ⟨ho, hx, hy⟩ := flitSlot_idle_state s u k hk hu h hf hre hc ht hcs
    exact ⟨_, _, slot, ho, length_flitBytes _, kind_emptyFlit _ u k, hx, hy⟩
  · rw [slot, flitSlot_full s u k hu h hf]
  · rw [slot, flitSlot_resend s u k n b l hu h]
  · refine (next_up _ hr).trans ?_
    rw [hg]
    rfl
  · refine ((nextIf_of hc _ s).trans (next_thenSettle _ hr)).trans ?_
    rw [noPath_run]

end Sys2Proof.Machine

end

section

/-! # Records that leave the ports alone -/

namespace Sys2Proof.Machine

variable {α : Type} (s : State) (u w : UnitId) (k : Nat)

-- rules of frames

/-- A program that writes no word of a field leaves the field. -/
theorem Prog.fixes_rd_of_keeps {F : UnitId → Nat → Prop} {p : Prog} (h : p.keeps F) {g : Fld} (hn : ¬ F w g.off) :
    p.fixes fun s => s.rd w g := fun s => Prog.rd_keeps h g hn s

/-- A write leaves a field of another word or of other bits. -/
theorem Prog.fixes_rd_wr {f g : Fld} (v : Nat) (h : w ≠ u ∨ g.off ≠ f.off ∨ g.lsb + g.width ≤ f.lsb ∨ f.lsb + f.width ≤ g.lsb) :
    (Prog.wr u f v).fixes fun s => s.rd w g := fun _ => State.rd_wr_other _ _ _ _ _ h

/-- A counter that counts leaves a field of another word or of other bits. -/
theorem Prog.fixes_rd_bumpBy {f g : Fld} (n : Nat) (h : w ≠ u ∨ g.off ≠ f.off ∨ g.lsb + g.width ≤ f.lsb ∨ f.lsb + f.width ≤ g.lsb) :
    (Prog.bumpBy u f n).fixes fun s => s.rd w g := Prog.fixes_get fun _ => Prog.fixes_rd_wr u w _ h

/-- A program that writes no register leaves every field. -/
theorem Prog.fixes_rd_of_silent {p : Prog} (h : p.keeps fun _ _ => False) (g : Fld) : p.fixes fun s => s.rd w g :=
  Prog.fixes_rd_of_keeps w h id

-- an event record leaves the ports

/-- A change of the recorder leaves the ports. -/
theorem Prog.fixes_evr_ports (f : Evr → Evr) : (Prog.evr u f).fixes fun s => (s.dev u).ports := fun s => by simp [Prog.evr]

/-- A register write leaves the ports. -/
theorem Prog.fixes_wr_ports (f : Fld) (v : Nat) : (Prog.wr u f v).fixes fun s => (s.dev u).ports := fun s => by simp

/-- A page that is programmed leaves the ports (R416). -/
theorem Prog.fixes_programPage_ports : (Prog.programPage u).fixes fun s => (s.dev u).ports := by
  refine Prog.fixes_both (Prog.fixes_get fun s => Prog.fixes_cond (Prog.fixes_seq_cons (Prog.fixes_wr_ports _ _ _)
    (Prog.fixes_evr_ports _ _))) (Prog.fixes_get fun s => Prog.fixes_both (Prog.fixes_cond fun t => by cases u <;> rfl) (Prog.fixes_cond ?_))
  exact Prog.fixes_seq_cons (Prog.fixes_wr_ports _ _ _) fun t => by simp [Prog.seq, Dev.programOpen]

/-- A record that is committed leaves the ports (R414). -/
theorem Prog.fixes_commitEv_ports (e : EvRec) : (Prog.commitEv u e).fixes fun s => (s.dev u).ports :=
  Prog.fixes_get fun _ => Prog.fixes_seq_cons (Prog.fixes_cond (Prog.fixes_get fun _ => Prog.fixes_wr_ports _ _ _))
    (Prog.fixes_seq_cons (Prog.fixes_evr_ports _ _) (Prog.fixes_get fun _ => Prog.fixes_cond (Prog.fixes_programPage_ports u)))

/-- The record of an event leaves the ports (R414 to R416). -/
theorem Prog.fixes_event_ports (typ : Nat) (pl : List Byte) : (Prog.event u typ pl).fixes fun s => (s.dev u).ports := by
  have fold (f : Fold) (g : Evr → Evr) : (Prog.both (.commitEv u f.copy) (.evr u g)).fixes fun s => (s.dev u).ports :=
    Prog.fixes_both (Prog.fixes_commitEv_ports u _) (Prog.fixes_evr_ports u _)
  refine Prog.fixes_both (Prog.fixes_get fun s => Prog.fixes_opt fun f => fold f _) (Prog.fixes_get fun s => ?_)
  refine Prog.fixes_ite (Prog.fixes_evr_ports u _) ?_
  split
  · exact Prog.fixes_seq_cons (Prog.fixes_cond (Prog.fixes_opt fun f => fold f _)) (Prog.fixes_evr_ports u _)
  · exact Prog.fixes_both (Prog.fixes_commitEv_ports u _) (Prog.fixes_evr_ports u _)

-- a record of the VTA leaves the state of its ports

/-- The state of a port of the VTA (R375). -/
def State.vtaPort (k : Nat) (s : State) : Nat := s.rd .vta (Reg.FUR_PORT_STATE k)

/-- A register below the ports, or a field above STATE, leaves the state of the ports. -/
theorem Prog.fixes_wr_vtaPort (f : Fld) (v : Nat) (h : f.off < 0x90000 ∨ 3 ≤ f.lsb) : (Prog.wr .vta f v).fixes (State.vtaPort k) := by
  refine Prog.fixes_rd_wr .vta .vta v ?_
  simp only [Reg.FUR_PORT_STATE]
  omega

/-- So does a counter that saturates. -/
theorem Prog.fixes_bumpBy_vtaPort (f : Fld) (n : Nat) (h : f.off < 0x90000 ∨ 3 ≤ f.lsb) : (Prog.bumpBy .vta f n).fixes (State.vtaPort k) :=
  Prog.fixes_get fun _ => Prog.fixes_wr_vtaPort k f _ h

/-- A program that writes no register leaves the state of the ports. -/
theorem Prog.fixes_silent_vtaPort {p : Prog} (h : p.keeps fun _ _ => False) : p.fixes (State.vtaPort k) := Prog.fixes_rd_of_silent .vta h _

/-- An event record leaves the state of the ports (R414). -/
theorem Prog.fixes_event_vtaPort (typ : Nat) (pl : List Byte) : (Prog.event .vta typ pl).fixes (State.vtaPort k) := by
  refine Prog.fixes_rd_of_keeps .vta (Prog.event_keeps .vta typ pl) fun ⟨_, h⟩ => ?_
  simp only [Reg.FUR_PORT_STATE, Reg.EVR_STATUS_BUCKET, Reg.EVR_STATUS_DROPPED] at h
  omega

/-- A counter that wraps. -/
theorem Prog.fixes_count_vtaPort (f : Fld) (n : Nat) (h : f.off < 0x90000 ∨ 3 ≤ f.lsb) : (Prog.count .vta f n).fixes (State.vtaPort k) :=
  Prog.fixes_get fun _ => Prog.fixes_wr_vtaPort k f _ h

/-- An engine that is taken leaves the state of the ports (R365). -/
theorem Prog.fixes_takeEngine_vtaPort (n : Nat) : (Prog.takeEngine .vta n).fixes (State.vtaPort k) := by
  refine Prog.fixes_get fun s => Prog.fixes_both (Prog.fixes_silent_vtaPort k trivial) (Prog.fixes_both (Prog.fixes_silent_vtaPort k trivial)
    (Prog.fixes_get fun t => ?_))
  exact Prog.fixes_wr_vtaPort k Reg.CMP_STATUS_BUSY _ (by decide)

/-- A unit of input in an engine leaves the state of the ports where what takes its output does (R364, R365). -/
theorem Prog.fixes_compress_vtaPort (b : List Byte) (q : List Byte → Prog) (h : ∀ d, (q d).fixes (State.vtaPort k)) :
    (Prog.compress .vta b q).fixes (State.vtaPort k) := by
  refine Prog.fixes_get fun s => Prog.fixes_seq_cons (Prog.fixes_takeEngine_vtaPort k _) ?_
  refine Prog.fixes_seq_cons (Prog.fixes_count_vtaPort k Reg.CMP_BYTES_IN _ (by decide)) ?_
  refine Prog.fixes_seq_cons (Prog.fixes_count_vtaPort k Reg.CMP_BYTES_OUT _ (by decide)) ?_
  exact Prog.fixes_seq_cons (Prog.fixes_cond (Prog.fixes_bumpBy_vtaPort k Reg.CMP_STATUS_STORED 1 (by decide)))
    (Prog.fixes_seq_cons (h _) Prog.fixes_seq_nil)

/-- The pages of a segment leave the registers (R369). -/
theorem Prog.writePages_keeps (g : Segment) (comp : Bool) (n : Nat) (d : List Byte) : (Prog.writePages g comp n d).keeps fun _ _ => False :=
  fun _ => ⟨Prog.keeps_each fun _ => ⟨trivial, trivial⟩, trivial⟩

/-- A segment that closes leaves the state of the ports (R369, R370). -/
theorem Prog.fixes_closeSegment_vtaPort (g : Segment) : (Prog.closeSegment g).fixes (State.vtaPort k) := by
  refine Prog.fixes_get fun s => ?_
  extract_lets bytes p isTrace comp cap same store
  have hs (d : List Byte) : (store d).fixes (State.vtaPort k) := by
    refine Prog.fixes_get fun t => Prog.fixes_ite ?_ (Prog.fixes_cond (Prog.fixes_both (Prog.fixes_silent_vtaPort k (Prog.writePages_keeps _ _ _ _))
      (Prog.fixes_silent_vtaPort k trivial)))
    refine Prog.fixes_seq_cons (Prog.fixes_bumpBy_vtaPort k _ 1 (Or.inr (by simp [Reg.TRC_ARCH_PART_REFUSED])))
      (Prog.fixes_seq_cons (Prog.fixes_silent_vtaPort k trivial)
      (Prog.fixes_get fun _ => Prog.fixes_cond ?_))
    exact Prog.fixes_seq_cons (Prog.fixes_event_vtaPort k _ _) (Prog.fixes_silent_vtaPort k trivial)
  refine Prog.fixes_seq_cons (Prog.fixes_silent_vtaPort k trivial) (Prog.fixes_cond (Prog.fixes_ite (Prog.fixes_ite ?_ ?_) (hs _)))
  · exact Prog.fixes_compress_vtaPort k _ _ hs
  · exact Prog.fixes_both (Prog.fixes_bumpBy_vtaPort k Reg.CMP_STATUS_BYPASS 1 (by decide)) (hs _)

/-- A record that joins its segment leaves the state of the ports (R369). -/
theorem Prog.fixes_archive_vtaPort (r : Rec) : (Prog.archive r).fixes (State.vtaPort k) :=
  Prog.fixes_get fun _ => Prog.fixes_cond (Prog.fixes_both (Prog.fixes_silent_vtaPort k trivial)
    (Prog.fixes_cond (Prog.fixes_closeSegment_vtaPort k _)))

/-- The records that leave on the uplinks touch no register (R435). -/
theorem Prog.uplink_keeps : Prog.uplink.keeps fun _ _ => False := fun _ => ⟨trivial, Prog.keeps_each fun _ => Prog.ether_keeps _ _ _ _⟩

/-- A stream that changes touches no register. -/
theorem Prog.modStream_keeps (sid : Nat) (f : Stream → Stream) : (Prog.modStream u sid f).keeps fun _ _ => False := trivial

/-- A record that leaves the VTA leaves the state of its ports. -/
theorem Prog.fixes_deliver_vtaPort (sid svc : Nat) (st : Stream) (r : Rec) : (Prog.deliver .vta sid svc st r).fixes (State.vtaPort k) :=
  Prog.fixes_get fun _ => Prog.fixes_seq_cons (Prog.fixes_silent_vtaPort k trivial) (Prog.fixes_seq_cons
    (Prog.fixes_both (Prog.fixes_archive_vtaPort k r) (Prog.fixes_silent_vtaPort k Prog.uplink_keeps)) Prog.fixes_seq_nil)

/-- A record with its number leaves the state of the ports (R124). -/
theorem Prog.fixes_put_vtaPort (sid : Nat) (r : Rec) (svc : Option Nat) : (Prog.put .vta sid r svc).fixes (State.vtaPort k) :=
  Prog.fixes_get fun _ => Prog.fixes_opt fun _ => Prog.fixes_both (Prog.fixes_silent_vtaPort k (Prog.modStream_keeps _ _ _))
    (Prog.fixes_deliver_vtaPort k _ _ _ _)

/-- A full chain that closes leaves the state of the ports (R125). -/
theorem Prog.fixes_closeFull_vtaPort (sid : Nat) : (Prog.closeFull .vta sid).fixes (State.vtaPort k) :=
  Prog.fixes_get fun _ => Prog.fixes_cond (Prog.fixes_get fun _ => Prog.fixes_opt fun _ => Prog.fixes_cond
    (Prog.fixes_both (Prog.fixes_silent_vtaPort k (Prog.modStream_keeps _ _ _)) (Prog.fixes_deliver_vtaPort k _ _ _ _)))

/-- The LOSS record of an open range leaves the state of the ports (R395). -/
theorem Prog.fixes_flushLoss_vtaPort (sid : Nat) : (Prog.flushLoss .vta sid).fixes (State.vtaPort k) :=
  Prog.fixes_get fun _ => Prog.fixes_opt fun _ => Prog.fixes_opt fun _ => Prog.fixes_cond (Prog.fixes_seq_cons (Prog.fixes_put_vtaPort k _ _ _)
    (Prog.fixes_seq_cons (Prog.fixes_silent_vtaPort k (Prog.modStream_keeps _ _ _)) (Prog.fixes_closeFull_vtaPort k sid)))

/-- A stream's next record leaves the state of the ports. -/
theorem Prog.fixes_putNext_vtaPort (sid : Nat) (svc t : Option Nat) (edit : Rec → Rec) :
    (Prog.putNext .vta sid svc t edit).fixes (State.vtaPort k) :=
  Prog.fixes_seq_cons (Prog.fixes_flushLoss_vtaPort k sid) (Prog.fixes_seq_cons
    (Prog.fixes_get fun _ => Prog.fixes_opt fun _ => Prog.fixes_put_vtaPort k _ _ _)
    (Prog.fixes_seq_cons (Prog.fixes_silent_vtaPort k (Prog.modStream_keeps _ _ _)) (Prog.fixes_closeFull_vtaPort k sid)))

/-- Records that are dropped leave the state of the ports (R395). -/
theorem Prog.fixes_dropRecs_vtaPort (sid n cause : Nat) : (Prog.dropRecs .vta sid n cause).fixes (State.vtaPort k) :=
  Prog.fixes_get fun _ => Prog.fixes_opt fun _ => Prog.fixes_both (Prog.fixes_silent_vtaPort k (Prog.modStream_keeps _ _ _))
    (Prog.fixes_bumpBy_vtaPort k _ n (Or.inr (by simp [Reg.SCH_Q_DROPS])))

/-- A record that the VTA produces, or drops, leaves the state of its ports. -/
theorem Prog.fixes_emitSvc_vtaPort (sid : Nat) (svc t : Option Nat) (edit : Rec → Rec) :
    (Prog.emitSvc .vta sid svc t edit).fixes (State.vtaPort k) :=
  Prog.fixes_get fun _ => Prog.fixes_cond (Prog.fixes_opt fun _ => Prog.fixes_ite (Prog.fixes_dropRecs_vtaPort k _ _ _)
    (Prog.fixes_ite (Prog.fixes_dropRecs_vtaPort k _ _ _) (Prog.fixes_putNext_vtaPort k _ _ _ _)))

/-- The members shown stand in registers of their own (R210). -/
theorem Prog.fixes_showMembers_vtaPort : Prog.showMembers.fixes (State.vtaPort k) := by
  refine Prog.fixes_get fun s => ?_
  refine Prog.fixes_seq_cons (Prog.fixes_wr_vtaPort k Reg.SHF_MEMBERS_PORTS _ (by decide)) ?_
  refine Prog.fixes_seq_cons (Prog.fixes_wr_vtaPort k Reg.SHF_MEMBERS_TRAYS _ (by decide)) ?_
  refine Prog.fixes_seq_cons (Prog.fixes_wr_vtaPort k Reg.SHF_MEMBERS_RACKS _ (by decide)) ?_
  exact Prog.fixes_wr_vtaPort k Reg.SHF_MEMBERS_ROWS _ (by decide)

/-- An input that leaves the merge points leaves the state of the ports (R211). -/
theorem Prog.fixes_inputGone_vtaPort (l : Level) (input cause : Nat) : (Prog.inputGone l input cause).fixes (State.vtaPort k) := by
  refine Prog.fixes_get fun s => Prog.fixes_seq_cons (Prog.fixes_silent_vtaPort k trivial) (Prog.fixes_seq_cons (Prog.fixes_silent_vtaPort k trivial)
    (Prog.fixes_seq_cons (Prog.fixes_each fun m _ => ?_) (Prog.fixes_showMembers_vtaPort k)))
  exact Prog.fixes_get fun _ => Prog.fixes_each fun _ _ => Prog.fixes_emitSvc_vtaPort k _ _ _ _

end Sys2Proof.Machine

end

section

/-! # Ports that train, fall and come back: O57 -/

namespace Sys2Proof.Machine

variable (s : State) (u : UnitId) (k c : Nat)

-- connections that take their best paths

/-- A program under a condition, in the case that it holds. -/
theorem Prog.fixes_cond_of {α : Type} {g : State → α} {b : Bool} {p : Prog} (h : b = true → p.fixes g) : (Prog.cond b p).fixes g := by
  cases b
  · exact Prog.fixes_skip
  · exact h rfl

/-- A change of a unit's connections leaves every register field. -/
theorem Prog.fixes_modConn_rd (f : Conn → Conn) (g : Fld) : (Prog.modConn u c f).fixes fun s => s.rd u g :=
  Prog.fixes_rd_of_silent u (Prog.keeps_dev u _) g

/-- A command that is forwarded leaves every register field. -/
theorem Prog.fixes_forward_rd (op : Nat) (p : Packet) (cmd : Option (Nat × BitVec 16)) (g : Fld) :
    (Prog.forward u c op p cmd).fixes fun s => s.rd u g := Prog.fixes_rd_of_silent u (fun _ => ⟨trivial, trivial⟩) g

/-- A connection that takes its best path writes FWD and REWOUND of ports, and what the loss of an input writes where the VTA finds none. -/
theorem rd_repath {g : Fld} (hb : g.lsb + g.width ≤ 3 ∨ (4 ≤ g.lsb ∧ g.off % 64 = 0) ∨ g.off % 64 = 32)
    (hi : (Prog.inputGone .tray c 2).fixes (fun s => s.rd u g) ∨ (u = .vta → (s.bestPath u c).isSome)) :
    ((Prog.repath u c).run s).rd u g = s.rd u g := by
  rw [Prog.repath, Prog.run_get]
  refine Prog.fixes_both (g := fun s => s.rd u g) (Prog.fixes_cond (Prog.fixes_rd_of_silent u Prog.keeps_draw g)) (Prog.fixes_cond ?_) s
  refine Prog.fixes_seq_cons (Prog.fixes_opt fun q => Prog.fixes_rd_bumpBy u u _ ?_) (Prog.fixes_seq_cons (Prog.fixes_modConn_rd u c _ g)
    (Prog.fixes_seq_cons (Prog.fixes_cond (Prog.fixes_rd_wr .vta u _ ?_)) (Prog.fixes_seq_cons
    (Prog.fixes_opt fun q => Prog.fixes_rd_of_silent u (Prog.keeps_dev u _) g) (Prog.fixes_seq_cons (Prog.fixes_cond (Prog.fixes_each fun f _ =>
    Prog.fixes_both (Prog.fixes_modConn_rd u c _ g) (Prog.fixes_forward_rd u c _ _ _ g))) (Prog.fixes_cond_of fun h => ?_)))))
  · simp only [Reg.FUR_PORT_REWOUND]
    omega
  · simp only [Reg.FUR_PORT_FWD]
    omega
  · simp only [Bool.and_eq_true, beq_iff_eq, Option.isNone_iff_eq_none] at h
    exact hi.resolve_right fun hp => by simp [h.2] at hp; exact hp h.1

/-- A connection that takes its best path leaves the states of the ports. -/
theorem fixes_repath_state : (Prog.repath u c).fixes fun s => s.rd u (Reg.FUR_PORT_STATE k) := fun s => by
  refine rd_repath s u c (Or.inl (by simp [Reg.FUR_PORT_STATE])) ?_
  cases u with
  | htu => exact Or.inr nofun
  | vta => exact Or.inl (Prog.fixes_inputGone_vtaPort k _ _ _)

/-- A port that leaves UP stands in the state it goes to (R375). -/
theorem rd_portLeaves (v : Nat) : ((Prog.portLeaves u k v).run s).rd u (Reg.FUR_PORT_STATE k) = v % 8 := by
  have hp : (Prog.repathAll u k).fixes fun s => s.rd u (Reg.FUR_PORT_STATE k) :=
    Prog.fixes_get fun _ => Prog.fixes_each fun c _ => fixes_repath_state u k c
  simp only [Prog.portLeaves, Prog.run_seq_cons, Prog.run_seq_nil, hp _, State.rd_modPort, Prog.run_wr]
  exact State.rd_wr_same s u (Reg.FUR_PORT_STATE k) v (by simp [Reg.FUR_PORT_STATE])

-- a port that comes UP

/-- A port that has come UP (R373): its registers, and its peer has not left. -/
structure State.cameUp (s : State) (u : UnitId) (k n : Nat) : Prop where
  state : s.rd u (Reg.FUR_PORT_STATE k) = portUp
  lanes : s.rd u (Reg.FUR_PORT_LANE_FAIL k) = 0
  upNs : s.rd u (Reg.FUR_PORT_UP_NS k) = n
  byed : (s.port u k).byed = false

variable {s u k} {n : Nat}

/-- A port of the VTA that is UP is a path of the connections that it can carry (R26, R381). -/
theorem State.cameUp.path (h : s.cameUp .vta k n) (hc : c ∈ portConns .vta k) : (s.bestPath .vta c).isSome := by
  have hp : s.pathUsable .vta k = true := by simp [State.pathUsable, State.usable, h.state, h.byed]
  have hk : partnerPort (partnerPort k) = k := by
    simp only [partnerPort]
    split <;> split <;> omega
  simp only [portConns, List.mem_cons, List.not_mem_nil, or_false] at hc
  rcases hc with rfl | rfl
  · simp [State.bestPath, connPorts, hp]
  · simp only [State.bestPath, connPorts, hk, hp, if_true]
    split <;> rfl

/-- A CONTROL message that waits leaves BYE of the ports. -/
theorem Prog.fixes_control_byed (q : Nat) (b : List Byte) (d : Nat) (f : Bool) :
    (Prog.control u q b d f).fixes fun s => (s.port u k).byed := fun s => by
  by_cases hq : k = q
  · subst hq
    simp [Prog.control]
  · simp [Prog.control, Prog.modPort, State.port, Sparse.get_mod_other _ _ _ hq]

/-- A connection that finds a path leaves BYE of the ports. -/
theorem byed_repath (hp : u = .vta → (s.bestPath u c).isSome) :
    (((Prog.repath u c).run s).port u k).byed = (s.port u k).byed := by
  have hw (w : UnitId) (f : Fld) (v : Nat) : (Prog.wr w f v).fixes fun s => (s.port u k).byed := fun s => by simp
  have hm (f : Conn → Conn) : (Prog.modConn u c f).fixes fun s => (s.port u k).byed := fun s => by simp [Prog.modConn, State.port]
  rw [Prog.repath, Prog.run_get]
  refine Prog.fixes_both (g := fun s => (s.port u k).byed) (Prog.fixes_cond fun t => by cases u <;> rfl) (Prog.fixes_cond ?_) s
  refine Prog.fixes_seq_cons (Prog.fixes_opt fun q => Prog.fixes_get fun _ => hw _ _ _) (Prog.fixes_seq_cons (hm _)
    (Prog.fixes_seq_cons (Prog.fixes_cond (hw _ _ _)) (Prog.fixes_seq_cons (Prog.fixes_opt fun q => Prog.fixes_control_byed q _ _ _)
    (Prog.fixes_seq_cons (Prog.fixes_cond (Prog.fixes_each fun f _ => Prog.fixes_both (hm _) (Prog.fixes_get fun _ =>
    Prog.fixes_both (fun t => by simp [State.port]) fun t => by simp [Prog.sendPkt, State.port]))) (Prog.fixes_cond_of fun h => ?_)))))
  simp only [Bool.and_eq_true, beq_iff_eq, Option.isNone_iff_eq_none] at h
  simp [h.2] at hp
  exact absurd h.1 hp

/-- A port that has come UP stays so as a connection that it can carry takes its best path. -/
theorem State.cameUp.repath (h : s.cameUp u k n) (hc : c ∈ portConns u k) : ((Prog.repath u c).run s).cameUp u k n := by
  have hp : u = .vta → (s.bestPath u c).isSome := by
    rintro rfl
    exact h.path c hc
  refine ⟨?_, ?_, ?_, ?_⟩
  · exact (fixes_repath_state u k c s).trans h.state
  · exact (rd_repath s u c (Or.inr (Or.inl (by simp only [Reg.FUR_PORT_LANE_FAIL]; omega))) (Or.inr hp)).trans h.lanes
  · exact (rd_repath s u c (Or.inr (Or.inr (by simp only [Reg.FUR_PORT_UP_NS]; omega))) (Or.inr hp)).trans h.upNs
  · exact (byed_repath c hp).trans h.byed

/-- What every element of a list keeps, the list keeps. -/
theorem each_invariant {β : Type} {inv : State → Prop} {f : β → Prog} (l : List β) (h : ∀ b ∈ l, ∀ s, inv s → inv ((f b).run s)) (s : State)
    (hs : inv s) : inv ((Prog.each l f).run s) := by
  induction l generalizing s with
  | nil => exact hs
  | cons b l ih => exact ih (fun c hc => h c (List.mem_cons_of_mem _ hc)) _ (h b List.mem_cons_self s hs)

/-- A port that has come UP stays so as its connections take their best paths. -/
theorem State.cameUp.repathAll (h : s.cameUp u k n) : ((Prog.repathAll u k).run s).cameUp u k n :=
  each_invariant (inv := fun t => t.cameUp u k n) _ (fun c hc _ ht => ht.repath c (List.mem_filter.1 hc).1) s h

/-- A program that leaves the registers and BYE of a port leaves it UP. -/
theorem State.cameUp.of_fixes {p : Prog} (h : s.cameUp u k n) (hr : p.keeps fun _ _ => False)
    (hb : p.fixes fun s => (s.port u k).byed) : (p.run s).cameUp u k n where
  state := (Prog.rd_keeps hr _ id s).trans h.state
  lanes := (Prog.rd_keeps hr _ id s).trans h.lanes
  upNs := (Prog.rd_keeps hr _ id s).trans h.upNs
  byed := (hb s).trans h.byed

variable (s u k)

/-- A peer heard for the first time, or again with the same number, changes nothing but its connection (R374). -/
theorem learnConn_same (number : BitVec 32) (h : (s.conn u c).peerNo = none ∨ (s.conn u c).peerNo = some number) :
    (Prog.learnConn u c number).run s = (Prog.modConn u c fun n => { n with peerNo := some number, die := s.connDie u c }).run s := by
  have hn : ((s.conn u c).peerNo.isSome && (s.conn u c).peerNo != some number) = false := by
    rcases h with h | h <;> simp [h]
  rw [Prog.learnConn, Prog.run_get]
  simp only [hn, Prog.run_both, Prog.run_cond_false]

/-- The port's registers are written as it comes UP (R373). -/
def Prog.upRegs (u : UnitId) (k : Nat) (t : TrainRun) (n : Nat) : Prog := .seq [
  .wr u (Reg.FUR_PORT_LANE_FAIL k) 0, .wr u (Reg.FUR_PORT_STATE k) portUp, .wr u (Reg.FUR_PORT_UP_NS k) n,
  .wr u (measField u k) t.meas.toNat, .modPort u k fun _ => {}]

/-- The asymmetry that training measures stands below the registers of the ports (R139). -/
theorem off_measField (hk : k < portCount u) : (measField u k).off < 0x90000 := by
  cases u with
  | htu => cases k <;> simp [measField, Reg.TIM_ASYM_A_MEAS, Reg.TIM_ASYM_B_MEAS]
  | vta =>
    simp only [portCount] at hk
    simp only [measField, Reg.TIM_ASYM_MEAS, Fld.at]
    omega

/-- With its registers written a port has come UP. -/
theorem cameUp_upRegs (t : TrainRun) (hk : k < portCount u) (hn : n < 2 ^ 64) : ((Prog.upRegs u k t n).run s).cameUp u k n := by
  have hm := off_measField u k hk
  have hm' (f : Fld) (hf : 0x90000 ≤ f.off) (s : State) : (s.wr u (measField u k) t.meas.toNat).rd u f = s.rd u f :=
    State.rd_wr_other _ _ _ _ _ (by omega)
  simp only [Prog.upRegs, Prog.run_seq_cons, Prog.run_seq_nil, Prog.run_wr]
  refine ⟨?_, ?_, ?_, by rw [State.port_modPort]⟩
  · rw [State.rd_modPort, hm' _ (by simp [Reg.FUR_PORT_STATE]), State.rd_wr_other _ _ _ _ _ (by simp [Reg.FUR_PORT_STATE, Reg.FUR_PORT_UP_NS]),
      State.rd_wr_same _ _ _ _ (by simp [Reg.FUR_PORT_STATE])]
    rfl
  · rw [State.rd_modPort, hm' _ (by simp [Reg.FUR_PORT_LANE_FAIL]), State.rd_wr_other _ _ _ _ _ (by simp [Reg.FUR_PORT_LANE_FAIL, Reg.FUR_PORT_UP_NS]),
      State.rd_wr_other _ _ _ _ _ (by simp [Reg.FUR_PORT_LANE_FAIL, Reg.FUR_PORT_STATE]),
      State.rd_wr_same _ _ _ _ (by simp [Reg.FUR_PORT_LANE_FAIL]), Nat.zero_mod]
  · rw [State.rd_modPort, hm' _ (by simp only [Reg.FUR_PORT_UP_NS]; omega), State.rd_wr_same _ _ _ _ (by simp [Reg.FUR_PORT_UP_NS])]
    exact Nat.mod_eq_of_lt hn

/-- The registers of a port that comes UP leave the connections. -/
theorem conn_upRegs (t : TrainRun) : ((Prog.upRegs u k t n).run s).conn u c = s.conn u c := by
  simp [Prog.upRegs, Prog.modPort, State.conn]

/-- The connection whose number training tells: the HTU's own, or that of the VTA's port (R24, R374). -/
def trainConn : UnitId → Nat → Nat
  | .htu, _ => 0
  | .vta, k => k

/-- The exchange with a peer that starts on a port leaves a port UP (R114). -/
theorem State.cameUp.spdmGo (hk : k < 64) (h : s.cameUp .vta k n) : ((Prog.spdmGo .vta k 0).run s).cameUp .vta k n := by
  refine h.of_fixes (fun t => ⟨trivial, ?_⟩) fun t => ?_
  · rw [Prog.spdmAgain, if_pos hk]
    exact fun _ => ⟨trivial, trivial⟩
  · simp [Prog.spdmGo, Prog.spdmAgain, hk, Prog.forward, Prog.sendPkt, State.port]

/-- A port that comes UP towards a peer that its connection has not heard (R373, R374). -/
theorem cameUp_portIsUp (t : TrainRun) (hk : k < portCount u) (hn : (s.conn u (trainConn u k)).peerNo = none)
    (ha : (s.port u k).add = none) : ((Prog.portIsUp u k t).run s).cameUp u k (s.ns u) := by
  have hu := cameUp_upRegs s u k t hk (show s.ns u < 2 ^ 64 from Nat.mod_lt _ (by decide))
  have hl : ((Prog.cond (u == .vta || k == 0) (.learnConn u (trainConn u k) (BitVec.ofNat 32 t.conn))).run
      ((Prog.upRegs u k t (s.ns u)).run s)).cameUp u k (s.ns u) := by
    rw [Prog.run_cond, learnConn_same _ _ _ _ (Or.inl (by rw [conn_upRegs]; exact hn))]
    split
    · exact hu.of_fixes (Prog.keeps_dev u _) fun t => by simp [Prog.modConn, State.port]
    · exact hu
  have hs : ((Prog.portIsUp u k t).run s) = (Prog.cond (u == .vta) (.spdmGo .vta k 0)).run ((Prog.repathAll u k).run
      ((Prog.cond (u == .vta || k == 0) (.learnConn u (trainConn u k) (BitVec.ofNat 32 t.conn))).run
      ((Prog.upRegs u k t (s.ns u)).run s))) := by
    simp only [Prog.portIsUp, Prog.run_get, ha, Prog.opt, Prog.upRegs, Prog.run_seq_cons, Prog.run_seq_nil]
    cases u <;> simp only [trainConn, Prog.run]
  rw [hs]
  cases u with
  | htu => exact hl.repathAll
  | vta => exact hl.repathAll.spdmGo _ _ hk

-- training

/-- A port trains: its function runs, its peer is not refused, and it is DOWN, in TRAINING or in RETRAIN (R373). -/
def State.trains (s : State) (u : UnitId) (k : Nat) : Bool :=
  [portDown, portTraining, portRetrain].contains (s.rd u (Reg.FUR_PORT_STATE k)) && !(s.port u k).refused && (s.fn u (fidPort k)).st == .running

/-- The peer that training finds is not one that the port expects (R3, R373). -/
def wrongPeer (u : UnitId) (k : Nat) (r : TrainRun) : Prop :=
  r.part % 4096 ≠ peerPart u k ∨ (r.part % 4096 = 0x4A2 ∧ r.gen % 16 = 1)

/-- The state with the peer named that training found (R373). -/
def State.peerNamed (s : State) (u : UnitId) (k : Nat) (r : TrainRun) : State :=
  (s.wr u (Reg.FUR_PORT_PEER_PART k) r.part).wr u (Reg.FUR_PORT_PEER_GEN k) r.gen

variable {r : TrainRun}

/-- A port that does not train (R373). -/
theorem training_idle (h : s.trains u k = false) : (Prog.training u k r).run s = s := by
  rw [Prog.training, Prog.run_get]
  exact congrArg (fun b => (Prog.cond b _).run s) h

/-- A port that trains and finds no peer goes DOWN (R373). -/
theorem training_alone (h : s.trains u k = true) (hp : r.peer = false) :
    (Prog.training u k r).run s = s.wr u (Reg.FUR_PORT_STATE k) portDown := by
  rw [State.trains] at h
  simp only [Prog.training, Prog.run_get, h, Prog.run_cond_true, hp, Bool.not_false, if_true, Prog.run_wr]

/-- A port that trains and finds a wrong peer refuses it (R373). -/
theorem training_wrong (h : s.trains u k = true) (hp : r.peer = true) (hw : wrongPeer u k r) : ∃ pl, (Prog.training u k r).run s =
    (Prog.event u 0x0901 pl).run ((Prog.modPort u k fun p => { p with refused := true }).run
      ((s.peerNamed u k r).wr u (Reg.FUR_PORT_STATE k) portDown)) := by
  refine ⟨le 1 k ++ zeros 1 ++ le 2 r.part ++ le 1 r.gen ++ le 1 r.step ++ zeros 2, ?_⟩
  rw [State.trains] at h
  rw [wrongPeer] at hw
  simp only [Prog.training, Prog.run_get, h, Prog.run_cond_true, hp, Bool.not_true, Bool.false_eq_true, if_false, Prog.run_both, Prog.run_wr,
    if_pos hw, Prog.run_seq_cons, Prog.run_seq_nil, State.peerNamed]

/-- A port whose lanes fail stays DOWN and names them (R373). -/
theorem training_failed (h : s.trains u k = true) (hp : r.peer = true) (hw : ¬ wrongPeer u k r) (hl : r.laneFail ≠ 0) :
    ∃ pl, (Prog.training u k r).run s = (Prog.event u 0x0902 pl).run
      (((s.peerNamed u k r).wr u (Reg.FUR_PORT_STATE k) portDown).wr u (Reg.FUR_PORT_LANE_FAIL k) r.laneFail.toNat) := by
  refine ⟨le 1 k ++ zeros 3 ++ le 4 r.laneFail.toNat, ?_⟩
  rw [State.trains] at h
  rw [wrongPeer] at hw
  simp only [Prog.training, Prog.run_get, h, Prog.run_cond_true, hp, Bool.not_true, Bool.false_eq_true, if_false, Prog.run_both, Prog.run_wr,
    if_neg hw, if_pos hl, Prog.run_seq_cons, Prog.run_seq_nil, State.peerNamed]

/-- A port that trains with the peer it expects comes UP (R373). -/
theorem training_up (h : s.trains u k = true) (hp : r.peer = true) (hw : ¬ wrongPeer u k r) (hl : r.laneFail = 0) :
    (Prog.training u k r).run s = (Prog.portIsUp u k r).run (s.peerNamed u k r) := by
  rw [State.trains] at h
  rw [wrongPeer] at hw
  simp only [Prog.training, Prog.run_get, h, Prog.run_cond_true, hp, Bool.not_true, Bool.false_eq_true, if_false, Prog.run_both, Prog.run_wr,
    if_neg hw, hl, ne_eq, not_true_eq_false, State.peerNamed]

/-- An event record leaves the fields of the ports (R414). -/
theorem rd_event_port (typ : Nat) (pl : List Byte) {f : Fld} (hf : 0x90000 ≤ f.off) : ((Prog.event u typ pl).run s).rd u f = s.rd u f := by
  refine Prog.rd_keeps (Prog.event_keeps u typ pl) f (fun ⟨_, h⟩ => ?_) s
  simp only [Reg.EVR_STATUS_BUCKET, Reg.EVR_STATUS_DROPPED] at h
  omega

/-- An event record leaves a port (R414). -/
theorem port_event (typ : Nat) (pl : List Byte) : ((Prog.event u typ pl).run s).port u k = s.port u k :=
  congrArg (fun l => Sparse.get ({} : Port) l k) (Prog.fixes_event_ports u typ pl s)

/-- What a port reads that refused its peer (R373). -/
theorem training_wrong_state (h : s.trains u k = true) (hp : r.peer = true) (hw : wrongPeer u k r) : let t := (Prog.training u k r).run s
    t.rd u (Reg.FUR_PORT_STATE k) = portDown ∧ t.rd u (Reg.FUR_PORT_PEER_PART k) = r.part % 4096 ∧
      t.rd u (Reg.FUR_PORT_PEER_GEN k) = r.gen % 16 ∧ (t.port u k).refused = true := by
  obtain ⟨pl, ht⟩ := training_wrong s u k h hp hw
  intro t
  simp only [t, ht, port_event, State.port_modPort, and_true]
  rw [rd_event_port _ _ _ _ (by simp [Reg.FUR_PORT_STATE]), rd_event_port _ _ _ _ (by simp [Reg.FUR_PORT_PEER_PART]),
    rd_event_port _ _ _ _ (by simp [Reg.FUR_PORT_PEER_GEN])]
  simp only [State.rd_modPort, State.peerNamed]
  refine ⟨State.rd_wr_same _ _ _ _ (by simp [Reg.FUR_PORT_STATE]), ?_, ?_⟩
  · rw [State.rd_wr_other _ _ _ _ _ (by simp [Reg.FUR_PORT_STATE, Reg.FUR_PORT_PEER_PART]),
      State.rd_wr_other _ _ _ _ _ (by simp [Reg.FUR_PORT_PEER_GEN, Reg.FUR_PORT_PEER_PART]),
      State.rd_wr_same _ _ _ _ (by simp [Reg.FUR_PORT_PEER_PART])]
    rfl
  · rw [State.rd_wr_other _ _ _ _ _ (by simp [Reg.FUR_PORT_STATE, Reg.FUR_PORT_PEER_GEN]),
      State.rd_wr_same _ _ _ _ (by simp [Reg.FUR_PORT_PEER_GEN])]
    rfl

/-- What a port reads whose lanes failed (R373). -/
theorem training_failed_state (h : s.trains u k = true) (hp : r.peer = true) (hw : ¬ wrongPeer u k r) (hl : r.laneFail ≠ 0) :
    let t := (Prog.training u k r).run s
    t.rd u (Reg.FUR_PORT_STATE k) = portDown ∧ t.rd u (Reg.FUR_PORT_LANE_FAIL k) = r.laneFail.toNat ∧
      (t.port u k).refused = (s.port u k).refused := by
  obtain ⟨pl, ht⟩ := training_failed s u k h hp hw hl
  intro t
  simp only [t, ht, port_event, State.port_wr, State.peerNamed, and_true]
  rw [rd_event_port _ _ _ _ (by simp [Reg.FUR_PORT_STATE]), rd_event_port _ _ _ _ (by simp [Reg.FUR_PORT_LANE_FAIL]),
    State.rd_wr_other _ _ _ _ _ (by simp [Reg.FUR_PORT_STATE, Reg.FUR_PORT_LANE_FAIL]), State.rd_wr_same _ _ _ _ (by simp [Reg.FUR_PORT_STATE]),
    State.rd_wr_same _ _ _ _ (by simp [Reg.FUR_PORT_LANE_FAIL])]
  exact ⟨rfl, Nat.mod_eq_of_lt r.laneFail.isLt⟩

/-- What a port reads that trained with the peer of a connection not heard before (R373). -/
theorem training_up_state (hk : k < portCount u) (h : s.trains u k = true) (hp : r.peer = true) (hw : ¬ wrongPeer u k r) (hl : r.laneFail = 0)
    (hn : (s.conn u (trainConn u k)).peerNo = none) (ha : (s.port u k).add = none) :
    ((Prog.training u k r).run s).cameUp u k (s.ns u) := by
  have hns : (s.peerNamed u k r).ns u = s.ns u := by simp [State.peerNamed, State.ns]
  rw [training_up s u k h hp hw hl, ← hns]
  exact cameUp_portIsUp _ u k r hk (by simpa [State.peerNamed, State.conn] using hn) (by simpa [State.peerNamed] using ha)

/-- A port tries again to train where it is DOWN (R373). -/
theorem trainingRetry_run : (Prog.trainingRetry u k r).run s =
    if s.rd u (Reg.FUR_PORT_STATE k) = portDown then (Prog.training u k r).run s else s := by
  simp only [Prog.trainingRetry, Prog.run_get, Prog.run_cond, beq_iff_eq]

-- sensing, lost clocks, CONN and ADD

/-- A CONN message of a die that the port can carry, from a peer not heard or heard under its number (R374, R380). -/
theorem connRx_same (die : Nat) (number : BitVec 32) (hc : c = match u with | .htu => 0 | .vta => die % 64)
    (hm : u = .vta → (portConns .vta k).contains (die % 64) = true) (h : (s.conn u c).peerNo = none ∨ (s.conn u c).peerNo = some number) :
    (Prog.connRx u k die number).run s =
      (Prog.repath u c).run ((Prog.modConn u c fun n => { n with peerNo := some number, die := s.connDie u c }).run s) := by
  rw [← learnConn_same s u c number h]
  cases u with
  | htu => subst hc; rfl
  | vta => subst hc; rw [Prog.connRx, hm rfl]; rfl

/-- A CONN message of a die that the port of the VTA does not carry (R380). -/
theorem connRx_other (die : Nat) (number : BitVec 32) (hu : u = .vta) (hm : (portConns .vta k).contains (die % 64) = false) :
    (Prog.connRx u k die number).run s = s := by
  subst hu
  rw [Prog.connRx, hm]
  rfl

/-- A lost clock takes a port DOWN; on the HTU the loss of the active time port is a source loss (R153, R375). -/
theorem clockLoss_run : (Prog.clockLoss u k).run s =
    (let b := if [portTraining, portUp, portRetrain].contains (s.rd u (Reg.FUR_PORT_STATE k)) then (Prog.portLeaves u k portDown).run s else s
    match u with
      | .htu => if s.timePort .htu = some k then (Prog.timeSourceLost .htu).run b else b.wr .htu (pllRdy .htu k) 0
      | .vta => b) := by
  simp only [Prog.clockLoss, Prog.run_get, Prog.run_both, Prog.run_cond]
  cases u with
  | htu =>
    simp only [BEq.rfl, if_true]
    split <;> rfl
  | vta => rfl

/-- A port of which ADD waits answers it as its time is over (R399). -/
theorem addTimeout_some {a : Nat × BitVec 16} (h : (s.port u k).add = some a) : (Prog.addTimeout u k).run s =
    (let b := (Prog.modPort u k fun q => { q with add := none }).run s
    (Prog.answer u (some a) { status := stAborted, detail := 0x101 }).run
      (if s.rd u (Reg.FUR_PORT_STATE k) = portTraining then b.wr u (Reg.FUR_PORT_STATE k) portDown else b)) := by
  simp only [Prog.addTimeout, Prog.run_get, h, Prog.run_opt_some, Prog.run_seq_cons, Prog.run_seq_nil, Prog.run_cond, Prog.run_wr, beq_iff_eq]

/-- A port of which no ADD waits (R399). -/
theorem addTimeout_none (h : (s.port u k).add = none) : (Prog.addTimeout u k).run s = s := by
  rw [Prog.addTimeout, Prog.run_get, h, Prog.run_opt_none]

/-- A peer sensed wakes a port that is DOWN; its absence lifts the refusal (R373, R437). -/
theorem peerSense_run (found : Bool) : (Prog.peerSense u k found).run s =
    if s.rd u (Reg.FUR_PORT_STATE k) = portDown then
      if found then if (s.port u k).refused = false ∧ (s.fn u (fidPort k)).st = .running then s.wr u (Reg.FUR_PORT_STATE k) portTraining else s
      else (Prog.modPort u k fun p => { p with refused := false }).run s
    else s := by
  cases found <;> simp [Prog.peerSense, Prog.run_cond]

/-- Settles O57, row by row: what training writes is read through the record that it leaves; a port that came UP is the path of the connections
that it can carry, so none of them is lost; and the STATE field of a port that leaves UP stands apart from all that its lost inputs write. -/
theorem portsTrainAndFall : Obligations.PortsTrainAndFall := by
  unfold Obligations.PortsTrainAndFall
  intro u k s hk hr st known bad
  have row (p : Prog) : Prog.nextIf (decide (k < portCount u)) (.up u (.thenSettle u p)) s = .next ((Prog.settle u).run (p.run s)) :=
    next_port _ hk hr
  refine ⟨fun r => ⟨?_, ?_, ?_, ?_, ?_, ?_, ?_⟩, ?_, ?_, ?_, ?_, ?_, ?_, ?_, ?_⟩
  · intro h
    exact (row _).trans (by rw [training_idle s u k h])
  · intro h hp
    exact (row _).trans (by rw [training_alone s u k h hp])
  · intro h hp hw
    exact ⟨_, row _, training_wrong_state s u k h hp hw⟩
  · intro h hp hw hl
    exact ⟨_, row _, training_failed_state s u k h hp hw hl⟩
  · intro h hp hw hl hn ha
    have hc := training_up_state s u k hk h hp hw hl (by cases u <;> exact hn) ha
    exact ⟨_, row _, hc.state, hc.lanes, hc.upNs⟩
  · intro h
    exact (row _).trans (by rw [trainingRetry_run, if_pos h]; exact (row _).symm)
  · intro h
    exact (row _).trans (by rw [trainingRetry_run, if_neg h])
  · intro found h
    exact (next_port _ hk hr).trans (by rw [peerSense_run, if_neg h])
  · intro h
    exact ⟨(next_port _ hk hr).trans (by rw [peerSense_run, if_pos h]; rfl), (next_port _ hk hr).trans (by rw [peerSense_run, if_pos h]; rfl)⟩
  · exact (row _).trans (congrArg (fun t => Host.Outcome.next ((Prog.settle u).run t)) (clockLoss_run s u k))
  · exact rd_portLeaves s u k
  · intro die number
    refine ⟨fun hu hm => (row _).trans (by rw [connRx_other s u k die number hu hm]), fun c hc hm h => (row _).trans ?_⟩
    rw [connRx_same s u k c die number hc hm h]
  · exact next_port _ hk hr
  · intro h
    exact (row _).trans (by rw [addTimeout_none s u k h])
  · intro a h
    exact (row _).trans (by rw [addTimeout_some s u k h])

end Sys2Proof.Machine

end

section

/-! # What programs leave of the VTA's own state -/

namespace Sys2Proof.Machine

variable {α β : Type} {g : VtaX → α} {p q : Prog}

/-- A program leaves what `g` reads of the VTA's own state: every change of that state in it does. -/
def Prog.vtaKeeps (g : VtaX → α) : Prog → Prop
  | .vta f => ∀ x, g (f x) = g x
  | .get k => ∀ s, (k s).vtaKeeps g
  | .both p q => p.vtaKeeps g ∧ q.vtaKeeps g
  | _ => True

/-- Such a program leaves it along its run. -/
theorem Prog.vtaKeeps.run (h : p.vtaKeeps g) (s : State) : g (p.run s).vx = g s.vx := by
  induction p generalizing s with
  | vta f => exact h s.vx
  | get k ih => exact ih s (h s) s
  | both p q ihp ihq => rw [Prog.run_both, ihq h.2, ihp h.1]
  | wr u f v => rw [Prog.run_wr, State.wr_vx]
  | dev u f => rw [Prog.run_dev, State.modDev_vx]
  | clearRegs u keep => cases u <;> rfl
  | _ => rfl

@[simp] theorem Prog.vtaKeeps_skip : Prog.skip.vtaKeeps g := trivial
@[simp] theorem Prog.vtaKeeps_wr (u : UnitId) (f : Fld) (v : Nat) : (Prog.wr u f v).vtaKeeps g := trivial
@[simp] theorem Prog.vtaKeeps_dev (u : UnitId) (f : Dev → Dev) : (Prog.dev u f).vtaKeeps g := trivial
@[simp] theorem Prog.vtaKeeps_htu (f : HtuX → HtuX) : (Prog.htu f).vtaKeeps g := trivial
@[simp] theorem Prog.vtaKeeps_ddr (a : Nat) (b : List Byte) : (Prog.ddr a b).vtaKeeps g := trivial
@[simp] theorem Prog.vtaKeeps_vta (f : VtaX → VtaX) : (Prog.vta f).vtaKeeps g ↔ ∀ x, g (f x) = g x := Iff.rfl
@[simp] theorem Prog.vtaKeeps_get (k : State → Prog) : (Prog.get k).vtaKeeps g ↔ ∀ s, (k s).vtaKeeps g := Iff.rfl
@[simp] theorem Prog.vtaKeeps_both : (Prog.both p q).vtaKeeps g ↔ p.vtaKeeps g ∧ q.vtaKeeps g := Iff.rfl
@[simp] theorem Prog.vtaKeeps_bumpBy (u : UnitId) (f : Fld) (n : Nat) : (Prog.bumpBy u f n).vtaKeeps g := fun _ => trivial
@[simp] theorem Prog.vtaKeeps_bump (u : UnitId) (f : Fld) : (Prog.bump u f).vtaKeeps g := fun _ => trivial
@[simp] theorem Prog.vtaKeeps_count (u : UnitId) (f : Fld) (n : Nat) : (Prog.count u f n).vtaKeeps g := fun _ => trivial
@[simp] theorem Prog.vtaKeeps_seq_nil : (Prog.seq []).vtaKeeps g := trivial

@[simp] theorem Prog.vtaKeeps_seq_cons (l : List Prog) : (Prog.seq (p :: l)).vtaKeeps g ↔ p.vtaKeeps g ∧ (Prog.seq l).vtaKeeps g := by
  cases l with
  | nil => exact (and_iff_left trivial).symm
  | cons => rfl

@[simp] theorem Prog.vtaKeeps_cond (b : Bool) : (Prog.cond b p).vtaKeeps g ↔ (b = true → p.vtaKeeps g) := by
  cases b
  · exact iff_of_true trivial nofun
  · exact ⟨fun h _ => h, fun h => h rfl⟩

@[simp] theorem Prog.vtaKeeps_opt (o : Option β) (k : β → Prog) : (Prog.opt o k).vtaKeeps g ↔ ∀ a, o = some a → (k a).vtaKeeps g := by
  cases o with
  | none => exact iff_of_true trivial nofun
  | some a => exact ⟨fun h _ e => Option.some.inj e ▸ h, fun h => h a rfl⟩

@[simp] theorem Prog.vtaKeeps_each (l : List β) (k : β → Prog) : (Prog.each l k).vtaKeeps g ↔ ∀ a ∈ l, (k a).vtaKeeps g := by
  induction l with
  | nil => exact iff_of_true trivial (by simp)
  | cons a t ih => rw [List.forall_mem_cons, ← ih]; rfl

@[simp] theorem Prog.vtaKeeps_ite (c : Prop) [Decidable c] : (if c then p else q).vtaKeeps g ↔ (c → p.vtaKeeps g) ∧ (¬ c → q.vtaKeeps g) := by
  split <;> simp [*]

-- programs that never touch it

variable (u : UnitId)

/-- The event recorder stands apart from the VTA's own state (R414 to R416). -/
@[simp] theorem Prog.vtaKeeps_commitEv (e : EvRec) : (Prog.commitEv u e).vtaKeeps g := by
  simp [Prog.commitEv, Prog.programPage, Prog.refill, Prog.evr]

@[simp] theorem Prog.vtaKeeps_event (typ : Nat) (pl : List Byte) : (Prog.event u typ pl).vtaKeeps g := by
  simp only [Prog.event, Prog.foldEnd, Prog.vtaKeeps_both, Prog.vtaKeeps_get]
  refine ⟨by simp [Prog.evr], fun s => (Prog.vtaKeeps_ite _).2 ⟨fun _ => trivial, fun _ => ?_⟩⟩
  split <;> simp [Prog.evr]

@[simp] theorem Prog.vtaKeeps_ethRec (up : Bool) (tc : Nat) (r : Rec) : (Prog.ethRec up tc r).vtaKeeps g := by
  simp [Prog.ethRec, Prog.ether, Prog.send]

@[simp] theorem Prog.vtaKeeps_uplink : Prog.uplink.vtaKeeps g := by simp [Prog.uplink]

@[simp] theorem Prog.vtaKeeps_modStream (sid : Nat) (f : Stream → Stream) : (Prog.modStream u sid f).vtaKeeps g := trivial

@[simp] theorem Prog.vtaKeeps_showMembers : Prog.showMembers.vtaKeeps g := by simp [Prog.showMembers]

@[simp] theorem Prog.vtaKeeps_freeBuffers : Prog.freeBuffers.vtaKeeps g := by simp [Prog.freeBuffers]

/-- A packet of the trace (R352 to R354). -/
@[simp] theorem Prog.vtaKeeps_writePkt (src typ tag : Nat) (w : List Word) : (Prog.writePkt u src typ tag w).vtaKeeps g := by
  simp [Prog.writePkt, Prog.traceHold, Prog.addPkt, Prog.openChunk, Prog.closeChunk, Prog.trace]

/-- A trace word of a source, with the trigger that it may be (R351, R354). -/
@[simp] theorem Prog.vtaKeeps_traceData (src tag : Nat) (w : Word) : (Prog.traceData u src tag w).vtaKeeps g := by
  simp [Prog.traceData, Prog.trigger, Prog.loseWord, Prog.addPkt, Prog.openChunk, Prog.closeChunk, Prog.trace]

-- a record that the VTA produces

/-- What the merge points of a VTA hold: the merges under way, what the next results carry, and the latest epochs merged (R200, R207). -/
def VtaX.mergePoints (x : VtaX) : List Merge × List (Level × SheafKey × BitVec 32) × List (Level × SheafKey) × List (Level × SheafKey × BitVec 32) :=
  (x.merges, x.lateNext, x.missNext, x.merged)

/-- An archive segment that closes leaves the merge points (R369, R370). -/
theorem Prog.closeSegment_mergePoints (s : Segment) : (Prog.closeSegment s).vtaKeeps VtaX.mergePoints := by
  simp [Prog.closeSegment, Prog.compress, Prog.takeEngine, Prog.showEngines, Prog.writePages, VtaX.mergePoints]

/-- A record that leaves the VTA leaves its merge points. -/
theorem Prog.deliver_mergePoints (sid svc : Nat) (st : Stream) (r : Rec) : (Prog.deliver .vta sid svc st r).vtaKeeps VtaX.mergePoints := by
  simp [Prog.deliver, Prog.archive, Prog.closeSegment_mergePoints, VtaX.mergePoints]

/-- A record with its number leaves the merge points (R124). -/
theorem Prog.put_mergePoints (sid : Nat) (r : Rec) (svc : Option Nat) : (Prog.put .vta sid r svc).vtaKeeps VtaX.mergePoints := by
  simp [Prog.put, Prog.deliver_mergePoints]

/-- A full chain that closes leaves the merge points (R125). -/
theorem Prog.closeFull_mergePoints (sid : Nat) : (Prog.closeFull .vta sid).vtaKeeps VtaX.mergePoints := by
  simp [Prog.closeFull, Prog.closeChain, Prog.deliver_mergePoints]

/-- A record that the VTA produces, or drops, leaves its merge points (R218, R386, R395). -/
theorem Prog.emitSvc_mergePoints (sid : Nat) (svc t : Option Nat) (edit : Rec → Rec) :
    (Prog.emitSvc .vta sid svc t edit).vtaKeeps VtaX.mergePoints := by
  simp [Prog.emitSvc, Prog.putNext, Prog.flushLoss, Prog.dropRecs, Prog.put_mergePoints, Prog.closeFull_mergePoints]

end Sys2Proof.Machine

end

section

/-! # Sheaves at their level: O53 -/

namespace Sys2Proof.Machine

variable (s : State) (l : Level) (k : SheafKey) (ep : BitVec 32) (input : Nat) (r : Rec)

-- the rows

/-- A sheaf partial of an input of its level, with no reserved field set (R8, R207). -/
theorem exec_sheafPartial (hr : s.v.inReset = false) (hi : input < levelInputs l) (hb : r.rsvd = false) :
    exec (.sheafPartial l input r) s = .next ((Prog.sheafPartial l input r).run s) :=
  ((nextIf_of hi _ s).trans (next_up (u := .vta) _ hr)).trans (by rw [Prog.run_both, hb, rsvdFrom_clean, Rec.clean_of hb])

/-- A MEMBERSHIP message of an input of its level, with no reserved field set (R8, R210). -/
theorem exec_membership (hr : s.v.inReset = false) (hi : input < levelInputs l) (hb : r.rsvd = false) :
    exec (.membership l input r) s = .next ((Prog.membership l input r).run s) :=
  ((nextIf_of hi _ s).trans (next_up (u := .vta) _ hr)).trans (by rw [Prog.run_both, hb, rsvdFrom_clean, Rec.clean_of hb])

-- partials

/-- A partial of a unit that lost its role is not taken (R318). -/
theorem sheafPartial_notHead (h : s.fromHead l input r = false) : (Prog.sheafPartial l input r).run s = s := by
  simp [Prog.sheafPartial, h]

/-- The merges that change are those that the test selects. -/
theorem modMerges_run (sel : Merge → Bool) (f : Merge → Merge) : (Prog.modMerges sel f).run s
    = { s with vx := { s.vx with merges := s.vx.merges.map fun m => if sel m then (f m).ready else m } } := rfl

variable {s l input r k} {p : Part}

/-- What names a merge of a sheaf for an epoch at a level. -/
theorem mem_mergesOf {m : Merge} : m ∈ s.mergesOf l k ep ↔ m ∈ s.vx.merges ∧ m.level = l ∧ m.key = k ∧ m.epoch = ep := by
  simp [State.mergesOf, and_assoc]

/-- Some merge of the sheaf and epoch takes the partial of an input just where one awaits it. -/
theorem any_awaits : ((s.mergesOf l k ep).any fun m => m.level == l && m.key == k && m.epoch == ep && m.awaits input)
    = (s.mergesOf l k ep).any (·.awaits input) := by
  rw [Bool.eq_iff_iff, List.any_eq_true, List.any_eq_true]
  exact exists_congr fun m => and_congr_right fun hm => by simp [((mem_mergesOf ep).1 hm).2]

/-- Where no merge of the sheaf and epoch awaits the input, none takes its partial. -/
theorem none_awaits (h : ∀ m ∈ s.mergesOf l k ep, m.awaits input = false) :
    ((s.mergesOf l k ep).any fun m => m.level == l && m.key == k && m.epoch == ep && m.awaits input) = false :=
  (any_awaits ep).trans (List.any_eq_false.2 fun m hm => Bool.not_eq_true _ ▸ h m hm)

section
variable (hi : input < levelInputs l) (hf : s.fromHead l input r = true) (hp : Part.ofPayload r.part r.payload = (k, p))
include hi hf hp

/-- A partial that a merge awaits joins each merge of its sheaf and epoch that awaits it, where a buffer is free (R190, R203, R207, R209). -/
theorem sheafPartial_joins (hm : ∃ m ∈ s.mergesOf l k p.epoch, m.awaits input = true) : (Prog.sheafPartial l input r).run s =
    if s.bufferFree l input p.epoch then (Prog.modMerges (fun m => m.level == l && m.key == k && m.epoch == p.epoch && m.awaits input) fun m =>
      if p.lost then { m with left := m.left ++ [input], inFlags := m.inFlags ||| p.flags } else { m with parts := m.parts ++ [(input, p)] }).run s
    else s := by
  have ha := (any_awaits p.epoch).trans (List.any_eq_true.2 hm)
  simp only [Prog.sheafPartial, Prog.run_get, hp, hf, decide_eq_true hi, Bool.and_self, Prog.run_cond_true, ha, if_true]
  rw [Prog.run_cond]

variable (hm : ∀ m ∈ s.mergesOf l k p.epoch, m.awaits input = false)
include hm

/-- A partial that no merge awaits any more, of a sheaf that is known and for a role that is held, is late (R207). -/
theorem sheafPartial_late (hk : s.mergesOf l k p.epoch ≠ [] ∨ ∃ e ∈ s.mergeColls l k, e.2.takes input = true)
    (hh : s.holdsFor l ((s.mergesOf l k p.epoch).head?.map (·.t)) r = true) : (Prog.sheafPartial l input r).run s =
    (Prog.both (.bump .vta Reg.SHF_ERR_LATE) (.vta fun x => { x with lateNext := x.lateNext ++ [(l, k, p.epoch)] })).run s := by
  have ha := none_awaits p.epoch hm
  have hkn : ((s.mergesOf l k p.epoch) != [] || (s.mergeColls l k).any (·.2.takes input)) = true := by
    simpa only [Bool.or_eq_true, bne_iff_ne, List.any_eq_true] using hk
  simp only [Prog.sheafPartial, Prog.run_get, hp, hf, decide_eq_true hi, Bool.and_self, Prog.run_cond_true, ha, hkn, hh]
  rfl

/-- A partial that no merge awaits, of no sheaf known here or for a role not held, is a mismatch (R28, R200). -/
theorem sheafPartial_mismatch (hc : s.v.colls = []) (hk : s.mergesOf l k p.epoch = [] ∨ s.holdsFor l ((s.mergesOf l k p.epoch).head?.map (·.t)) r = false) :
    (Prog.sheafPartial l input r).run s = (Prog.bump .vta Reg.SHF_ERR_MISMATCH).run s := by
  have ha := none_awaits p.epoch hm
  have hkn : (((s.mergesOf l k p.epoch) != [] || (s.mergeColls l k).any (·.2.takes input)) &&
      s.holdsFor l ((s.mergesOf l k p.epoch).head?.map (·.t)) r) = false := by
    rcases hk with h | h <;> simp [h, State.mergeColls, hc]
  simp only [Prog.sheafPartial, Prog.run_get, hp, hf, decide_eq_true hi, Bool.and_self, Prog.run_cond_true, ha, hkn, hc, List.filter_nil,
    List.map_nil, List.eraseDups_nil]
  rfl

end

-- cutoff and result

variable (s l k)

/-- A merge that is started stays so, whatever it awaits. -/
theorem ready_started (m : Merge) : ({ m with started := true } : Merge).ready = { m with started := true } := by
  simp [Merge.ready]

/-- A merge at a cutoff: one of the sheaf and epoch whose time is over starts (R207, R208). -/
def State.cutMerge (m : Merge) : Merge :=
  if m.level = l ∧ m.key = k ∧ m.epoch = ep ∧ m.t + s.cutoff l ≤ s.ns .vta then { m with started := true } else m

/-- The cutoff starts the merges of the sheaf and epoch whose time is over (R207, R208). -/
theorem mergeCutoff_run : (Prog.mergeCutoff l k ep).run s = { s with vx := { s.vx with merges := s.vx.merges.map (s.cutMerge l k ep) } } := by
  have hc (m : Merge) : (if (m.level == l && m.key == k && m.epoch == ep && decide (m.t + s.cutoff l ≤ s.ns .vta)) = true then
      ({ m with started := true } : Merge).ready else m) = s.cutMerge l k ep m := by
    simp [ready_started, State.cutMerge, and_assoc]
  rw [Prog.mergeCutoff, Prog.run_get, modMerges_run, funext hc]

/-- Without a merge that has started there is no result (R206). -/
theorem sheafResult_none (h : ∀ m ∈ s.mergesOf l k ep, m.started = false) : (Prog.sheafResult l k ep).run s = s := by
  rw [Prog.sheafResult, Prog.run_get, List.filter_eq_nil_iff.2 fun m hm => by simp [h m hm], Prog.run_each_nil]

/-- One merge that has started gives its result (R206). -/
theorem sheafResult_one {m : Merge} (hm : s.mergesOf l k ep = [m]) (hs : m.started = true) :
    (Prog.sheafResult l k ep).run s = (Prog.mergeResult m).run s := by
  rw [Prog.sheafResult, Prog.run_get, hm, List.filter_cons_of_pos hs, List.filter_nil, Prog.run_each_cons, Prog.run_each_nil]

/-- The merge points once a merge is complete: what its result announced is over when no merge of its sheaf and epoch is open any more (R207). -/
def VtaX.completed (x : VtaX) (m : Merge) : VtaX :=
  let rest := x.merges.filter (· != m)
  let more := rest.any fun y => y.level == m.level && y.key == m.key && y.epoch == m.epoch
  { x with
    merges := rest
    lateNext := if more then x.lateNext
      else x.lateNext.filter fun e => !(e.1 == m.level && e.2.1 == m.key && serialGt 32 m.epoch.toNat e.2.2.toNat)
    missNext := if more then x.missNext else x.missNext.filter (· != (m.level, m.key))
    merged := x.merged.filter (fun e => !(e.1 == m.level && e.2.1 == m.key)) ++ [(m.level, m.key, m.epoch)] }

/-- What a complete merge leaves of the merge points depends on them alone. -/
theorem completed_mergePoints {x y : VtaX} (h : x.mergePoints = y.mergePoints) (m : Merge) :
    (x.completed m).mergePoints = (y.completed m).mergePoints := by
  simp only [VtaX.mergePoints, Prod.mk.injEq] at h
  obtain ⟨hm, hl, hs, hd⟩ := h
  simp [VtaX.completed, VtaX.mergePoints, hm, hl, hs, hd]

/-- A merge that no collector here takes any more is dropped (R207). -/
theorem mergeResult_dropped {m : Merge} (hk : m.key.id ≠ 0xFFFF) (hc : (s.mergeColls m.level m.key).find? (fun e => some e.1 == m.coll) = none) :
    ((Prog.mergeResult m).run s).vx = { s.vx with merges := s.vx.merges.filter (· != m) } := by
  simp only [Prog.mergeResult, Prog.run_get, if_neg hk, hc, Prog.run_both]
  exact Prog.vtaKeeps_freeBuffers.run (g := id) _

/-- A merge completes between programs that leave the merge points. -/
theorem run_completed {a b c : Prog} (ha : a.vtaKeeps VtaX.mergePoints) (hb : b.vtaKeeps VtaX.mergePoints) (hc : c.vtaKeeps VtaX.mergePoints)
    (m : Merge) : ((Prog.both a (.both b (.both (.vta fun x => x.completed m) c))).run s).vx.mergePoints = (s.vx.completed m).mergePoints := by
  rw [Prog.run_both, Prog.run_both, Prog.run_both, hc.run, Prog.run_vta]
  exact completed_mergePoints ((hb.run _).trans (ha.run _)) m

/-- The result of a merge, after its records, completes it at the merge points (R203, R204, R207). -/
theorem mergeResult_completes {m : Merge} (hk : m.key.id ≠ 0xFFFF) {e : Nat × Coll}
    (hc : (s.mergeColls m.level m.key).find? (fun e => some e.1 == m.coll) = some e) :
    ((Prog.mergeResult m).run s).vx.mergePoints = (s.vx.completed m).mergePoints := by
  simp only [Prog.mergeResult, Prog.run_get, if_neg hk, hc]
  exact run_completed s (Prog.emitSvc_mergePoints _ _ _ _) (by simp) (by simp) m

/-- The merges of a sheaf among those that are kept. -/
theorem mergesOf_filter {t : State} {q : Merge → Bool} (h : t.vx.merges = s.vx.merges.filter q) : t.mergesOf l k ep = (s.mergesOf l k ep).filter q := by
  rw [State.mergesOf, h, List.filter_comm, State.mergesOf]

/-- The only merge of its sheaf and epoch leaves none open as it completes. -/
theorem completed_alone {m : Merge} (hm : s.mergesOf l k ep = [m]) : (s.vx.completed m).mergePoints =
    (s.vx.merges.filter (· != m), s.vx.lateNext.filter (fun e => !(e.1 == l && e.2.1 == k && serialGt 32 ep.toNat e.2.2.toNat)),
      s.vx.missNext.filter (· != (l, k)), s.vx.merged.filter (fun e => !(e.1 == l && e.2.1 == k)) ++ [(l, k, ep)]) := by
  obtain ⟨-, rfl, rfl, rfl⟩ := (mem_mergesOf ep).1 (hm ▸ List.mem_singleton_self m)
  have hr : ((s.vx.merges.filter (· != m)).any fun y => y.level == m.level && y.key == m.key && y.epoch == m.epoch) = false := by
    refine List.any_eq_false.2 fun y hy hs => ?_
    obtain ⟨hy, hn⟩ := List.mem_filter.1 hy
    have hym : y ∈ s.mergesOf m.level m.key m.epoch := List.mem_filter.2 ⟨hy, hs⟩
    rw [hm, List.mem_singleton] at hym
    simp [hym] at hn
  simp only [VtaX.completed, VtaX.mergePoints, hr, Bool.false_eq_true, if_false]

/-- The result of the one merge of a sheaf for an epoch ends it, and what that result announced (R203, R204, R207). -/
theorem sheafResult_ends {m : Merge} (hm : s.mergesOf l k ep = [m]) (hs : m.started = true) (hk : k.id ≠ 0xFFFF) :
    let t := (Prog.sheafResult l k ep).run s
    t.mergesOf l k ep = [] ∧ t.vx.merges = s.vx.merges.filter (· != m) ∧
      ((∃ e ∈ s.mergeColls l k, some e.1 = m.coll) → (l, k, ep) ∈ t.vx.merged ∧ (l, k) ∉ t.vx.missNext ∧
        ∀ e ∈ t.vx.lateNext, e ∈ s.vx.lateNext ∧ ¬(e.1 = l ∧ e.2.1 = k ∧ serialGt 32 ep.toNat e.2.2.toNat = true)) := by
  obtain ⟨-, hl, hkey, -⟩ := (mem_mergesOf ep).1 (hm ▸ List.mem_singleton_self m)
  have none_left {t : State} (h : t.vx.merges = s.vx.merges.filter (· != m)) : t.mergesOf l k ep = [] := by
    simp [mergesOf_filter s l k ep h, hm]
  intro t
  have ht : t = (Prog.mergeResult m).run s := sheafResult_one s l k ep hm hs
  cases hc : (s.mergeColls l k).find? (fun e => some e.1 == m.coll) with
  | none =>
    have h : t.vx.merges = s.vx.merges.filter (· != m) := by
      rw [ht, mergeResult_dropped s (hkey ▸ hk) (hl ▸ hkey ▸ hc)]
    refine ⟨none_left h, h, fun ⟨e, he, hem⟩ => ?_⟩
    exact absurd (beq_iff_eq.2 hem) (List.find?_eq_none.1 hc e he)
  | some e =>
    have h := (mergeResult_completes s (hkey ▸ hk) (hl ▸ hkey ▸ hc)).trans (completed_alone s l k ep hm)
    rw [← ht] at h
    simp only [VtaX.mergePoints, Prod.mk.injEq] at h
    obtain ⟨hmerges, hlate, hmiss, hmerged⟩ := h
    refine ⟨none_left hmerges, hmerges, fun _ => ⟨?_, ?_, ?_⟩⟩
    · simp [hmerged]
    · simp [hmiss]
    · intro e he
      simpa only [hlate, List.mem_filter, Bool.not_eq_true', ← Bool.not_eq_true, Bool.and_eq_true, beq_iff_eq, and_assoc] using he

-- members

/-- The registers that show the members leave the VTA's part. -/
theorem showMembers_v : (Prog.showMembers.run s).v = s.v := by simp [Prog.showMembers]

/-- The registers that show the members leave its own state. -/
theorem showMembers_vx : (Prog.showMembers.run s).vx = s.vx := Prog.vtaKeeps_showMembers.run (g := id) s

/-- A change of the members is recorded in no stream while no collector merges (R211). -/
theorem memberRec_none (leave : Bool) (cause n : Nat) (h : s.v.colls = []) : (Prog.memberRec l k leave cause input n).run s = s := by
  simp [Prog.memberRec, State.mergeColls, h]

/-- The sheaf that a MEMBERSHIP message names (R210). -/
def sheafNamed (r : Rec) : SheafKey := { id := fieldAt r.payload 2 2, part := r.part, digest := fieldAt r.payload 4 4 }

/-- A member is an input of a sheaf. -/
def Member.isOf (m : Member) (l : Level) (k : SheafKey) (input : Nat) : Bool := m.level == l && m.key == k && m.input == input

/-- A member still counts for an epoch: it has not left, or leaves no earlier (R210, R211). -/
def Member.lasts (m : Member) (ep : Nat) : Bool :=
  match m.last with
  | some e => serialGe 32 e.toNat ep
  | none => true

/-- A message for a role not held, or of a unit that lost its role, changes no member (R28, R318). -/
theorem membership_none (h : s.holdsFor l none r = false ∨ s.fromHead l input r = false) : (Prog.membership l input r).run s = s := by
  have hc : (s.holdsFor l none r && s.fromHead l input r && decide (input < levelInputs l)) = false := by
    rcases h with h | h <;> simp [h]
  simp only [Prog.membership, Prog.run_get, hc, Prog.run_cond_false]

section
variable (hi : input < levelInputs l) (hh : s.holdsFor l none r = true) (hf : s.fromHead l input r = true)
include hi hh hf

/-- JOIN makes the input a member from the first epoch that it can still count for (R210, R212). -/
theorem membership_join (hj : fieldAt r.payload 0 1 ≠ 1) (hc : s.v.colls = []) :
    let first := s.changeEpoch l (sheafNamed r) (fieldAt r.payload 12 4)
    (Prog.membership l input r).run s = Prog.showMembers.run { s with vx := { s.vx with
      members := (s.vx.members.filter fun m => !(m.isOf l (sheafNamed r) input && m.lasts first)) ++
        [{ level := l, key := (sheafNamed r), input, first := BitVec.ofNat 32 first }] } } := by
  intro first
  simp only [Prog.membership, Prog.run_get, hh, hf, decide_eq_true hi, Bool.and_self, Prog.run_cond_true, beq_eq_false_iff_ne.2 hj,
    Bool.false_eq_true, if_false, Prog.run_seq_cons, Prog.run_seq_nil, Prog.run_vta]
  rw [memberRec_none _ _ _ _ _ _ (by exact hc)]
  rfl

/-- LEAVE of an input that is no member changes nothing (R211). -/
theorem membership_leave_none (hj : fieldAt r.payload 0 1 = 1) (hm : (s.vx.members.any fun m => m.isOf l (sheafNamed r) input) = false) :
    (Prog.membership l input r).run s = s := by
  have hm' : (s.vx.members.any fun m => m.level == l && m.key == { id := fieldAt r.payload 2 2, part := r.part, digest := fieldAt r.payload 4 4 }
      && m.input == input) = false := hm
  simp only [Prog.membership, Prog.run_get, hh, hf, decide_eq_true hi, Bool.and_self, Prog.run_cond_true, hj, BEq.rfl, if_true, hm',
    Prog.run_cond_false]

/-- LEAVE gives the member its last epoch, and no merge of a later epoch waits for it any more (R211). -/
theorem membership_leave (hj : fieldAt r.payload 0 1 = 1) (hm : (s.vx.members.any fun m => m.isOf l (sheafNamed r) input) = true) (hc : s.v.colls = []) :
    let ep := fieldAt r.payload 12 4
    (Prog.membership l input r).run s = Prog.showMembers.run { s with vx := { s.vx with
      members := s.vx.members.map fun m => if m.isOf l (sheafNamed r) input then { m with last := some (BitVec.ofNat 32 ep) } else m
      merges := s.vx.merges.map fun m => if m.level == l && m.key == (sheafNamed r) && serialGt 32 m.epoch.toNat ep && m.awaits input then
          { m with planned := m.planned ++ [input] }.ready else m } } := by
  intro ep
  have hm' : (s.vx.members.any fun m => m.level == l && m.key == { id := fieldAt r.payload 2 2, part := r.part, digest := fieldAt r.payload 4 4 }
      && m.input == input) = true := hm
  simp only [Prog.membership, Prog.run_get, hh, hf, decide_eq_true hi, Bool.and_self, Prog.run_cond_true, hj, BEq.rfl, if_true, hm',
    Prog.run_seq_cons, Prog.run_seq_nil, Prog.run_vta, modMerges_run]
  rw [memberRec_none _ _ _ _ _ _ (by exact hc)]
  rfl

end

end Sys2Proof.Machine

end

section

/-! # The degradation ladder: O53 -/

namespace Sys2Proof.Machine

variable (s : State) (u : UnitId) (ep n : Nat) (pushed : Bool)

-- the level of an epoch

/-- An epoch is not before itself. -/
theorem serialGe_refl (n a : Nat) : serialGe n a a = true := by simp [serialGe]

/-- A change planned where none waits is the only one that waits (R219). -/
theorem plan_alone (l : Ladder) (h : l.pend = []) : (l.plan ep pushed n).pend = [(ep, pushed, n)] := by simp [Ladder.plan, h]

/-- A change of the own level planned where none waits: the larger of it and of the level pushed from above is in force from its epoch (R219). -/
theorem at_plan_own (l : Ladder) (h : l.pend = []) : (l.plan ep false n).at ep = max n l.pushIn := by
  simp [Ladder.plan, Ladder.at, h, serialGe_refl]

-- what is shown

/-- The ladder is shown in two register words, SHF_STATUS and SHF_LADDER_EPOCH. -/
theorem showLadder_keeps : (Prog.showLadder u).keeps fun w o => w = u ∧ (o = 0x20000 ∨ o = 0x20008) := by
  intro s
  simp only
  split <;> simp [Reg.SHF_STATUS_PEND_LEVEL, Reg.SHF_STATUS_PEND, Reg.SHF_LADDER_EPOCH_APPLY_EPOCH]

/-- The registers that show the ladder leave its state, the memories and the level in force (R219). -/
theorem showLadder_fixes : (Prog.showLadder u).fixes fun s => (s.dev u, s.ddr, s.entity, s.rd u Reg.SHF_STATUS_LEVEL) := by
  have hw (f : Fld) (v : Nat) (h : f.off ≠ 0x20000 ∨ 35 ≤ f.lsb) :
      (Prog.wr u f v).fixes fun s => (s.dev u, s.ddr, s.entity, s.rd u Reg.SHF_STATUS_LEVEL) := fun s => by
    have hl : (s.wr u f v).rd u Reg.SHF_STATUS_LEVEL = s.rd u Reg.SHF_STATUS_LEVEL :=
      State.rd_wr_other _ _ _ _ _ (by simp only [Reg.SHF_STATUS_LEVEL]; omega)
    simp [hl]
  refine Prog.fixes_get fun s => ?_
  simp only
  split
  · exact Prog.fixes_seq_cons (hw _ _ (by decide)) (Prog.fixes_seq_cons (hw _ _ (by decide)) (hw _ _ (by decide)))
  · exact hw _ _ (by decide)

/-- With no change that waits, none is shown. -/
theorem showLadder_none (h : (s.dev u).ladder.pend = []) : ((Prog.showLadder u).run s).rd u Reg.SHF_STATUS_PEND = 0 := by
  simp only [Prog.showLadder, Prog.run_get, h, List.find?_nil, Prog.run_wr]
  exact State.rd_wr_same _ _ _ _ (by decide)

/-- The one change that waits is shown where it changes the level in force (R219). -/
theorem showLadder_one (h : (s.dev u).ladder.pend = [(ep, pushed, n)]) (he : ep < 2 ^ 32)
    (hl : (s.dev u).ladder.at ep ≤ 4) (hn : (s.dev u).ladder.at ep ≠ s.rd u Reg.SHF_STATUS_LEVEL) : let t := (Prog.showLadder u).run s
    t.rd u Reg.SHF_STATUS_PEND = 1 ∧ t.rd u Reg.SHF_LADDER_EPOCH_APPLY_EPOCH = ep ∧
      t.rd u Reg.SHF_STATUS_PEND_LEVEL = (s.dev u).ladder.at ep := by
  have hf : (s.dev u).ladder.pend.find? (fun e => (s.dev u).ladder.at e.1 != s.rd u Reg.SHF_STATUS_LEVEL) = some (ep, pushed, n) := by
    rw [h]
    exact List.find?_cons_of_pos (bne_iff_ne.2 hn)
  simp only [Prog.showLadder, Prog.run_get, hf, Prog.run_seq_cons, Prog.run_seq_nil, Prog.run_wr]
  refine ⟨?_, ?_, ?_⟩
  · rw [State.rd_wr_other _ _ _ _ _ (Or.inr (by decide)), State.rd_wr_same _ _ _ _ (by decide)]
    rfl
  · rw [State.rd_wr_same _ _ _ _ (by decide)]
    exact Nat.mod_eq_of_lt he
  · rw [State.rd_wr_other _ _ _ _ _ (Or.inr (by decide)), State.rd_wr_other _ _ _ _ _ (Or.inr (by decide)), State.rd_wr_same _ _ _ _ (by decide)]
    exact Nat.mod_eq_of_lt (lt_of_le_of_lt hl (by decide))

-- a change that is scheduled

/-- While the power stream is not named, a change of the ladder is planned and shown, and recorded in no stream (R219, R220, R446). -/
theorem ladderSchedule_run (hv : s.on u Reg.PWR_CTL_VALID = false) : (Prog.ladderSchedule u ep pushed n).run s =
    (Prog.showLadder u).run (s.modDev u fun d => { d with ladder := (s.dev u).ladder.plan ep pushed n }) := by
  have hv' (t : State) (ht : t = s.modDev u fun d => { d with ladder := (s.dev u).ladder.plan ep pushed n }) :
      ((Prog.showLadder u).run t).on u Reg.PWR_CTL_VALID = false := by
    rw [State.on, Prog.rd_keeps (showLadder_keeps u) _ (fun h => absurd h.2 (by decide)), ht, State.modDev_rd]
    exact hv
  simp only [Prog.ladderSchedule, Prog.run_get, Prog.run_seq_cons, Prog.run_seq_nil, Prog.run_dev]
  rw [Prog.run_cond, Prog.powerRec, Prog.emitReg, Prog.run_get, hv' _ rfl, Prog.run_cond_false, ite_self]

/-- The VTA's messages of a change leave its ladder, the registers and the memories (R219, R380). -/
theorem ladderPush_fixes (w : UnitId) : (Prog.ladderPush ep).fixes fun s => ((s.dev w).ladder, s.regs w, s.ddr, s.entity) := by
  have hd (f : Dev → Dev) (h : ∀ d, (f d).ladder = d.ladder) : (Prog.dev .vta f).fixes fun s => ((s.dev w).ladder, s.regs w, s.ddr, s.entity) :=
    fun s => by cases w <;> simp [h, State.regs]
  exact Prog.fixes_get fun s => Prog.fixes_both (Prog.fixes_each fun e _ => Prog.fixes_opt fun q => hd _ fun _ => rfl)
    (Prog.fixes_cond (Prog.fixes_get fun _ => Prog.fixes_cond (hd _ fun _ => rfl)))

/-- The state of the ladder that a change makes: planned, with the level in force as before, and shown where it is the only one (R219). -/
structure Scheduled (s t : State) (u : UnitId) (l : Ladder) (ep : Nat) (pushed : Bool) (n : Nat) : Prop where
  ladder : (t.dev u).ladder = l.plan ep pushed n
  level : t.rd u Reg.SHF_STATUS_LEVEL = s.rd u Reg.SHF_STATUS_LEVEL
  ddr : t.ddr = s.ddr
  entity : t.entity = s.entity
  shown : ep < 2 ^ 32 → l.pend = [] → (l.plan ep pushed n).at ep ≤ 4 → (l.plan ep pushed n).at ep ≠ s.rd u Reg.SHF_STATUS_LEVEL →
    t.rd u Reg.SHF_STATUS_PEND = 1 ∧ t.rd u Reg.SHF_LADDER_EPOCH_APPLY_EPOCH = ep ∧
      t.rd u Reg.SHF_STATUS_PEND_LEVEL = (l.plan ep pushed n).at ep

/-- A unit that takes a level into its ladder, schedules it and, on the VTA, tells the units below. -/
theorem scheduled_run (f : Ladder → Ladder) (hv : s.on u Reg.PWR_CTL_VALID = false) :
    Scheduled s ((Prog.seq [.dev u fun d => { d with ladder := f d.ladder }, .ladderSchedule u ep pushed n,
      .cond (u == .vta) (.ladderPush ep)]).run s) u (f (s.dev u).ladder) ep pushed n := by
  have hpush (b : Bool) : (Prog.cond b (.ladderPush ep)).fixes fun s => ((s.dev u).ladder, s.regs u, s.ddr, s.entity) :=
    Prog.fixes_cond (ladderPush_fixes ep u)
  simp only [Prog.run_seq_cons, Prog.run_seq_nil, Prog.run_dev]
  rw [ladderSchedule_run _ _ _ _ _ (by simpa using hv), State.modDev_modDev]
  set b := s.modDev u _ with hb
  have hplan : (b.dev u).ladder = (f (s.dev u).ladder).plan ep pushed n := by simp [hb]
  have hlevel : b.rd u Reg.SHF_STATUS_LEVEL = s.rd u Reg.SHF_STATUS_LEVEL := by simp [hb]
  have hddr : b.ddr = s.ddr := State.modDev_ddr _ _ _
  have hentity : b.entity = s.entity := State.modDev_entity _ _ _
  have hp := hpush (u == .vta) ((Prog.showLadder u).run b)
  have hs := showLadder_fixes u b
  simp only [Prod.mk.injEq] at hp hs
  obtain ⟨pushLadder, pushRegs, pushDdr, pushEntity⟩ := hp
  obtain ⟨showDev, showDdr, showEntity, showLevel⟩ := hs
  have pushRd (g : Fld) : ((Prog.cond (u == .vta) (.ladderPush ep)).run ((Prog.showLadder u).run b)).rd u g = ((Prog.showLadder u).run b).rd u g :=
    congrArg g.getW (State.word_congr u g.off pushRegs)
  refine ⟨?_, ?_, ?_, ?_, fun he hl hle hne => ?_⟩
  · rw [pushLadder, showDev, hplan]
  · rw [pushRd, showLevel, hlevel]
  · rw [pushDdr, showDdr, hddr]
  · rw [pushEntity, showEntity, hentity]
  · rw [pushRd, pushRd, pushRd, ← hplan]
    rw [← hplan] at hle hne
    exact showLadder_one b u ep n pushed (hplan ▸ plan_alone ep n pushed _ hl) he hle (hlevel ▸ hne)

-- the rows

/-- A change of the own level applies two epochs ahead (R219). -/
theorem ladderOwn_scheduled (hn : n ≠ (s.dev u).ladder.own) (hv : s.on u Reg.PWR_CTL_VALID = false) :
    Scheduled s ((Prog.ladderOwn u n).run s) u { (s.dev u).ladder with own := n } ((s.epoch u + 2) % 2 ^ 32) false n := by
  rw [Prog.ladderOwn, Prog.run_get, bne_iff_ne.2 hn, Prog.run_cond_true]
  exact scheduled_run s u _ n false (fun l => { l with own := n }) hv

/-- A level above L4 changes nothing (R219). -/
theorem ladderRx_above (ep : BitVec 32) (hn : 4 < n) : (Prog.ladderRx u n ep).run s = s := by
  rw [Prog.ladderRx, decide_eq_false (Nat.not_le.2 hn), Prog.run_cond_false]

/-- A level from above is taken with its epoch (R219). -/
theorem ladderRx_scheduled (ep : BitVec 32) (hn : n ≤ 4) (hv : s.on u Reg.PWR_CTL_VALID = false) :
    Scheduled s ((Prog.ladderRx u n ep).run s) u { (s.dev u).ladder with pushed := n } ep.toNat true n := by
  rw [Prog.ladderRx, decide_eq_true hn, Prog.run_cond_true]
  exact scheduled_run s u _ n true (fun l => { l with pushed := n }) hv

/-- The level rises to the highest whose ENTER the occupancy has reached (R219). -/
theorem ladderRise_some (h : ([4, 3, 2, 1].filter fun m => (s.dev u).ladder.own < m && s.ladderEnter u m ≤ (s.dev u).ladder.occ).head? = some n) :
    (Prog.ladderRise u).run s = (Prog.ladderOwn u n).run s := by
  simp only [Prog.ladderRise, Prog.run_get, h, Prog.run_opt_some]

/-- An occupancy below ENTER of every higher level changes nothing (R219). -/
theorem ladderRise_none (h : ([4, 3, 2, 1].filter fun m => (s.dev u).ladder.own < m && s.ladderEnter u m ≤ (s.dev u).ladder.occ) = []) :
    (Prog.ladderRise u).run s = s := by
  simp only [Prog.ladderRise, Prog.run_get, h, List.head?_nil, Prog.run_opt_none]

/-- The level falls where the occupancy stands below EXIT of a level above L0, and else stays (R219). -/
theorem ladderFall_run : (Prog.ladderFall u).run s =
    if (s.dev u).ladder.own ≠ 0 ∧ (s.dev u).ladder.occ < s.ladderExit u (s.dev u).ladder.own then
      (Prog.ladderOwn u ((s.dev u).ladder.own - 1)).run s else s := by
  simp [Prog.ladderFall, Prog.run_cond]

/-- No word is traced outside the two phases that capture (R354). -/
theorem traceData_idle (src tag : Nat) (w : Word) (h : s.rd u Reg.TRC_STATUS_PHASE ≠ phaseCirculate ∧ s.rd u Reg.TRC_STATUS_PHASE ≠ phasePost) :
    (Prog.traceData u src tag w).run s = s := by
  simp only [Prog.traceData, Prog.run_get, beq_false_of_ne h.1, beq_false_of_ne h.2, Bool.or_self, Bool.false_and, Prog.run_cond_false]

/-- A rise of the level withholds nothing while no record is queued (R218). -/
theorem withhold_nil (old new : Nat) (h : (s.dev u).bulk = []) : (Prog.withhold u old new).run s = s := by
  simp [Prog.withhold, h]

/-- With no apply epoch that has come, nothing changes (R219). -/
theorem ladderApply_none (h : ((s.dev u).ladder.pend.any fun e => serialGe 32 (s.epoch u) e.1) = false) : (Prog.ladderApply u).run s = s := by
  simp only [Prog.ladderApply, Prog.run_get, h, Prog.run_cond_false]

/-- The apply epoch of a change brings it in force: LEVEL shows it, and the ladder shows what still waits (R219). -/
theorem ladderApply_run (h : ((s.dev u).ladder.pend.any fun e => serialGe 32 (s.epoch u) e.1) = true) (hb : (s.dev u).bulk = [])
    (ht : u = .htu ∨ (s.rd u Reg.TRC_STATUS_PHASE ≠ phaseCirculate ∧ s.rd u Reg.TRC_STATUS_PHASE ≠ phasePost)) :
    (Prog.ladderApply u).run s = (Prog.showLadder u).run ((s.wr u Reg.SHF_STATUS_LEVEL ((s.dev u).ladder.at (s.epoch u))).modDev u fun d =>
      { d with ladder := (s.dev u).ladder.enter (s.epoch u) }) := by
  have hph (v : Nat) : (s.wr u Reg.SHF_STATUS_LEVEL v).rd u Reg.TRC_STATUS_PHASE = s.rd u Reg.TRC_STATUS_PHASE :=
    State.rd_wr_other _ _ _ _ _ (Or.inr (by decide))
  have htr (c : Bool) (v : Nat) (w : Word) : (Prog.cond (u == .vta && c) (.traceData .vta 0x23 0 w)).run (s.wr u Reg.SHF_STATUS_LEVEL v) =
      s.wr u Reg.SHF_STATUS_LEVEL v := by
    cases u with
    | htu => rfl
    | vta => rw [Prog.run_cond, traceData_idle _ _ _ _ _ (by simpa [hph] using ht), ite_self]
  simp only [Prog.ladderApply, Prog.run_get, h, Prog.run_cond_true, Prog.run_seq_cons, Prog.run_seq_nil, Prog.run_wr, Prog.run_dev, htr]
  refine withhold_nil _ _ _ _ ?_
  obtain ⟨showDev, -⟩ := Prod.mk.inj (showLadder_fixes u ((s.wr u Reg.SHF_STATUS_LEVEL ((s.dev u).ladder.at (s.epoch u))).modDev u fun d =>
      { d with ladder := (s.dev u).ladder.enter (s.epoch u) }))
  rw [showDev]
  simpa using hb

/-- The change of an apply epoch in force (R219, R220). -/
theorem ladderApply_state (h : ((s.dev u).ladder.pend.any fun e => serialGe 32 (s.epoch u) e.1) = true) (hb : (s.dev u).bulk = [])
    (hl : (s.dev u).ladder.at (s.epoch u) ≤ 4)
    (ht : u = .htu ∨ (s.rd u Reg.TRC_STATUS_PHASE ≠ phaseCirculate ∧ s.rd u Reg.TRC_STATUS_PHASE ≠ phasePost)) :
    let d := (s.dev u).ladder
    let t := (Prog.ladderApply u).run s
    (t.dev u).ladder = d.enter (s.epoch u) ∧ t.rd u Reg.SHF_STATUS_LEVEL = d.at (s.epoch u) ∧
      ((d.enter (s.epoch u)).pend = [] → t.rd u Reg.SHF_STATUS_PEND = 0) := by
  intro d t
  have hrun : t = _ := ladderApply_run s u h hb ht
  set b := (s.wr u Reg.SHF_STATUS_LEVEL (d.at (s.epoch u))).modDev u fun e => { e with ladder := d.enter (s.epoch u) } with hbdef
  have hladder : (b.dev u).ladder = d.enter (s.epoch u) := by simp [hbdef]
  have hs := showLadder_fixes u b
  simp only [Prod.mk.injEq] at hs
  obtain ⟨showDev, -, -, showLevel⟩ := hs
  rw [hrun]
  refine ⟨by rw [showDev, hladder], ?_, fun hp => showLadder_none b u (by rw [hladder, hp])⟩
  rw [showLevel, hbdef, State.modDev_rd, State.rd_wr_same _ _ _ _ (by decide)]
  exact Nat.mod_eq_of_lt (lt_of_le_of_lt hl (by decide))

/-- Settles O53. The sheaves' rows are cases of the partial, the cutoff, the result and the membership message; a change of the ladder is read
through `Scheduled`, and its apply epoch through `ladderApply_state`. -/
theorem sheavesAndLadder : Obligations.SheavesAndLadder := by
  refine ⟨fun l s hr => ?_, fun u s hr => ?_⟩
  · have run (p : Prog) : Prog.next (.up .vta p) s = .next (p.run s) := next_up (u := .vta) p hr
    refine ⟨fun input r hi hb => ⟨fun hf => ⟨?_, ?_⟩, fun hh => ?_⟩,
      fun input r k p hi hb hf hp => ⟨fun hm => ?_, fun hm => ⟨fun hk hh => ?_, fun hc hk => ?_⟩⟩,
      fun k ep => ?_, fun k ep h => ?_, fun k ep m hm hs hk => ⟨_, next_thenSettle (u := .vta) _ hr, sheafResult_ends s l k ep hm hs hk⟩,
      fun input r hi hb hh hf hj hc => ⟨_, exec_membership s l input r hr hi hb, ?_⟩,
      fun input r hi hb hh hf hj hc => ⟨fun hm => ?_, fun hm => ⟨_, exec_membership s l input r hr hi hb, ?_⟩⟩⟩
    · rw [exec_sheafPartial s l input r hr hi hb, sheafPartial_notHead s l input r hf]
    · rw [exec_membership s l input r hr hi hb, membership_none s l (Or.inr hf)]
    · rw [exec_membership s l input r hr hi hb, membership_none s l (Or.inl hh)]
    · rw [exec_sheafPartial s l input r hr hi hb, sheafPartial_joins hi hf hp hm]
      rfl
    · rw [exec_sheafPartial s l input r hr hi hb, sheafPartial_late hi hf hp hm hk hh]
      rfl
    · rw [exec_sheafPartial s l input r hr hi hb, sheafPartial_mismatch hi hf hp hm hc hk]
      rfl
    · exact (run _).trans (by rw [mergeCutoff_run]; rfl)
    · exact (next_thenSettle (u := .vta) _ hr).trans (by rw [sheafResult_none s l k ep h])
    · rw [membership_join s l hi hh hf hj hc]
      exact ⟨showMembers_v _, showMembers_vx _⟩
    · rw [exec_membership s l input r hr hi hb, membership_leave_none s l hi hh hf hj hm]
    · rw [membership_leave s l hi hh hf hj hm hc, showMembers_vx]
      exact ⟨showMembers_v _, rfl, rfl⟩
  · have run (p : Prog) : Prog.next (.up u p) s = .next (p.run s) := next_up p hr
    refine ⟨fun n h => (run _).trans (by rw [ladderRise_some s u n h]), fun h => (run _).trans (by rw [ladderRise_none s u h]),
      fun h => (run _).trans (by rw [ladderFall_run, if_neg fun hd => h.elim hd.1 (Nat.not_le.2 hd.2)]),
      fun h0 h => (run _).trans (by rw [ladderFall_run, if_pos ⟨h0, h⟩]), fun n hn ho hv => ⟨_, rfl, ?_⟩,
      fun n ep hn => (run _).trans (by rw [ladderRx_above s u n ep hn]),
      fun n ep hn hv => ⟨_, run _, ?_⟩, fun h => (run _).trans (by rw [ladderApply_none s u h]),
      fun h hb hl ht => ⟨_, run _, ladderApply_state s u h hb hl ht⟩⟩
    · have h := ladderOwn_scheduled s u n ho hv
      refine ⟨h.ladder, h.level, fun hp hi hne => ?_⟩
      have hat := at_plan_own ((s.epoch u + 2) % 2 ^ 32) n { (s.dev u).ladder with own := n } hp
      have := h.shown (Nat.mod_lt _ (by decide)) hp (by rw [hat]; exact max_le (Nat.lt_succ_iff.1 hn) hi) (by rw [hat]; exact hne)
      rwa [hat] at this
    · have h := ladderRx_scheduled s u n ep hn hv
      exact ⟨h.ladder, h.level, h.ddr, h.entity⟩

end Sys2Proof.Machine

end

section

/-! # The cluster map: O29 -/

namespace Sys2Proof.Machine

variable (s : State)

/-- A rejected commit shows REJECTED and its reason, and changes nothing else (R55). -/
def State.mapRejected (s : State) (imm : Bool) (r : Nat) : State :=
  ((s.wr .htu Reg.TAP_MAP_CTL_IMMEDIATE imm.toNat).wr .htu Reg.TAP_MAP_STATUS_STAT 3).wr .htu Reg.TAP_MAP_STATUS_REASON r

/-- APPLY_EPOCH lies at least two epochs ahead (R55). -/
def State.applyAhead (s : State) : Prop :=
  serialGt 32 (s.rd .htu Reg.TAP_MAP_EPOCH_APPLY_EPOCH) (s.epoch .htu) = true ∧
    2 ≤ serialDiff 32 (s.rd .htu Reg.TAP_MAP_EPOCH_APPLY_EPOCH) (s.epoch .htu)

/-- The test of APPLY_EPOCH as the model makes it (R55). -/
theorem applyAhead_iff : s.applyAhead ↔ (serialGt 32 (s.rd .htu Reg.TAP_MAP_EPOCH_APPLY_EPOCH) (s.epoch .htu)
    && serialDiff 32 (s.rd .htu Reg.TAP_MAP_EPOCH_APPLY_EPOCH) (s.epoch .htu) ≥ 2) = true := by
  simp [State.applyAhead]

/-- The first logical cluster whose pending station fails a test of R52. -/
def State.mapFirstBad (s : State) : Option Nat := (List.range 256).find? fun n => s.mapTest n != 0

/-- A commit while a map is scheduled shows reason 6 (R55). -/
theorem mapCommit_scheduled (imm : Bool) (h : s.rd .htu Reg.TAP_MAP_STATUS_STAT = 1) : (Prog.mapCommit imm).run s
    = (s.wr .htu Reg.TAP_MAP_CTL_IMMEDIATE imm.toNat).wr .htu Reg.TAP_MAP_STATUS_REASON 6 := by
  simp only [Prog.mapCommit, Prog.run_get, Prog.run_both, if_pos h, Prog.run_wr]

/-- An IMMEDIATE commit while a collector is armed shows reason 5 (R55). -/
theorem mapCommit_armed (h : s.rd .htu Reg.TAP_MAP_STATUS_STAT ≠ 1) (hc : s.h.colls ≠ []) :
    (Prog.mapCommit true).run s = s.mapRejected true 5 := by
  simp only [Prog.mapCommit, Prog.run_get, Prog.run_both, if_neg h, true_and, if_pos hc, Prog.run_wr, State.mapRejected]

/-- A commit for an epoch while there is no time shows reason 7 (R55). -/
theorem mapCommit_noTime (h : s.rd .htu Reg.TAP_MAP_STATUS_STAT ≠ 1) (ht : s.timev .htu = false) :
    (Prog.mapCommit false).run s = s.mapRejected false 7 := by
  simp [Prog.mapCommit, h, ht, State.mapRejected]

/-- A commit for an epoch that is too near shows reason 4 (R55). -/
theorem mapCommit_late (h : s.rd .htu Reg.TAP_MAP_STATUS_STAT ≠ 1) (ht : s.timev .htu = true) (hl : ¬ s.applyAhead) :
    (Prog.mapCommit false).run s = s.mapRejected false 4 := by
  rw [applyAhead_iff, Bool.not_eq_true] at hl
  simp only [Prog.mapCommit, Prog.run_get, Prog.run_both, if_neg h, ht, hl, Bool.false_eq_true, false_and, if_false, Bool.not_false,
    Bool.not_true, true_and, if_true, Prog.run_wr, State.mapRejected]

/-- A commit that comes as far as the tests of the map (R55). -/
def State.mapTested (s : State) (imm : Bool) : Prop :=
  s.rd .htu Reg.TAP_MAP_STATUS_STAT ≠ 1 ∧ ((imm = true ∧ s.h.colls = []) ∨ (imm = false ∧ s.timev .htu = true ∧ s.applyAhead))

/-- What the tests of the map decide (R52, R54, R55). -/
theorem mapCommit_tested {imm : Bool} (h : s.mapTested imm) : (Prog.mapCommit imm).run s = match s.mapFirstBad with
    | some n => (s.mapRejected imm (s.mapTest n)).wr .htu Reg.TAP_MAP_STATUS_FIRST_BAD n
    | none =>
      let b := (s.wr .htu Reg.TAP_MAP_CTL_IMMEDIATE imm.toNat).wr .htu Reg.TAP_MAP_STATUS_REASON 0
      if imm then ((Prog.mapApply fun n => s.rd .htu (Reg.TAP_MAP_PEND_PHYS n)).run b).wr .htu Reg.TAP_MAP_STATUS_STAT 2
      else { b.wr .htu Reg.TAP_MAP_STATUS_STAT 1 with hx := { s.hx with
        mapNext := some ((List.range 256).map fun n => s.rd .htu (Reg.TAP_MAP_PEND_PHYS n), s.rd .htu Reg.TAP_MAP_EPOCH_APPLY_EPOCH) } } := by
  obtain ⟨hs, hc⟩ := h
  rcases hc with ⟨rfl, hc⟩ | ⟨rfl, ht, ha⟩
  · cases hb : s.mapFirstBad <;> rw [State.mapFirstBad] at hb <;> simp [Prog.mapCommit, hs, hc, hb, State.mapRejected]
  · rw [applyAhead_iff] at ha
    cases hb : s.mapFirstBad <;> rw [State.mapFirstBad] at hb <;>
      simp only [Prog.mapCommit, Prog.run_get, Prog.run_both, if_neg hs, ht, ha, hb, Bool.false_eq_true, false_and, if_false, Bool.not_false,
        Bool.not_true, and_false, Prog.run_wr, Prog.run_htu, State.wr_hx, State.mapRejected]

/-- A map that has taken effect reads APPLIED and waits no more (R54). -/
theorem mapApplied_run (p : Prog) : (Prog.seq [p, .wr .htu Reg.TAP_MAP_STATUS_STAT 2, .htu fun x => { x with mapNext := none }]).run s =
    (let c := (p.run s).wr .htu Reg.TAP_MAP_STATUS_STAT 2
     { c with hx := { c.hx with mapNext := none } }) := rfl

/-- A scheduled map takes effect once its epoch has come (R54). -/
theorem mapDue_applies {m : List Nat} {at' : Nat} (hm : s.hx.mapNext = some (m, at')) (ht : s.timev .htu = true) (hg : s.h.gated = false)
    (he : serialGe 32 (s.epoch .htu) at' = true) : Prog.mapDue.run s =
      (let c := ((Prog.mapApply fun n => m.getD n 0).run s).wr .htu Reg.TAP_MAP_STATUS_STAT 2
       { c with hx := { c.hx with mapNext := none } }) := by
  rw [Prog.mapDue, Prog.run_get, hm, Prog.run_opt_some, ht, hg, he, Bool.not_false, Bool.and_self, Bool.and_self, Prog.run_cond_true]
  exact mapApplied_run s _

/-- Settles O29: `Prog.mapCommit` by the first check that fails, then the map that is due. -/
theorem mapCommitChecksTheMap : Obligations.MapCommitChecksTheMap := by
  intro a imm s₀ s hb ha
  have acts : exec (.mapCommit a imm) s₀ = .next ((Prog.mapCommit imm).run s) :=
    next_guarded a (bne_iff_ne.2 ha) (guarded_ok a _ _ (by rwa [← blockReady_dropLow s₀ .htu a]))
  simp only [acts]
  refine ⟨fun h => by rw [mapCommit_scheduled s imm h], fun h => ⟨?_, ?_, ?_, fun hc => ?_⟩, fun m at' hm ht hg he => ?_⟩
  · rintro rfl hc
    rw [mapCommit_armed s h hc, State.mapRejected]
  · rintro rfl ht
    rw [mapCommit_noTime s h ht, State.mapRejected]
  · rintro rfl ht hl
    rw [mapCommit_late s h ht hl, State.mapRejected]
  · have run := mapCommit_tested s ⟨h, hc.imp_right fun ⟨hi, ht, hl⟩ => ⟨hi, ht, not_not.1 hl⟩⟩
    rw [run]
    refine ⟨fun n hn => ?_, fun hn hi => ?_, fun hn hi => ?_⟩ <;> rw [show s.mapFirstBad = _ from hn]
    · rfl
    · subst hi; simp
    · subst hi; rfl
  · exact (next_up (u := .htu) _ (inReset_of_blockReady hb)).trans (congrArg _ (mapDue_applies s hm ht hg he))

end Sys2Proof.Machine

end

section

/-! # Frames: what every primitive change of a program satisfies -/

namespace Sys2Proof.Machine

variable {α β : Type} {P : Prog → Prop} {p q : Prog}

/-- Every primitive change that a program may come to satisfies `P`. -/
def Prog.changes (P : Prog → Prop) : Prog → Prop
  | .skip => True
  | .get k => ∀ s, (k s).changes P
  | .both p q => p.changes P ∧ q.changes P
  | p => P p

@[simp] theorem Prog.changes_skip : Prog.skip.changes P := trivial
@[simp] theorem Prog.changes_wr (u : UnitId) (f : Fld) (v : Nat) : (Prog.wr u f v).changes P ↔ P (.wr u f v) := Iff.rfl
@[simp] theorem Prog.changes_dev (u : UnitId) (f : Dev → Dev) : (Prog.dev u f).changes P ↔ P (.dev u f) := Iff.rfl
@[simp] theorem Prog.changes_htu (f : HtuX → HtuX) : (Prog.htu f).changes P ↔ P (.htu f) := Iff.rfl
@[simp] theorem Prog.changes_vta (f : VtaX → VtaX) : (Prog.vta f).changes P ↔ P (.vta f) := Iff.rfl
@[simp] theorem Prog.changes_draw : Prog.draw.changes P ↔ P .draw := Iff.rfl
@[simp] theorem Prog.changes_get (k : State → Prog) : (Prog.get k).changes P ↔ ∀ s, (k s).changes P := Iff.rfl
@[simp] theorem Prog.changes_both : (Prog.both p q).changes P ↔ p.changes P ∧ q.changes P := Iff.rfl
@[simp] theorem Prog.changes_seq_nil : (Prog.seq []).changes P := trivial

@[simp] theorem Prog.changes_seq_cons (l : List Prog) : (Prog.seq (p :: l)).changes P ↔ p.changes P ∧ (Prog.seq l).changes P := by
  cases l with
  | nil => exact (and_iff_left trivial).symm
  | cons => rfl

@[simp] theorem Prog.changes_cond (b : Bool) : (Prog.cond b p).changes P ↔ (b = true → p.changes P) := by
  cases b
  · exact iff_of_true trivial nofun
  · exact ⟨fun h _ => h, fun h => h rfl⟩

@[simp] theorem Prog.changes_opt (o : Option β) (k : β → Prog) : (Prog.opt o k).changes P ↔ ∀ a, o = some a → (k a).changes P := by
  cases o with
  | none => exact iff_of_true trivial nofun
  | some a => exact ⟨fun h _ e => Option.some.inj e ▸ h, fun h => h a rfl⟩

@[simp] theorem Prog.changes_each (l : List β) (k : β → Prog) : (Prog.each l k).changes P ↔ ∀ a ∈ l, (k a).changes P := by
  induction l with
  | nil => exact iff_of_true trivial (by simp)
  | cons a t ih => rw [List.forall_mem_cons, ← ih]; rfl

@[simp] theorem Prog.changes_ite (c : Prop) [Decidable c] : (if c then p else q).changes P ↔ (c → p.changes P) ∧ (¬ c → q.changes P) := by
  split <;> simp [*]

/-- A program whose every change leaves `g` leaves it along its run. -/
theorem Prog.changes.fixes {g : State → α} (h : p.changes P) (hp : ∀ q, P q → q.fixes g) : p.fixes g := by
  induction p with
  | skip => exact fun _ => rfl
  | get k ih => exact fun s => ih s (h s) s
  | both p q ihp ihq => exact fun s => by rw [Prog.run_both, ihq h.2, ihp h.1]
  | _ => exact hp _ h

/-- A weaker condition on the changes. -/
theorem Prog.changes.mono {Q : Prog → Prop} (h : p.changes P) (hpq : ∀ q, P q → Q q) : p.changes Q := by
  induction p with
  | skip => trivial
  | get k ih => exact fun s => ih s (h s)
  | both p q ihp ihq => exact ⟨ihp h.1, ihq h.2⟩
  | _ => exact hpq _ h

-- the registers that a program writes

/-- A change writes only register words that `F` names. -/
@[simp] def Prog.writes (F : UnitId → Nat → Prop) : Prog → Prop
  | .wr u f _ => F u f.off
  | .clearRegs _ _ => False
  | _ => True

/-- `Prog.keeps` said of every change. -/
theorem Prog.changes.keeps {F : UnitId → Nat → Prop} (h : p.changes (Prog.writes F)) : p.keeps F := by
  induction p with
  | wr => exact h
  | clearRegs => exact h
  | get k ih => exact fun s => ih s (h s)
  | both p q ihp ihq => exact ⟨ihp h.1, ihq h.2⟩
  | _ => trivial

-- what a program leaves of the HTU's own part

/-- A change leaves what `g` reads of the HTU's own state. -/
@[simp] def Prog.htuLeaf (g : HtuX → α) : Prog → Prop
  | .htu f => ∀ x, g (f x) = g x
  | .get _ | .both _ _ => False
  | _ => True

/-- Such a program leaves it along its run. -/
theorem Prog.changes.hx {g : HtuX → α} (h : p.changes (Prog.htuLeaf g)) (s : State) : g (p.run s).hx = g s.hx := by
  refine h.fixes (g := fun s => g s.hx) (fun q hq t => ?_) s
  cases q with
  | htu f => exact hq t.hx
  | get => exact absurd hq id
  | both => exact absurd hq id
  | wr u => cases u <;> rfl
  | clearRegs u => cases u <;> rfl
  | dev u => cases u <;> rfl
  | _ => rfl

-- programs that many rows run

/-- A page that brownout hold defers is counted (R345, R416). -/
def HtuX.deferOne (x : HtuX) : HtuX := { x with deferred := x.deferred + 1 }

section
variable {u : UnitId} (hd : ∀ f, P (.dev u f))
include hd

/-- A word of the trace writes its unit's trace registers and no other part of the state than the trace (R351 to R354). -/
theorem Prog.traceData_changes (hw : ∀ f v, f.off / 65536 = 5 → P (.wr u f v)) (src tag : Nat) (w : Word) :
    (Prog.traceData u src tag w).changes P := by
  have h1 (v : Nat) := hw Reg.TRC_STATUS_PHASE v rfl
  have h2 (v : Nat) := hw Reg.TRC_LOST_WORDS v rfl
  have h3 (v : Nat) := hw Reg.TRC_STATUS_TRIGGERS v rfl
  have h4 (v : Nat) := hw Reg.TRC_TRIG_NS_NS v rfl
  have h5 (v : Nat) := hw Reg.TRC_STATUS_IGNORED v rfl
  simp [Prog.traceData, Prog.trigger, Prog.loseWord, Prog.writePkt, Prog.traceHold, Prog.addPkt, Prog.openChunk, Prog.closeChunk,
    Prog.trace, Prog.bump, Prog.bumpBy, hd, h1, h2, h3, h4, h5]

/-- A notice to a peer joins a transmit queue, or merges into the one that waits there (R244, R246). -/
theorem Prog.sendNotice_changes (c : Nat) (r : Rec) : (Prog.sendNotice u c r).changes P := by
  simp [Prog.sendNotice, Prog.sendPkt, hd]

end

/-- A change of the recorder alone: its buffers, and the bad pages of the flash (R414 to R416). -/
def Dev.recorderOnly (f : Dev → Dev) : Prop := ∀ d, ∃ v b, f d = { d with evr := v, bad := b }

section
variable {u : UnitId} (hd : ∀ f, Dev.recorderOnly f → P (.dev u f)) (hh : P (.htu HtuX.deferOne))
  (hw : ∀ v, P (.wr u Reg.EVR_STATUS_BUCKET v)) (hx : ∀ v, P (.wr u Reg.EVR_STATUS_DROPPED v))
include hd hh hw hx

/-- A record committed writes EVR_STATUS of its unit and no other part of the state than the recorder and the count of pages deferred (R414 to
R416). -/
theorem Prog.commitEv_changes (e : EvRec) : (Prog.commitEv u e).changes P := by
  simp only [Prog.commitEv, Prog.programPage, Prog.refill, Prog.evr, Prog.bump, Prog.bumpBy, Prog.changes_get, Prog.changes_seq_cons,
    Prog.changes_seq_nil, Prog.changes_cond, Prog.changes_both, Prog.changes_wr, Prog.changes_dev, Prog.changes_htu]
  exact fun s => ⟨fun _ _ => hx _, hd _ fun d => ⟨_, d.bad, rfl⟩, fun t _ => ⟨fun r _ => ⟨hw _, hd _ fun d => ⟨_, d.bad, rfl⟩, trivial⟩,
    fun r => ⟨fun _ => hh, fun _ => ⟨hw _, hd _ fun d => ⟨_, _, rfl⟩, trivial⟩⟩⟩, trivial⟩

/-- An event likewise (R415). -/
theorem Prog.event_changes (typ : Nat) (pl : List Byte) : (Prog.event u typ pl).changes P := by
  have hev (f : Evr → Evr) : (Prog.evr u f).changes P := hd _ fun d => ⟨_, d.bad, rfl⟩
  have hc := Prog.commitEv_changes hd hh hw hx
  simp only [Prog.event, Prog.foldEnd, Prog.changes_both, Prog.changes_get]
  refine ⟨by simp [hc, hev], fun s => (Prog.changes_ite _).2 ⟨fun _ => hev _, fun _ => ?_⟩⟩
  split <;> simp [hc, hev]

end

/-- A word of the trace writes only trace registers of its unit. -/
theorem Prog.traceData_keeps (u : UnitId) (src tag : Nat) (w : Word) :
    (Prog.traceData u src tag w).keeps fun v o => v = u ∧ o / 65536 = 5 :=
  (Prog.traceData_changes (fun _ => trivial) (fun _ _ h => ⟨rfl, h⟩) src tag w).keeps

/-- A word of the trace leaves the HTU's own part. -/
theorem Prog.traceData_hx (u : UnitId) (src tag : Nat) (w : Word) (s : State) : ((Prog.traceData u src tag w).run s).hx = s.hx :=
  (Prog.traceData_changes (P := Prog.htuLeaf id) (fun _ => trivial) (fun _ _ _ => trivial) src tag w).hx s

/-- A notice writes no register. -/
theorem Prog.sendNotice_keeps (u : UnitId) (c : Nat) (r : Rec) : (Prog.sendNotice u c r).keeps fun _ _ => False :=
  (Prog.sendNotice_changes (fun _ => trivial) c r).keeps

end Sys2Proof.Machine

end

section

/-! # Words of the link adders and of the window snoop: O48 -/

namespace Sys2Proof.Machine

variable (s : State) {port : Nat} {w : BitVec 128}

/-- A record of the Sentinel while it has no stream is counted and changes nothing else (R264). -/
theorem sntRec_unopened (h : s.on .htu Reg.SNT_STREAM_VALID = false) (typ : Nat) (step : BitVec 32) (t : Option Nat) (pl : List Byte) :
    (Prog.sntRec typ step t pl).run s = s.wr .htu Reg.SNT_STREAM_DROPPED (satAdd 16 (s.rd .htu Reg.SNT_STREAM_DROPPED) 1) := by
  simp only [Prog.sntRec, Prog.run_get, h, Bool.false_eq_true, if_false, Prog.run_bump]
  rfl

-- the fields of a LADD_EXC word

/-- The KIND of a LADD_EXC word (R251). -/
theorem laddKind : (w >>> 0).toNat % 2 ^ 4 = w.toNat % 16 := rfl

/-- A field of a LADD_EXC word, as its number says. -/
theorem laddField (lo n : Nat) : (w >>> lo).toNat % 2 ^ n = w.toNat / 2 ^ lo % 2 ^ n := by
  rw [BitVec.toNat_ushiftRight, Nat.shiftRight_eq_div_pow]

/-- The step that a LADD_EXC word belongs to: the newest OPEN one, else the last (R252). -/
def State.laddStep (s : State) : BitVec 32 := ((s.openCtx.map (·.step))).getD (BitVec.ofNat 32 (s.rd .htu Reg.SNT_STATUS_STEP))

/-- The notice that a LADD_EXC word sends (R243, R252, R253). -/
def State.laddNotice (s : State) (w : BitVec 128) (cause : Nat) : Prog := .sendNotice .htu 0 (s.msg .htu 0x41 0 (s.ns .htu)
  (taintPayload s.laddStep cause ((w >>> 8).toNat % 2 ^ 8) ((w >>> 120).toNat % 2 ^ 8) 0 (s.dieId .htu) ((w >>> 64).toNat % 2 ^ 32)
    ((w >>> 96).toNat % 2 ^ 16)))

/-- The first poison of the die is kept with its place (R252, R253). -/
def Prog.keepPoison (die coll block : Nat) (step : BitVec 32) : Prog := .seq [
  .wr .htu Reg.SNT_POISON_ORIGIN die, .wr .htu Reg.SNT_POISON_HERE 1, .wr .htu Reg.SNT_POISON_VALID 1,
  .wr .htu Reg.SNT_POISON_COLL_ID coll, .wr .htu Reg.SNT_POISON_BLOCK block, .wr .htu Reg.SNT_POISON_STEP step.toNat]

-- a LADD_EXC word by its KIND: always a trace word first

section
variable (port w)

/-- The trace word that a LADD_EXC word is (R349). -/
def State.laddTraced (s : State) (w : BitVec 128) : State := (Prog.traceData .htu 0x103 0 (w.setWidth 64)).run s

/-- An exponent notice counts (R251). -/
theorem laddWord_notice (h : w.toNat % 16 = 1) : (Prog.laddWord port w false).run s
    = (Prog.count .htu (Reg.TAP_DIE_CNT_COUNT 0)).run (s.laddTraced w) := by
  simp only [Prog.laddWord, Bool.false_eq_true, if_false, Prog.run_get, Prog.run_both, laddKind, h]
  rfl

/-- An overflow counts, is recorded, and is told to the peers (R252). -/
theorem laddWord_overflow (h : w.toNat % 16 = 4) : (Prog.laddWord port w false).run s
    = (s.laddNotice w 2).run ((Prog.sntRec 0x42 s.laddStep none (linkPayload s.laddStep w)).run
      ((Prog.count .htu (Reg.TAP_DIE_CNT_COUNT 1)).run (s.laddTraced w))) := by
  simp only [Prog.laddWord, Bool.false_eq_true, if_false, Prog.run_get, Prog.run_both, laddKind, h, Prog.run_seq_cons, Prog.run_seq_nil]
  rfl

/-- A poison counts, is kept where it is the first, is recorded, and is told to the peers (R253). -/
theorem laddWord_poison (h : w.toNat % 16 = 2 ∨ w.toNat % 16 = 3) : (Prog.laddWord port w false).run s
    = (s.laddNotice w 4).run ((Prog.sntRec 0x42 s.laddStep none (linkPayload s.laddStep w)).run
      ((Prog.cond (!s.on .htu Reg.SNT_POISON_VALID) (.keepPoison (s.dieId .htu) ((w >>> 64).toNat % 2 ^ 32) ((w >>> 96).toNat % 2 ^ 16)
        s.laddStep)).run ((Prog.count .htu (Reg.TAP_DIE_CNT_COUNT 0)).run (s.laddTraced w)))) := by
  rcases h with h | h <;>
    simp only [Prog.laddWord, Bool.false_eq_true, if_false, Prog.run_get, Prog.run_both, laddKind, h, Prog.run_seq_cons, Prog.run_seq_nil,
      true_or, or_true, if_true] <;> rfl

/-- A word of a reserved KIND does nothing else than count as such (R251). -/
theorem laddWord_reserved (h : w.toNat % 16 = 0 ∨ 4 < w.toNat % 16) : (Prog.laddWord port w false).run s
    = { s.laddTraced w with hx := { (s.laddTraced w).hx with laddBad := (s.laddTraced w).hx.laddBad + 1 } } := by
  have hk : w.toNat % 16 < 16 := Nat.mod_lt _ (by decide)
  have ne {k : Nat} (hk : k ∈ [1, 2, 3, 4]) : w.toNat % 16 ≠ k := by
    simp only [List.mem_cons, List.not_mem_nil, or_false] at hk; omega
  simp only [Prog.laddWord, Bool.false_eq_true, if_false, Prog.run_get, Prog.run_both, laddKind]
  split
  · exact absurd ‹_› (ne (by decide))
  · exact absurd ‹_› (ne (by decide))
  · rw [if_neg (by simp [ne])]
    rfl

end

-- what the registers show after an overflow or a poison

/-- A trace word of a link adder leaves the other registers. -/
theorem laddTraced_rd (f : Fld) (h : f.off / 65536 ≠ 5) : (s.laddTraced w).rd .htu f = s.rd .htu f :=
  Prog.rd_keeps (Prog.traceData_keeps _ _ _ _) f (fun e => h e.2) s

/-- The notice of a LADD_EXC word writes no register. -/
theorem laddNotice_rd (b t : State) (cause : Nat) (f : Fld) : ((b.laddNotice w cause).run t).rd .htu f = t.rd .htu f :=
  Prog.rd_keeps (Prog.sendNotice_keeps _ _ _) f id t

/-- The record of a LADD_EXC word, while the Sentinel has no stream, writes only SNT_STREAM. -/
theorem laddRecord_rd (h : s.on .htu Reg.SNT_STREAM_VALID = false) (step : BitVec 32) (pl : List Byte) (f : Fld)
    (hf : f.off ≠ Reg.SNT_STREAM_DROPPED.off) : ((Prog.sntRec 0x42 step none pl).run s).rd .htu f = s.rd .htu f := by
  rw [sntRec_unopened s h, State.rd_wr_other _ _ _ _ _ (.inr (.inl hf))]

/-- An overflow advances its counter (R252). -/
theorem laddWord_overflow_count (hk : w.toNat % 16 = 4) (hv : s.on .htu Reg.SNT_STREAM_VALID = false) :
    ((Prog.laddWord port w false).run s).rd .htu (Reg.TAP_DIE_CNT_COUNT 1) = (s.rd .htu (Reg.TAP_DIE_CNT_COUNT 1) + 1) % 2 ^ 64 := by
  rw [laddWord_overflow s port w hk, laddNotice_rd, laddRecord_rd _ _ _ _ _ (by decide), Prog.run_count, State.rd_wr_same _ _ _ _ (by decide),
    laddTraced_rd _ _ (by decide)]
  · rfl
  · rw [State.on, Prog.run_count, State.rd_wr_other _ _ _ _ _ (by decide), laddTraced_rd _ _ (by decide)]
    exact hv

/-- The state in which the first poison of the die has been kept. -/
def State.poisoned (s : State) (w : BitVec 128) : State :=
  (Prog.keepPoison (s.dieId .htu) ((w >>> 64).toNat % 2 ^ 32) ((w >>> 96).toNat % 2 ^ 16) s.laddStep).run
    ((Prog.count .htu (Reg.TAP_DIE_CNT_COUNT 0)).run (s.laddTraced w))

/-- What the die shows of the first poison (R253). -/
theorem poisoned_rd : (s.poisoned w).rd .htu (Reg.TAP_DIE_CNT_COUNT 0) = (s.rd .htu (Reg.TAP_DIE_CNT_COUNT 0) + 1) % 2 ^ 64 ∧
    (s.poisoned w).rd .htu Reg.SNT_POISON_VALID = 1 ∧ (s.poisoned w).rd .htu Reg.SNT_POISON_HERE = 1 ∧
    (s.poisoned w).rd .htu Reg.SNT_POISON_ORIGIN = s.dieId .htu % 2 ^ 17 ∧
    (s.poisoned w).rd .htu Reg.SNT_POISON_COLL_ID = w.toNat / 2 ^ 64 % 2 ^ 32 ∧
    (s.poisoned w).rd .htu Reg.SNT_POISON_BLOCK = w.toNat / 2 ^ 96 % 2 ^ 16 ∧
    (s.poisoned w).on .htu Reg.SNT_STREAM_VALID = s.on .htu Reg.SNT_STREAM_VALID := by
  simp only [State.poisoned, Prog.keepPoison, Prog.run_seq_cons, Prog.run_seq_nil, Prog.run_wr, Prog.run_count, State.on, laddField]
  refine ⟨?_, ?_, ?_, ?_, ?_, ?_, ?_⟩ <;>
    simp (disch := decide) only [State.rd_wr_same, State.rd_wr_other, laddTraced_rd]
  · rfl
  · rfl
  · rfl
  · rfl
  · exact Nat.mod_mod _ _
  · exact Nat.mod_mod _ _

/-- The first poison that a link adder reports is kept with its place (R253). -/
theorem laddWord_first_poison (hk : w.toNat % 16 = 2 ∨ w.toNat % 16 = 3) (hp : s.on .htu Reg.SNT_POISON_VALID = false)
    (hv : s.on .htu Reg.SNT_STREAM_VALID = false) (f : Fld) (hf : f.off ≠ Reg.SNT_STREAM_DROPPED.off) :
    ((Prog.laddWord port w false).run s).rd .htu f = (s.poisoned w).rd .htu f := by
  obtain ⟨-, -, -, -, -, -, hs⟩ := poisoned_rd s (w := w)
  rw [laddWord_poison s port w hk, hp, Bool.not_false, Prog.run_cond_true, laddNotice_rd]
  exact laddRecord_rd (s.poisoned w) (hs.trans hv) _ _ _ hf

-- a word of the window snoop

section
variable (tag : BitVec 16) (x : BitVec 512) (last : Bool)

/-- The state in which a WIN_SNOOP word has been counted: 64 bytes (R175). -/
def State.snooped (s : State) : State := s.wr .htu (Reg.TAP_DIE_CNT_COUNT 2) (s.rd .htu (Reg.TAP_DIE_CNT_COUNT 2) + 64)

/-- A tensor that ends is no longer one whose words are not digested (R256). -/
def State.tensorEnds (s : State) (t : Nat) (last : Bool) : State :=
  if last then { s with hx := { s.hx with overTags := s.hx.overTags.filter (· != t) } } else s

/-- The end of a tensor leaves the registers. -/
theorem tensorEnds_rd (t : Nat) (f : Fld) : (s.tensorEnds t last).rd .htu f = s.rd .htu f := by
  cases last <;> rfl

/-- The end of a tensor leaves the digests under way. -/
theorem tensorEnds_digests (t : Nat) : (s.tensorEnds t last).hx.digests = s.hx.digests := by
  cases last <;> rfl

/-- A dropped word of the window snoop: its tensor's digest becomes INVALID, where its words are digested (R41, R256). -/
theorem winWord_dropped : (Prog.winWord tag x last true).run s =
    (if s.hx.overTags.contains tag.toNat then (Prog.dropWord 8 3).run s
      else (Prog.digOpen tag.toNat Prog.digInvalid).run ((Prog.dropWord 8 3).run s)).tensorEnds tag.toNat last := by
  simp only [Prog.winWord, Prog.run_get, Prog.run_seq_cons, Prog.run_seq_nil, if_true, Prog.run_cond, Prog.run_htu, State.tensorEnds,
    Bool.not_eq_true', ← Bool.not_eq_true, ite_not]

/-- A word of a tensor whose words are not digested counts its bytes (R256). -/
theorem winWord_over (h : s.hx.overTags.contains tag.toNat = true) :
    (Prog.winWord tag x last false).run s = s.snooped.tensorEnds tag.toNat last := by
  simp only [Prog.winWord, Prog.run_get, Prog.run_seq_cons, Prog.run_seq_nil, Bool.false_eq_true, if_false, Prog.run_cond, Prog.run_htu, h,
    Bool.not_true, Prog.run_count]
  rfl

/-- The entry of a tensor whose digest is OPEN (R256). -/
theorem digOpen_opened {t e : Nat} (go : Nat → Prog) (h : s.digEntry t 1 = some e) : (Prog.digOpen t go).run s = (go e).run s := by
  simp only [Prog.digOpen, Prog.run_get, h]

/-- Counted bytes leave the digests' registers. -/
theorem snooped_rd (f : Fld) (h : f.off ≠ 0x10110) : s.snooped.rd .htu f = s.rd .htu f :=
  State.rd_wr_other _ _ _ _ _ (.inr (.inl h))

/-- Counted bytes leave the entries. -/
theorem snooped_digEntry (t st : Nat) : s.snooped.digEntry t st = s.digEntry t st := by
  have ht (e : Nat) : s.snooped.rd .htu (Reg.SNT_DIGEST_TAG e) = s.rd .htu (Reg.SNT_DIGEST_TAG e) :=
    snooped_rd s _ (by simp only [Reg.SNT_DIGEST_TAG]; omega)
  have hst (e : Nat) : s.snooped.rd .htu (Reg.SNT_DIGEST_STATE e) = s.rd .htu (Reg.SNT_DIGEST_STATE e) :=
    snooped_rd s _ (by simp only [Reg.SNT_DIGEST_STATE]; omega)
  simp only [State.digEntry, ht, hst]

/-- A word of a tensor whose digest is OPEN joins it (R255, R256). -/
theorem winWord_open {e : Nat} (ho : s.hx.overTags.contains tag.toNat = false) (he : s.digEntry tag.toNat 1 = some e) :
    (Prog.winWord tag x last false).run s = ((Prog.digTakeWord e x last).run s.snooped).tensorEnds tag.toNat last := by
  have hd := digOpen_opened s.snooped (fun e => Prog.digTakeWord e x last) ((snooped_digEntry s _ _).trans he)
  simp only [Prog.winWord, Prog.run_get, Prog.run_seq_cons, Prog.run_seq_nil, Bool.false_eq_true, if_false, Prog.run_cond, Prog.run_htu, ho,
    Bool.not_false, if_true, Prog.run_count]
  rw [← State.snooped, hd]
  rfl

/-- A word advances the LENGTH of its entry by its 64 bytes and no counter of the die (R255). -/
theorem digTakeWord_rd (e : Nat) (f : Fld) (hf : f.off < 0x32000) :
    ((Prog.digTakeWord e x last).run s).rd .htu f = s.rd .htu f ∧
    ((Prog.digTakeWord e x last).run s).rd .htu (Reg.SNT_DIGEST_LENGTH e) = (s.rd .htu (Reg.SNT_DIGEST_LENGTH e) + 64) % 2 ^ 64 := by
  cases last
  all_goals
    simp only [Prog.digTakeWord, Prog.run_get, Prog.run_seq_cons, Prog.run_seq_nil, Bool.false_eq_true, if_false, if_true, Prog.run_wr,
      Prog.run_htu, State.rd_hx]
    constructor
    · simp (disch := simp only [Reg.SNT_DIGEST_LENGTH, Reg.SNT_DIGEST_STEP, Reg.SNT_DIGEST_STATE, Reg.SNT_DIGEST_DIGEST_LO,
        Reg.SNT_DIGEST_DIGEST_HI]; omega) only [State.rd_wr_other]
    · simp (disch := simp [Reg.SNT_DIGEST_LENGTH, Reg.SNT_DIGEST_STEP, Reg.SNT_DIGEST_STATE, Reg.SNT_DIGEST_DIGEST_LO,
        Reg.SNT_DIGEST_DIGEST_HI]) only [State.rd_wr_other, State.rd_wr_same]
      rfl

/-- The last word of a tensor makes its entry DONE (R256). -/
theorem digTakeWord_last (e : Nat) : ((Prog.digTakeWord e x true).run s).rd .htu (Reg.SNT_DIGEST_STATE e) = 2 := by
  simp only [Prog.digTakeWord, Prog.run_get, Prog.run_seq_cons, Prog.run_seq_nil, if_true, Prog.run_wr, Prog.run_htu, State.rd_hx]
  simp (disch := simp [Reg.SNT_DIGEST_STATE, Reg.SNT_DIGEST_DIGEST_LO, Reg.SNT_DIGEST_DIGEST_HI]) only [State.rd_wr_other]
  exact State.rd_wr_same _ _ _ _ (show 16 + 2 ≤ 64 by decide)

/-- Another word leaves its entry OPEN, with the digest after the word (R255). -/
theorem digTakeWord_more (e : Nat) : ((Prog.digTakeWord e x false).run s).rd .htu (Reg.SNT_DIGEST_STATE e) = s.rd .htu (Reg.SNT_DIGEST_STATE e) ∧
    Sparse.get 0 ((Prog.digTakeWord e x false).run s).hx.digests e = digestWord s.digestKey (Sparse.get 0 s.hx.digests e) x := by
  simp only [Prog.digTakeWord, Prog.run_get, Prog.run_seq_cons, Prog.run_seq_nil, Bool.false_eq_true, if_false, Prog.run_wr, Prog.run_htu,
    State.rd_hx, Sparse.get_put_same, and_true]
  simp (disch := simp [Reg.SNT_DIGEST_STATE, Reg.SNT_DIGEST_LENGTH, Reg.SNT_DIGEST_STEP]) only [State.rd_wr_other]

end

/-- Settles O48: a LADD_EXC word by its KIND, and a WIN_SNOOP word by its tensor's entry. -/
theorem linkAndWindowWords : Obligations.LinkAndWindowWords := by
  intro s hr
  have hladd {port : Nat} (hp : port < 8) (w : BitVec 128) (full : Bool) :
      exec (.laddExcWord port w full) s = .next ((Prog.laddWord port w full).run s) :=
    (nextIf_of hp _ s).trans (next_up _ hr)
  have hwin (tag : BitVec 16) (x : BitVec 512) (last full : Bool) :
      exec (.winSnoopWord tag x last full) s = .next ((Prog.winWord tag x last full).run s) := next_up _ hr
  refine ⟨fun port hp w => ⟨hladd hp w true, ⟨fun hk => ?_, fun hk => ?_⟩, fun hk hv => ⟨_, hladd hp w false, laddWord_overflow_count s hk hv⟩,
    fun hk hpo hv => ⟨_, hladd hp w false, ?_⟩⟩, fun tag x last => ⟨?_, fun e go he _ => digOpen_opened s go he, fun ho => ?_,
    fun e _ ho he => ⟨_, hwin tag x last false, ?_⟩⟩⟩
  · rw [hladd hp, laddWord_notice s port w hk]
    rfl
  · rw [hladd hp, laddWord_reserved s port w hk]
    rfl
  · obtain ⟨hc, hvalid, hhere, ho, hid, hb, -⟩ := poisoned_rd s (w := w)
    have hrd := laddWord_first_poison s (port := port) hk hpo hv
    exact ⟨(hrd _ (by decide)).trans hc, (hrd _ (by decide)).trans hvalid, (hrd _ (by decide)).trans hhere, (hrd _ (by decide)).trans ho,
      (hrd _ (by decide)).trans hid, (hrd _ (by decide)).trans hb⟩
  · rw [hwin, winWord_dropped]
    rfl
  · rw [hwin, winWord_over s tag x last ho]
    rfl
  · rw [winWord_open s tag x last ho he]
    simp only [tensorEnds_rd, tensorEnds_digests]
    obtain ⟨hcnt, hlen⟩ := digTakeWord_rd s.snooped x last e (Reg.TAP_DIE_CNT_COUNT 2) (by decide)
    have hst : s.snooped.rd .htu (Reg.SNT_DIGEST_STATE e) = s.rd .htu (Reg.SNT_DIGEST_STATE e) :=
      snooped_rd s _ (by simp only [Reg.SNT_DIGEST_STATE]; omega)
    have hl : s.snooped.rd .htu (Reg.SNT_DIGEST_LENGTH e) = s.rd .htu (Reg.SNT_DIGEST_LENGTH e) :=
      snooped_rd s _ (by simp only [Reg.SNT_DIGEST_LENGTH]; omega)
    have hkey : s.snooped.digestKey = s.digestKey := by
      rw [State.digestKey, snooped_rd s _ (by decide), snooped_rd s _ (by decide), State.digestKey]
    refine ⟨hcnt.trans (State.rd_wr_same _ _ _ _ (by decide)), hlen.trans (by rw [hl]), ?_, ?_⟩
    · rintro rfl
      exact digTakeWord_last _ x e
    · rintro rfl
      obtain ⟨hs, hd⟩ := digTakeWord_more s.snooped x e
      exact ⟨hs.trans hst, hd.trans (by rw [hkey]; rfl)⟩

end Sys2Proof.Machine

end

section

/-! # The voltage-frequency sequencer: O49 -/

namespace Sys2Proof.Machine

variable (s : State)

-- programs of the sequencer and what they leave

/-- Marking the steps that run below their frequency writes no register (R335). -/
theorem Prog.markCap_keeps : Prog.markCap.keeps fun _ _ => False := fun _ => Prog.keeps_cond _ trivial

/-- Marking the steps changes nothing of the HTU but its steps. -/
theorem Prog.markCap_hx {α : Type} (g : HtuX → α) (hg : ∀ x l, g { x with steps := l } = g x) : g (Prog.markCap.run s).hx = g s.hx :=
  Prog.changes.hx (by simp [Prog.markCap, hg]) s

/-- The sequencer's next handshake counts and writes no other register (R326, R349). -/
theorem Prog.sequence_keeps : Prog.sequence.keeps fun u o => u = .htu ∧ o = 0x10130 := by
  refine Prog.changes.keeps ?_
  simp [Prog.sequence, Prog.count, Prog.send, Reg.TAP_DIE_CNT_COUNT]

/-- What a group shows beside its entries: neither the ceilings nor the sequencer write its AGE_MON words (R328, R329). -/
theorem Prog.ceilings_keeps : Prog.ceilings.keeps fun u o => u = .htu ∧ (o = 0x40000 ∨ o = 0x10130 ∨ ∃ g, o = 0x40200 + 32 * g) := by
  simp only [Prog.ceilings, Prog.keeps_get, Prog.keeps_seq_cons, Prog.keeps_seq_nil, Prog.keeps_wr, and_true]
  exact fun t => ⟨Prog.keeps_each fun g => ⟨rfl, .inr (.inr ⟨g, rfl⟩)⟩, ⟨trivial, .inl rfl⟩, Prog.keeps_mono Prog.markCap_keeps fun _ _ => False.elim,
    Prog.keeps_mono Prog.sequence_keeps fun _ _ h => ⟨h.1, .inr (.inl h.2)⟩⟩

/-- The ceilings and the sequencer leave what the monitors have answered (R329). -/
theorem Prog.ceilings_age : (Prog.ceilings.run s).hx.age = s.hx.age :=
  Prog.changes.hx (g := HtuX.age) (by simp [Prog.ceilings, Prog.markCap, Prog.sequence, Prog.count, Prog.send]) s

-- an acknowledgement

/-- The state in which CAP_ACK has been taken, before its operation is carried out (R42, R327). -/
def State.capAcked (s : State) (slow : Bool) (h : Handshake) : State :=
  { (if slow then s.wr .htu Reg.PWR_STATUS_ACK_SLOW (satAdd Reg.PWR_STATUS_ACK_SLOW.width (s.rd .htu Reg.PWR_STATUS_ACK_SLOW) 1) else s) with
    hx := { s.hx with hs := some { h with acked := true } } }

section
variable (slow : Bool) (h : Handshake)

/-- An acknowledgement counts its lateness and leaves every other field. -/
theorem capAcked_rd (f : Fld) (hf : f.off ≠ 0x40000 ∨ f.lsb + f.width ≤ 40) : (s.capAcked slow h).rd .htu f = s.rd .htu f := by
  rw [State.capAcked, State.rd_hx]
  split
  · exact State.rd_wr_other s _ Reg.PWR_STATUS_ACK_SLOW f _ (.inr (hf.imp_right .inl))
  · rfl

/-- An acknowledgement leaves the entries of every group, and the time. -/
@[simp] theorem capAcked_fIdx (g : Nat) : (s.capAcked slow h).fIdx g = s.fIdx g :=
  capAcked_rd s slow h (Reg.PWR_GRP_F_IDX g) (.inl (by simp only [Reg.PWR_GRP_F_IDX]; omega))
@[simp] theorem capAcked_vIdx (g : Nat) : (s.capAcked slow h).vIdx g = s.vIdx g :=
  capAcked_rd s slow h (Reg.PWR_GRP_V_IDX g) (.inl (by simp only [Reg.PWR_GRP_V_IDX]; omega))
@[simp] theorem capAcked_mhz (i : Nat) : (s.capAcked slow h).rd .htu (Reg.PWR_VF_MHZ i) = s.rd .htu (Reg.PWR_VF_MHZ i) :=
  capAcked_rd s slow h (Reg.PWR_VF_MHZ i) (.inl (by simp only [Reg.PWR_VF_MHZ, Fld.at]; omega))
@[simp] theorem capAcked_mv (i : Nat) : (s.capAcked slow h).rd .htu (Reg.PWR_VF_MV i) = s.rd .htu (Reg.PWR_VF_MV i) :=
  capAcked_rd s slow h (Reg.PWR_VF_MV i) (.inl (by simp only [Reg.PWR_VF_MV, Fld.at]; omega))
@[simp] theorem capAcked_stepRec : (s.capAcked slow h).on .htu Reg.PWR_CTL_STEP_REC = s.on .htu Reg.PWR_CTL_STEP_REC :=
  congrArg (· != 0) (capAcked_rd s slow h Reg.PWR_CTL_STEP_REC (.inr (by decide)))
@[simp] theorem capAcked_ns : (s.capAcked slow h).ns .htu = s.ns .htu := by
  cases slow <;> rfl

end

/-- Four programs in order. -/
theorem Prog.run_seq_four (a b c d : Prog) : (Prog.seq [a, b, c, d]).run s = d.run (c.run (b.run (a.run s))) := rfl

/-- CAP_ACK taken, as the model takes it. -/
theorem capAcked_run (slow : Bool) (op : SeqOp) (acked late : Bool) :
    (Prog.htu fun x => { x with hs := some { op, acked := true, late } }).run
      ((Prog.cond slow (Prog.bump .htu Reg.PWR_STATUS_ACK_SLOW)).run s) = s.capAcked slow { op, acked, late } := by
  cases slow <;> rfl

/-- A group's frequency entry becomes `i`, shown with its time and its gauge (R325, R327). -/
def State.steppedF (b : State) (g i t mhz : Nat) : State :=
  let f := (b.wr .htu (Reg.PWR_GRP_F_IDX g) i).wr .htu (Reg.PWR_GRP_LAST_F_NS g) t
  { f with hx := { f.hx with fGauge := Sparse.set 0 f.hx.fGauge g mhz } }

/-- A frequency entry moved, as the model moves it. -/
theorem steppedF_run (b : State) (g i t mhz : Nat) :
    (Prog.htu fun x => { x with fGauge := Sparse.set 0 x.fGauge g mhz }).run
      ((Prog.wr .htu (Reg.PWR_GRP_LAST_F_NS g) t).run ((Prog.wr .htu (Reg.PWR_GRP_F_IDX g) i).run b)) = b.steppedF g i t mhz := rfl

/-- A group's voltage entry becomes `i`, shown with its gauge; a raise then settles (R325, R326). -/
def State.steppedV (b : State) (g d i mv : Nat) : State :=
  let f := b.wr .htu (Reg.PWR_GRP_V_IDX g) i
  { f with hx := { f.hx with
      vGauge := Sparse.set 0 f.hx.vGauge g mv
      settling := if d = 1 then some g else f.hx.settling } }

/-- A voltage entry moved, as the model moves it. -/
theorem steppedV_run (b : State) (g d i mv : Nat) :
    (Prog.htu fun x => { x with vGauge := Sparse.set 0 x.vGauge g mv, settling := if d = 1 then some g else x.settling }).run
      ((Prog.wr .htu (Reg.PWR_GRP_V_IDX g) i).run b) = b.steppedV g d i mv := rfl

/-- The trace word of a SET_F (R349). -/
def Prog.traceSetF (g f f' v : Nat) : Prog := .traceData .htu 0x101 0 (BitVec.ofNat 64 (g + 2 ^ 8 * f + 2 ^ 16 * f' + 2 ^ 24 * v))

section
variable {s} {h : Handshake} (slow : Bool)

/-- Without a handshake in flight an acknowledgement does nothing. -/
theorem capAck_none (hh : s.hx.hs = none) : (Prog.capAck slow).run s = s := by
  simp only [Prog.capAck, Prog.run_get, hh, Prog.run_opt_none]

/-- A handshake is acknowledged once. -/
theorem capAck_again (hh : s.hx.hs = some h) (ha : h.acked = true) : (Prog.capAck slow).run s = s := by
  simp only [Prog.capAck, Prog.run_get, hh, Prog.run_opt_some, ha, Bool.not_true, Prog.run_cond_false]

variable (hh : s.hx.hs = some h) (ha : h.acked = false)
include hh ha

/-- SET_F acknowledged: the entry moves, a trace word, a record where they are enabled, and the marks of the steps (R325, R327, R335). -/
theorem capAck_setF {g d : Nat} (ho : h.op = .setF g d) :
    let b := s.capAcked slow h
    (Prog.capAck slow).run s = Prog.markCap.run
      ((Prog.cond (b.on .htu Reg.PWR_CTL_STEP_REC) (.powerRec .htu 0x72
          (le 1 g ++ le 1 (b.fIdx g) ++ le 1 (stepIdx (b.fIdx g) d) ++ le 1 (b.vIdx g) ++ zeros 4))).run
        ((Prog.traceSetF g (b.fIdx g) (stepIdx (b.fIdx g) d) (b.vIdx g)).run
          (b.steppedF g (stepIdx (b.fIdx g) d) (b.ns .htu) (b.rd .htu (Reg.PWR_VF_MHZ (stepIdx (b.fIdx g) d)))))) := by
  obtain ⟨op, acked, late⟩ := h
  obtain rfl : op = .setF g d := ho
  obtain rfl : acked = false := ha
  intro b
  rw [Prog.capAck, Prog.run_get, hh, Prog.run_opt_some, Bool.not_false, Prog.run_cond_true, Prog.run_seq_four, capAcked_run s slow _ false]
  dsimp only
  rw [Prog.run_seq_cons, Prog.run_seq_cons, Prog.run_seq_cons, Prog.run_seq_cons, Prog.run_seq_cons, Prog.run_seq_nil, steppedF_run,
    Prog.traceSetF, capAcked_fIdx, capAcked_vIdx, capAcked_stepRec, capAcked_mhz, capAcked_ns]

/-- SET_V acknowledged: the entry moves, and the marks of the steps (R325, R326, R335). -/
theorem capAck_setV {g d : Nat} (ho : h.op = .setV g d) :
    let b := s.capAcked slow h
    (Prog.capAck slow).run s =
      Prog.markCap.run (b.steppedV g d (stepIdx (b.vIdx g) d) (b.rd .htu (Reg.PWR_VF_MV (stepIdx (b.vIdx g) d)))) := by
  obtain ⟨op, acked, late⟩ := h
  obtain rfl : op = .setV g d := ho
  obtain rfl : acked = false := ha
  intro b
  rw [Prog.capAck, Prog.run_get, hh, Prog.run_opt_some, Bool.not_false, Prog.run_cond_true, Prog.run_seq_four, capAcked_run s slow _ false]
  dsimp only
  rw [Prog.run_seq_cons, Prog.run_seq_cons, Prog.run_seq_nil, steppedV_run, capAcked_vIdx, capAcked_mv]

/-- HOLD and RELEASE acknowledged change no entry (R325). -/
theorem capAck_hold (ho : h.op = .hold ∨ h.op = .release) : (Prog.capAck slow).run s = Prog.markCap.run (s.capAcked slow h) := by
  obtain ⟨op, acked, late⟩ := h
  obtain rfl : acked = false := ha
  rw [Prog.capAck, Prog.run_get, hh, Prog.run_opt_some, Bool.not_false, Prog.run_cond_true, Prog.run_seq_four, capAcked_run s slow _ false]
  rcases ho with rfl | rfl <;> rfl

/-- SET_F acknowledged where no record is enabled (R325, R327). -/
theorem capAck_setF_unrecorded {g d : Nat} (ho : h.op = .setF g d) (hrec : s.on .htu Reg.PWR_CTL_STEP_REC = false) :
    (Prog.capAck slow).run s = Prog.markCap.run ((Prog.traceSetF g (s.fIdx g) (stepIdx (s.fIdx g) d) (s.vIdx g)).run
      ((s.capAcked slow h).steppedF g (stepIdx (s.fIdx g) d) (s.ns .htu) (s.rd .htu (Reg.PWR_VF_MHZ (stepIdx (s.fIdx g) d))))) := by
  rw [capAck_setF slow hh ha ho, capAcked_stepRec, hrec, Prog.run_cond_false, capAcked_fIdx, capAcked_vIdx, capAcked_ns, capAcked_mhz]

end

-- what a group's entries show after a move

section
variable (b : State) (g d i t m : Nat)

/-- The trace word of a SET_F and the marks of the steps write only trace registers. -/
theorem traced_word (f f' v off : Nat) (h5 : off / 65536 ≠ 5) :
    (Prog.markCap.run ((Prog.traceSetF g f f' v).run b)).word .htu off = b.word .htu off :=
  (Prog.word_keeps Prog.markCap_keeps id _).trans (Prog.word_keeps (Prog.traceData_keeps _ _ _ _) (fun e => h5 e.2) b)

theorem traced_rd (f f' v : Nat) (r : Fld) (h5 : r.off / 65536 ≠ 5) :
    (Prog.markCap.run ((Prog.traceSetF g f f' v).run b)).rd .htu r = b.rd .htu r :=
  congrArg r.getW (traced_word b g f f' v r.off h5)

/-- They change nothing of the HTU but its steps. -/
theorem traced_hx {α : Type} (f f' v : Nat) (k : HtuX → α) (hk : ∀ x l, k { x with steps := l } = k x) :
    k (Prog.markCap.run ((Prog.traceSetF g f f' v).run b)).hx = k b.hx :=
  (Prog.markCap_hx _ k hk).trans (congrArg k (Prog.traceData_hx _ _ _ _ b))

/-- A frequency entry moved: what the group shows (R325, R327). -/
theorem steppedF_rd : (b.steppedF g i t m).rd .htu (Reg.PWR_GRP_F_IDX g) = i % 16 ∧
    (b.steppedF g i t m).rd .htu (Reg.PWR_GRP_LAST_F_NS g) = t % 2 ^ 64 ∧
    (b.steppedF g i t m).rd .htu (Reg.PWR_GRP_V_IDX g) = b.vIdx g := by
  simp only [State.steppedF, State.rd_hx]
  refine ⟨?_, State.rd_wr_same _ _ _ _ (show 0 + 64 ≤ 64 by decide), ?_⟩
  · rw [State.rd_wr_other _ _ _ _ _ (by simp [Reg.PWR_GRP_F_IDX, Reg.PWR_GRP_LAST_F_NS]),
      State.rd_wr_same _ _ _ _ (show 0 + 4 ≤ 64 by decide)]
    rfl
  · rw [State.rd_wr_other _ _ _ _ _ (by simp [Reg.PWR_GRP_V_IDX, Reg.PWR_GRP_LAST_F_NS]),
      State.rd_wr_other _ _ _ _ _ (by simp [Reg.PWR_GRP_V_IDX, Reg.PWR_GRP_F_IDX])]
    rfl

/-- It writes no other word than the two of its group. -/
theorem steppedF_word {off : Nat} (h0 : off ≠ 0x40200 + 32 * g) (h1 : off ≠ 0x40210 + 32 * g) :
    (b.steppedF g i t m).word .htu off = b.word .htu off := by
  rw [State.steppedF, State.word_hx, State.word_wr_other _ _ _ _ (.inr h1), State.word_wr_other _ _ _ _ (.inr h0)]

/-- A voltage entry moved: what the group shows (R325, R326). -/
theorem steppedV_rd : (b.steppedV g d i m).rd .htu (Reg.PWR_GRP_V_IDX g) = i % 16 ∧
    (b.steppedV g d i m).rd .htu (Reg.PWR_GRP_F_IDX g) = b.fIdx g ∧
    (b.steppedV g d i m).rd .htu Reg.PWR_STATUS_ACK_SLOW = b.rd .htu Reg.PWR_STATUS_ACK_SLOW := by
  simp only [State.steppedV, State.rd_hx]
  refine ⟨State.rd_wr_same _ _ _ _ (show 4 + 4 ≤ 64 by decide), ?_, ?_⟩
  · rw [State.rd_wr_other _ _ _ _ _ (by simp [Reg.PWR_GRP_V_IDX, Reg.PWR_GRP_F_IDX])]
    rfl
  · rw [State.rd_wr_other _ _ _ _ _ (by simp only [Reg.PWR_GRP_V_IDX, Reg.PWR_STATUS_ACK_SLOW]; omega)]

end

-- a monitor's answer

/-- What a group shows after its monitor's answer, before the ceilings follow (R329). -/
def State.ageTaken (s : State) (g : Nat) (last : List (BitVec 24)) (low : Nat) : State :=
  { s with hx := { s.hx with age := Sparse.put s.hx.age g last } }.wr .htu (Reg.PWR_GRP_AGE_MIN g) low

/-- The least of some counts fits its field. -/
theorem ageLow_lt (l : List (BitVec 24)) (m : Nat) (h : m < 2 ^ 24) : l.foldl (fun m c => min m c.toNat) m < 2 ^ 24 := by
  induction l generalizing m with
  | nil => exact h
  | cons c t ih => exact ih _ ((Nat.min_le_left _ _).trans_lt h)

/-- The sixteen latest answers of a group's monitor (R329). -/
def State.ageLast (s : State) (g : Nat) (count : BitVec 24) : List (BitVec 24) := (count :: (Sparse.find s.hx.age g).getD []).take 16

/-- The least of them (R329). -/
def State.ageLow (s : State) (g : Nat) (count : BitVec 24) : Nat :=
  (s.ageLast g count).foldl (fun m c => min m c.toNat) (2 ^ 24 - 1)

/-- The trimmed frequency after an answer (R329). -/
def State.ageMhz (s : State) (g : Nat) (count : BitVec 24) : Nat :=
  trimMhz (s.rd .htu (Reg.PWR_GRP_FMAX_FUSE g)) (s.ageLow g count) (s.rd .htu (Reg.PWR_GRP_AGE_BASE g)) (s.rd .htu Reg.PWR_TRIM_GUARD)

/-- What a trim sets: the group's TRIM_MHZ, its clusters' ceilings, and what follows from them (R328, R329). -/
def Prog.trimmed (s : State) (g mhz : Nat) : Prog := .seq [
  .wr .htu (Reg.PWR_GRP_TRIM_MHZ g) mhz,
  .each ((List.range 17).map (17 * g + ·)) fun n => .wr .htu (Reg.PWR_FMAX_MHZ n) (min (s.rd .htu (Reg.PWR_FMAX_MHZ n)) mhz),
  .ceilings]

/-- A monitor's answer: its counts, and the trim where it is enabled (R329). -/
theorem ageDone_run (g : Nat) (count : BitVec 24) : (Prog.ageDone g count).run s =
    (Prog.cond (s.on .htu Reg.PWR_TRIM_TRIM_EN) (.trimmed s g (s.ageMhz g count))).run
      (s.ageTaken g (s.ageLast g count) (s.ageLow g count)) := rfl

section
variable (t : State) (g mhz : Nat)

/-- A trim's clusters' ceilings lie in words of their own (R328). -/
theorem trimmed_ceilings_keeps : (Prog.both (.each ((List.range 17).map (17 * g + ·)) fun n =>
      .wr .htu (Reg.PWR_FMAX_MHZ n) (min (s.rd .htu (Reg.PWR_FMAX_MHZ n)) mhz)) .ceilings).keeps
    fun u o => u = .htu ∧ ((o = 0x40000 ∨ o = 0x10130 ∨ ∃ g, o = 0x40200 + 32 * g) ∨ 0xa3000 ≤ o) := by
  refine ⟨Prog.keeps_each fun n => ⟨rfl, .inr ?_⟩, Prog.keeps_mono Prog.ceilings_keeps fun _ _ h => ⟨h.1, .inl h.2⟩⟩
  simp only [Reg.PWR_FMAX_MHZ, Fld.at]
  omega

/-- A trim shows the trimmed frequency and leaves AGE_MIN (R329). -/
theorem trimmed_rd (hg : g < 16) : ((Prog.trimmed s g mhz).run t).rd .htu (Reg.PWR_GRP_TRIM_MHZ g) = mhz % 2 ^ 16 ∧
    ((Prog.trimmed s g mhz).run t).rd .htu (Reg.PWR_GRP_AGE_MIN g) = t.rd .htu (Reg.PWR_GRP_AGE_MIN g) := by
  have hk (f : Fld) (hf : f.off = 0x40208 + 32 * g) : ((Prog.trimmed s g mhz).run t).rd .htu f = (t.wr .htu (Reg.PWR_GRP_TRIM_MHZ g) mhz).rd .htu f := by
    rw [Prog.trimmed, Prog.run_seq_cons]
    refine Prog.rd_keeps (trimmed_ceilings_keeps s g mhz) f ?_ _
    rintro ⟨-, h⟩
    rw [hf] at h
    rcases h with (h | h | ⟨k, h⟩) | h <;> omega
  rw [hk _ rfl, hk _ rfl]
  exact ⟨State.rd_wr_same _ _ _ _ (show 48 + 16 ≤ 64 by decide),
    State.rd_wr_other _ _ _ _ _ (by simp [Reg.PWR_GRP_AGE_MIN, Reg.PWR_GRP_TRIM_MHZ])⟩

/-- A trim leaves the answers. -/
theorem trimmed_age : ((Prog.trimmed s g mhz).run t).hx.age = t.hx.age :=
  Prog.changes.hx (g := HtuX.age)
    (by simp [Prog.trimmed, Prog.ceilings, Prog.markCap, Prog.sequence, Prog.count, Prog.send]) t

end

/-- A monitor's answer joins the sixteen latest, shows the least, and with the trim enabled sets the trimmed frequency; without it nothing else
changes (R329). -/
theorem ageDone_leaves {g : Nat} (hg : g < 16) (count : BitVec 24) :
    Sparse.find ((Prog.ageDone g count).run s).hx.age g = some (s.ageLast g count) ∧
    ((Prog.ageDone g count).run s).rd .htu (Reg.PWR_GRP_AGE_MIN g) = s.ageLow g count ∧
    (s.on .htu Reg.PWR_TRIM_TRIM_EN = true → ((Prog.ageDone g count).run s).rd .htu (Reg.PWR_GRP_TRIM_MHZ g) = s.ageMhz g count % 2 ^ 16) ∧
    (s.on .htu Reg.PWR_TRIM_TRIM_EN = false → ((Prog.ageDone g count).run s).h = s.h ∧
      ∀ off, off ≠ 0x40208 + 32 * g → ((Prog.ageDone g count).run s).word .htu off = s.word .htu off) := by
  have hage : (s.ageTaken g (s.ageLast g count) (s.ageLow g count)).hx.age = Sparse.put s.hx.age g (s.ageLast g count) := by
    rw [State.ageTaken, State.wr_hx]
  have hmin : (s.ageTaken g (s.ageLast g count) (s.ageLow g count)).rd .htu (Reg.PWR_GRP_AGE_MIN g) = s.ageLow g count := by
    rw [State.ageTaken, State.rd_wr_same _ _ _ _ (show 0 + 24 ≤ 64 by decide)]
    exact Nat.mod_eq_of_lt (ageLow_lt _ _ (by decide))
  rw [ageDone_run]
  cases s.on .htu Reg.PWR_TRIM_TRIM_EN
  · refine ⟨by rw [Prog.run_cond_false, hage, Sparse.find_put_same], hmin, nofun, fun _ => ⟨rfl, fun off ho => ?_⟩⟩
    rw [Prog.run_cond_false, State.ageTaken, State.word_wr_other _ _ _ _ (.inr ho), State.word_hx]
  · obtain ⟨htrim, hkeep⟩ := trimmed_rd s (s.ageTaken g (s.ageLast g count) (s.ageLow g count)) g (s.ageMhz g count) hg
    rw [Prog.run_cond_true]
    exact ⟨by rw [trimmed_age, hage, Sparse.find_put_same], hkeep.trans hmin, fun _ => htrim, nofun⟩

-- the rows

/-- What an acknowledged SET_F leaves where no record is enabled (R325, R327, R349). -/
theorem capAck_setF_leaves {h : Handshake} {g d : Nat} (hg : g < 16) (hh : s.hx.hs = some h) (ha : h.acked = false) (ho : h.op = .setF g d)
    (hrec : s.on .htu Reg.PWR_CTL_STEP_REC = false) :
    ((Prog.capAck false).run s).rd .htu (Reg.PWR_GRP_F_IDX g) = stepIdx (s.fIdx g) d % 16 ∧
    ((Prog.capAck false).run s).rd .htu (Reg.PWR_GRP_LAST_F_NS g) = s.ns .htu ∧
    ((Prog.capAck false).run s).hx.hs = some { h with acked := true } ∧
    Sparse.get 0 ((Prog.capAck false).run s).hx.fGauge g = s.rd .htu (Reg.PWR_VF_MHZ (stepIdx (s.fIdx g) d)) ∧
    ((Prog.capAck false).run s).rd .htu (Reg.PWR_GRP_V_IDX g) = s.vIdx g ∧
    ((Prog.capAck false).run s).rd .htu Reg.PWR_STATUS_ACK_SLOW = s.rd .htu Reg.PWR_STATUS_ACK_SLOW ∧
    ∀ off, off ≠ 0x40200 + 32 * g → off ≠ 0x40210 + 32 * g → off / 65536 ≠ 5 →
      ((Prog.capAck false).run s).word .htu off = s.word .htu off := by
  rw [capAck_setF_unrecorded false hh ha ho hrec]
  have hb (off : Nat) : (s.capAcked false h).word .htu off = s.word .htu off := State.word_hx s _ .htu off
  obtain ⟨hf, hl, hv⟩ := steppedF_rd (s.capAcked false h) g (stepIdx (s.fIdx g) d) (s.ns .htu) (s.rd .htu (Reg.PWR_VF_MHZ (stepIdx (s.fIdx g) d)))
  refine ⟨?_, ?_, ?_, ?_, ?_, ?_, fun off h0 h1 h5 => ?_⟩
  · exact (traced_rd _ _ _ _ _ _ (by simp only [Reg.PWR_GRP_F_IDX]; omega)).trans hf
  · exact (traced_rd _ _ _ _ _ _ (by simp only [Reg.PWR_GRP_LAST_F_NS]; omega)).trans (hl.trans (Nat.mod_mod _ _))
  · exact traced_hx _ _ _ _ _ HtuX.hs fun _ _ => rfl
  · rw [traced_hx _ _ _ _ _ (fun x => Sparse.get 0 x.fGauge g) fun _ _ => rfl]
    exact Sparse.get_set_same _ _ _ _
  · exact (traced_rd _ _ _ _ _ _ (by simp only [Reg.PWR_GRP_V_IDX]; omega)).trans (hv.trans (capAcked_vIdx s false h g))
  · refine congrArg Reg.PWR_STATUS_ACK_SLOW.getW ((traced_word _ _ _ _ _ _ (by decide)).trans ?_)
    exact (steppedF_word _ _ _ _ _ (by simp only [Reg.PWR_STATUS_ACK_SLOW]; omega) (by simp only [Reg.PWR_STATUS_ACK_SLOW]; omega)).trans (hb _)
  · exact (traced_word _ _ _ _ _ _ h5).trans ((steppedF_word _ _ _ _ _ h0 h1).trans (hb off))

/-- What an acknowledged SET_V leaves that was late (R325, R326). -/
theorem capAck_setV_leaves {h : Handshake} {g d : Nat} (hh : s.hx.hs = some h) (ha : h.acked = false) (ho : h.op = .setV g d) :
    ((Prog.capAck true).run s).rd .htu (Reg.PWR_GRP_V_IDX g) = stepIdx (s.vIdx g) d % 16 ∧
    ((Prog.capAck true).run s).rd .htu (Reg.PWR_GRP_F_IDX g) = s.fIdx g ∧
    ((Prog.capAck true).run s).hx.settling = (if d = 1 then some g else s.hx.settling) ∧
    ((Prog.capAck true).run s).hx.hs = some { h with acked := true } ∧
    ((Prog.capAck true).run s).rd .htu Reg.PWR_STATUS_ACK_SLOW = min 255 (s.rd .htu Reg.PWR_STATUS_ACK_SLOW + 1) := by
  rw [capAck_setV true hh ha ho, capAcked_vIdx, capAcked_mv]
  obtain ⟨hv, hf, hs⟩ := steppedV_rd (s.capAcked true h) g d (stepIdx (s.vIdx g) d) (s.rd .htu (Reg.PWR_VF_MV (stepIdx (s.vIdx g) d)))
  have hm (f : Fld) (b : State) : (Prog.markCap.run b).rd .htu f = b.rd .htu f := Prog.rd_keeps Prog.markCap_keeps f id b
  have hslow : (s.capAcked true h).rd .htu Reg.PWR_STATUS_ACK_SLOW = min 255 (s.rd .htu Reg.PWR_STATUS_ACK_SLOW + 1) := by
    rw [State.capAcked, State.rd_hx, if_pos rfl, State.rd_wr_same _ _ _ _ (by decide), satAdd, Nat.min_comm]
    exact Nat.mod_eq_of_lt ((Nat.min_le_left _ _).trans_lt (by decide))
  refine ⟨(hm _ _).trans hv, (hm _ _).trans (hf.trans (capAcked_fIdx s true h g)), ?_, ?_, (hm _ _).trans (hs.trans hslow)⟩
  · exact Prog.markCap_hx _ HtuX.settling fun _ _ => rfl
  · exact Prog.markCap_hx _ HtuX.hs fun _ _ => rfl

/-- A handshake that is late is reported once (R42). -/
theorem handshakeLate_cap : (s.hx.hs = none → (Prog.handshakeLate .cap).run s = s) ∧
    (∀ h, s.hx.hs = some h → h.late = true → (Prog.handshakeLate .cap).run s = s) ∧
    ∀ h, s.hx.hs = some h → h.late = false → (Prog.handshakeLate .cap).run s =
      (Prog.event .htu 0x0004 (le 1 2 ++ le 1 (if h.acked then 2 else 1) ++ zeros 6)).run
        { s with hx := { s.hx with hs := some { h with late := true } } } := by
  refine ⟨fun hn => ?_, fun h hh hl => ?_, fun h hh hl => ?_⟩
  · rw [Prog.handshakeLate, Prog.run_get, hn, Prog.run_opt_none]
  · rw [Prog.handshakeLate, Prog.run_get, hh, Prog.run_opt_some, hl, Bool.not_true, Prog.run_cond_false]
  · rw [Prog.handshakeLate, Prog.run_get, hh, Prog.run_opt_some, hl, Bool.not_false, Prog.run_cond_true, Prog.run_both, Prog.run_htu]

/-- A drain handshake that is late is reported once (R42). -/
theorem handshakeLate_drain : (Prog.handshakeLate .drain).run s =
    if (s.hx.drainReq = true ∨ s.hx.drainAcked = true) ∧ s.hx.drainLate = false then
      (Prog.event .htu 0x0004 (le 1 1 ++ le 1 (if s.hx.drainAcked then 2 else 1) ++ zeros 6)).run
        { s with hx := { s.hx with drainLate := true } } else s := by
  rw [Prog.handshakeLate, Prog.run_get]
  dsimp only
  rw [Prog.run_cond, Prog.run_both, Prog.run_htu]
  simp only [Bool.and_eq_true, Bool.or_eq_true, Bool.not_eq_true']

/-- The settled raise goes on (R326). -/
theorem settled_run : (s.hx.settling = none → Prog.settled.run s = s) ∧
    ∀ g, s.hx.settling = some g → Prog.settled.run s = Prog.sequence.run { s with hx := { s.hx with
      settling := none
      seqQ := if s.fIdx g < s.target g ∧ s.fIdx g < s.vIdx g then s.hx.seqQ ++ [.setF g 1] else s.hx.seqQ } } := by
  refine ⟨fun hn => ?_, fun g hg => ?_⟩
  · rw [Prog.settled, Prog.run_get, hn, Prog.run_opt_none]
  · rw [Prog.settled, Prog.run_get, hg, Prog.run_opt_some, Prog.run_both, Prog.run_htu]

/-- A trim asks the monitor at its reference entry only (R329). -/
theorem trimRequest_run (g : Nat) : (Prog.trimRequest g).run s =
    if s.on .htu Reg.PWR_TRIM_TRIM_EN = true ∧ s.vIdx g = s.rd .htu Reg.PWR_TRIM_REF_IDX then
      s.modDev .htu fun d => { d with out := d.out ++ [.ageReq g] } else s := by
  rw [Prog.trimRequest, Prog.run_get, Prog.run_cond, Prog.run_send]
  simp only [Bool.and_eq_true, beq_iff_eq]

/-- Settles O49: the acknowledgement by its operation, and each other row by the state that it finds. -/
theorem sequencerRowsComplete : Obligations.SequencerRowsComplete := by
  intro s hr
  have hack (slow : Bool) : exec (.capAck slow) s = .next ((Prog.capAck slow).run s) := next_up _ hr
  have hlate (g : HsGroup) : exec (.handshakeLate g) s = .next ((Prog.handshakeLate g).run s) := next_up _ hr
  have hset : exec .settle s = .next (Prog.settled.run s) := next_up _ hr
  obtain ⟨hcap0, hcap1, hcap2⟩ := handshakeLate_cap s
  obtain ⟨hset0, hset1⟩ := settled_run s
  refine ⟨fun slow hn => ?_, fun slow h hh ha => ?_, fun slow h hh ha => ⟨fun g d ho => ?_, fun g d ho => ?_, fun ho => ?_⟩,
    fun h g d hh ha ho hg hrec => ⟨_, hack false, capAck_setF_leaves s hg hh ha ho hrec⟩,
    fun h g d hh ha ho _ => ⟨_, hack true, capAck_setV_leaves s hh ha ho⟩, fun hn => ?_, fun h hh hl => ?_, fun h hh hl => ?_, ?_,
    fun hn => ?_, fun g hg => ?_, fun g hg => ⟨?_, fun count => ?_⟩⟩
  · rw [hack, capAck_none slow hn]
  · rw [hack, capAck_again slow hh ha]
  · rw [hack, capAck_setF slow hh ha ho]
    rfl
  · rw [hack, capAck_setV slow hh ha ho]
    rfl
  · rw [hack, capAck_hold slow hh ha ho]
    rfl
  · rw [hlate, hcap0 hn]
  · rw [hlate, hcap1 h hh hl]
  · rw [hlate, hcap2 h hh hl]
  · rw [hlate, handshakeLate_drain]
  · rw [hset, hset0 hn]
  · rw [hset, hset1 g hg]
  · refine ((nextIf_of hg _ s).trans (next_up (u := .htu) _ hr)).trans ?_
    rw [trimRequest_run]
  · exact ⟨_, (nextIf_of hg _ s).trans (next_up (u := .htu) _ hr), ageDone_leaves s hg count⟩

end Sys2Proof.Machine

end

section

/-! # Silent and Fallow stations: O41 -/

namespace Sys2Proof.Machine

variable (s : State) (p : Nat)

-- a station's change

/-- A station that changes. -/
@[simp] theorem modStation_same (f : Station → Station) : ((Prog.modStation p f).run s).station p = f (s.station p) :=
  Sparse.get_mod_same _ _ _ _

/-- The other stations stay. -/
theorem modStation_other (f : Station → Station) {q : Nat} (h : q ≠ p) : ((Prog.modStation p f).run s).station q = s.station q :=
  Sparse.get_mod_other _ _ _ h

/-- A change of a station leaves the registers. -/
@[simp] theorem modStation_word (f : Station → Station) (u : UnitId) (off : Nat) : ((Prog.modStation p f).run s).word u off = s.word u off :=
  State.word_hx s _ u off

@[simp] theorem modStation_rd (f : Station → Station) (u : UnitId) (g : Fld) : ((Prog.modStation p f).run s).rd u g = s.rd u g :=
  State.rd_hx s _ u g

/-- A register leaves the stations. -/
@[simp] theorem station_wr (u : UnitId) (f : Fld) (v q : Nat) : (s.wr u f v).station q = s.station q := by
  rw [State.station, State.wr_hx, State.station]

/-- An event leaves the stations. -/
@[simp] theorem station_event (u : UnitId) (typ : Nat) (pl : List Byte) (q : Nat) : ((Prog.event u typ pl).run s).station q = s.station q :=
  (Prog.event_changes (P := Prog.htuLeaf fun x => Sparse.get ({} : Station) x.stations q)
    (fun _ _ => trivial) (fun _ => rfl) (fun _ => trivial) (fun _ => trivial) typ pl).hx s

/-- An event leaves the HTU's registers but EVR_STATUS. -/
theorem word_event (u : UnitId) (typ : Nat) (pl : List Byte) {off : Nat} (h : off ≠ Reg.EVR_STATUS_BUCKET.off) :
    ((Prog.event u typ pl).run s).word .htu off = s.word .htu off :=
  Prog.word_keeps (Prog.event_keeps u typ pl) (by rintro ⟨-, e | e⟩ <;> exact h e) s

theorem rd_event (u : UnitId) (typ : Nat) (pl : List Byte) {f : Fld} (h : f.off ≠ Reg.EVR_STATUS_BUCKET.off) :
    ((Prog.event u typ pl).run s).rd .htu f = s.rd .htu f := congrArg f.getW (word_event s u typ pl h)

-- a marker packet of the trace

section
variable {P : Prog → Prop} {u : UnitId} (hd : ∀ f, P (.dev u f))
include hd

/-- A packet of the trace writes trace registers and the trace alone (R352 to R354). -/
theorem Prog.writePkt_changes (hw : ∀ f v, f.off / 65536 = 5 → P (.wr u f v)) (src typ tag : Nat) (w : List Word) :
    (Prog.writePkt u src typ tag w).changes P := by
  have h1 (v : Nat) := hw Reg.TRC_STATUS_PHASE v rfl
  have h2 (v : Nat) := hw Reg.TRC_LOST_WORDS v rfl
  simp [Prog.writePkt, Prog.traceHold, Prog.addPkt, Prog.openChunk, Prog.closeChunk, Prog.trace, Prog.bumpBy, hd, h1, h2]

/-- A marker packet likewise (R352, R357). -/
theorem Prog.traceMark_changes (hw : ∀ f v, f.off / 65536 = 5 → P (.wr u f v)) (src typ : Nat) (w : List Word) :
    (Prog.traceMark u src typ w).changes P := by
  simp [Prog.traceMark, Prog.writePkt_changes hd hw]

end

/-- The markers of a cluster source leave the registers beside the trace's. -/
theorem traceMark_rd (src typ : Nat) (w : List Word) {f : Fld} (h : f.off / 65536 ≠ 5) :
    ((Prog.traceMark .htu src typ w).run s).rd .htu f = s.rd .htu f :=
  Prog.rd_keeps (Prog.traceMark_changes (P := Prog.writes fun _ o => o / 65536 = 5) (fun _ => trivial) (fun _ _ h => h) src typ w).keeps f h s

/-- They leave the HTU's own part. -/
theorem traceMark_hx (src typ : Nat) (w : List Word) : ((Prog.traceMark .htu src typ w).run s).hx = s.hx :=
  (Prog.traceMark_changes (P := Prog.htuLeaf id) (fun _ => trivial) (fun _ _ _ => trivial) src typ w).hx s

-- a heartbeat

/-- A heartbeat waits behind other words, and a SILENT station writes none (R48). -/
theorem heartbeat_none (h : s.rd .htu (Reg.TAP_PHYS_STATE p) = phSilent ∨ (s.station p).out ≠ []) : (Prog.heartbeat p).run s = s := by
  have hc : (s.rd .htu (Reg.TAP_PHYS_STATE p) != phSilent && (s.station p).out == []) = false := by
    rcases h with h | h <;> simp [h]
  rw [Prog.heartbeat, Prog.run_get, hc, Prog.run_cond_false]

/-- A heartbeat into an empty FIFO: it waits there while the station is stalled, else the hedge network takes it (R45, R48). -/
theorem heartbeat_run (h : s.rd .htu (Reg.TAP_PHYS_STATE p) ≠ phSilent) (ho : (s.station p).out = []) :
    (Prog.heartbeat p).run s = (if (s.station p).stalled then id else fun t => (Prog.takeWords p).run t)
      ((Prog.modStation p fun t => { t with out := [.heartbeat] }).run s) := by
  rw [Prog.heartbeat, Prog.run_get, ho, bne_iff_ne.2 h]
  cases (s.station p).stalled <;> rfl

/-- The network takes a heartbeat: the FIFO is empty, and it was busy for some cycles (R45, R175). -/
theorem takeWords_heartbeat (h : (s.station p).out = [.heartbeat]) : (Prog.takeWords p).run s =
    Prog.hedgeBusy.run ((Prog.modStation p fun t => { t with out := [] }).run s) := by
  rw [Prog.takeWords, Prog.run_get, h]
  rfl

/-- With nothing in its FIFO it takes nothing. -/
theorem takeWords_nil (h : (s.station p).out = []) : (Prog.takeWords p).run s = (Prog.modStation p fun t => { t with out := [] }).run s := by
  rw [Prog.takeWords, Prog.run_get, h]
  rfl

/-- Busy cycles of the hedge network (R175, log 134). -/
theorem hedgeBusy_run : Prog.hedgeBusy.run s = { s with free := s.free + 1 }.wr .htu (Reg.TAP_DIE_CNT_COUNT 7)
    (s.rd .htu (Reg.TAP_DIE_CNT_COUNT 7) + Config.freeNat s.free) := rfl

/-- What a heartbeat leaves (R45, R48, R175). -/
theorem heartbeat_leaves (h : s.rd .htu (Reg.TAP_PHYS_STATE p) ≠ phSilent) (ho : (s.station p).out = []) :
    ((Prog.heartbeat p).run s).h = s.h ∧
    (((Prog.heartbeat p).run s).station p).out = (if (s.station p).stalled then [.heartbeat] else []) ∧
    ((s.station p).stalled = false → ((Prog.heartbeat p).run s).rd .htu (Reg.TAP_DIE_CNT_COUNT 7)
      = (s.rd .htu (Reg.TAP_DIE_CNT_COUNT 7) + Config.freeNat s.free) % 2 ^ 64) ∧
    (∀ off, off ≠ (Reg.TAP_DIE_CNT_COUNT 7).off ∨ (s.station p).stalled = true →
      ((Prog.heartbeat p).run s).word .htu off = s.word .htu off) ∧
    ∀ q, q ≠ p → ((Prog.heartbeat p).run s).station q = s.station q := by
  rw [heartbeat_run s p h ho]
  cases hs : (s.station p).stalled
  · simp only [Bool.false_eq_true, if_false, or_false]
    rw [takeWords_heartbeat _ _ (by rw [modStation_same]), hedgeBusy_run]
    refine ⟨rfl, ?_, fun _ => State.rd_wr_same _ _ _ _ (by decide), fun off hoff => ?_, fun q hq => ?_⟩
    · rw [station_wr]
      exact congrArg Station.out (modStation_same _ p _)
    · rw [State.word_wr_other _ _ _ _ (.inr hoff)]
      rfl
    · rw [station_wr]
      exact (modStation_other _ p _ hq).trans (modStation_other _ p _ hq)
  · exact ⟨rfl, congrArg Station.out (modStation_same s p _), nofun, fun off _ => modStation_word s p _ _ _, fun q hq => modStation_other s p _ hq⟩

-- silence and its end

/-- The logical cluster of a station is one of 256. -/
theorem logical_lt : s.rd .htu (Reg.TAP_PHYS_LOGICAL p) < 256 := State.rd_lt _ _ _

/-- ABSENT follows the station's state: what is written of it and of the recorder afterwards changes neither (R188). -/
theorem shown_absent (n : Nat) (hn : n < 256) (typ : Nat) (pl : List Byte) :
    let t := (Prog.event .htu typ pl).run ((Prog.showAbsent n).run s)
    t.rd .htu (Reg.TAP_CLU_STATE_ABSENT n) = (t.absent n).toNat ∧ t.absent n = s.absent n ∧
    ∀ f : Fld, f.off ≠ 0x10800 + 8 * n → f.off ≠ Reg.EVR_STATUS_BUCKET.off → t.rd .htu f = s.rd .htu f := by
  intro t
  have hoff (f : Fld) (h0 : f.off ≠ 0x10800 + 8 * n) (h1 : f.off ≠ Reg.EVR_STATUS_BUCKET.off) : t.rd .htu f = s.rd .htu f := by
    rw [rd_event _ _ _ _ h1]
    exact State.rd_wr_other _ _ _ _ _ (.inr (.inl h0))
  have hstate (q : Nat) : t.rd .htu (Reg.TAP_PHYS_STATE q) = s.rd .htu (Reg.TAP_PHYS_STATE q) :=
    hoff _ (by simp only [Reg.TAP_PHYS_STATE]; omega) (by simp only [Reg.TAP_PHYS_STATE, Reg.EVR_STATUS_BUCKET]; omega)
  have hlog (q : Nat) : t.rd .htu (Reg.TAP_PHYS_LOGICAL q) = s.rd .htu (Reg.TAP_PHYS_LOGICAL q) :=
    hoff _ (by simp only [Reg.TAP_PHYS_LOGICAL]; omega) (by simp only [Reg.TAP_PHYS_LOGICAL, Reg.EVR_STATUS_BUCKET]; omega)
  have habs : t.absent n = s.absent n := by simp only [State.absent, State.physOf, hstate, hlog]
  refine ⟨?_, habs, hoff⟩
  rw [habs, rd_event _ _ _ _ (by simp only [Reg.TAP_CLU_STATE_ABSENT, Reg.EVR_STATUS_BUCKET]; omega)]
  exact (State.rd_wr_same _ _ _ _ (show 1 + 1 ≤ 64 by decide)).trans (by cases s.absent n <;> rfl)

/-- A station that is not ACTIVE, or is in Fallow, does not fall SILENT (R48, R174). -/
theorem clusterSilent_none (h : s.rd .htu (Reg.TAP_PHYS_STATE p) ≠ phActive ∨ (s.station p).fallow = true) :
    (Prog.clusterSilent p).run s = s := by
  have hc : (s.rd .htu (Reg.TAP_PHYS_STATE p) == phActive && !(s.station p).fallow) = false := by
    rcases h with h | h <;> simp [h]
  rw [Prog.clusterSilent, Prog.run_get, hc, Prog.run_cond_false]

/-- SILENT or ENTRIES of a logical cluster counts one, and the stations stay (R177). -/
theorem countClu_word (n k u : Nat) : ((Prog.countClu n k).run s).word .htu u =
    (s.wr .htu (if k = 0 then Reg.TAP_CLU_FALLOW_ENTRIES n else Reg.TAP_CLU_FALLOW_SILENT n)
      (s.rd .htu (if k = 0 then Reg.TAP_CLU_FALLOW_ENTRIES n else Reg.TAP_CLU_FALLOW_SILENT n) + 1)).word .htu u := rfl

@[simp] theorem station_countClu (n k q : Nat) : ((Prog.countClu n k).run s).station q = s.station q := rfl

/-- The state in which a station is SILENT and stalled, and the silence of its logical cluster counted (R45, R48, R177). -/
def State.silenced (s : State) (p n : Nat) : State :=
  (Prog.countClu n 1).run ((Prog.modStation p fun t => { t with stalled := true }).run (s.wr .htu (Reg.TAP_PHYS_STATE p) phSilent))

/-- An ACTIVE station falls SILENT (R48). -/
theorem clusterSilent_run (h : s.rd .htu (Reg.TAP_PHYS_STATE p) = phActive) (hf : (s.station p).fallow = false) :
    (Prog.clusterSilent p).run s = (Prog.event .htu 0x0A01 (s.silentPayload p)).run
      ((Prog.showAbsent (s.rd .htu (Reg.TAP_PHYS_LOGICAL p))).run (s.silenced p (s.rd .htu (Reg.TAP_PHYS_LOGICAL p)))) := by
  have hc : (s.rd .htu (Reg.TAP_PHYS_STATE p) == phActive && !(s.station p).fallow) = true := by simp [h, hf]
  rw [Prog.clusterSilent, Prog.run_get, hc, Prog.run_cond_true, Prog.run_seq_cons, Prog.run_seq_cons, Prog.run_seq_cons, Prog.run_seq_cons,
    Prog.run_seq_cons, Prog.run_seq_nil, Prog.run_wr]
  rfl

/-- The state of a station that falls SILENT (R45, R48, R177). -/
theorem silenced_leaves {n : Nat} (hn : n < 256) :
    (s.silenced p n).rd .htu (Reg.TAP_PHYS_STATE p) = phSilent ∧
    (s.silenced p n).rd .htu (Reg.TAP_PHYS_LOGICAL p) = s.rd .htu (Reg.TAP_PHYS_LOGICAL p) ∧
    ((s.silenced p n).station p).stalled = true ∧
    (s.silenced p n).rd .htu (Reg.TAP_CLU_FALLOW_SILENT n) = (s.rd .htu (Reg.TAP_CLU_FALLOW_SILENT n) + 1) % 2 ^ 32 ∧
    ∀ off, off ≠ 0xa0000 + 8 * p → off ≠ 0x11008 + 16 * n → (s.silenced p n).word .htu off = s.word .htu off := by
  have hword (off : Nat) := countClu_word ((Prog.modStation p fun t => { t with stalled := true }).run (s.wr .htu (Reg.TAP_PHYS_STATE p) phSilent))
    n 1 off
  have hrd (f : Fld) : (s.silenced p n).rd .htu f = _ := congrArg f.getW (hword f.off)
  have hcnt : (s.wr .htu (Reg.TAP_PHYS_STATE p) phSilent).rd .htu (Reg.TAP_CLU_FALLOW_SILENT n) = s.rd .htu (Reg.TAP_CLU_FALLOW_SILENT n) :=
    State.rd_wr_other _ _ _ _ _ (.inr (.inl (by simp only [Reg.TAP_CLU_FALLOW_SILENT, Reg.TAP_PHYS_STATE]; omega)))
  refine ⟨?_, ?_, ?_, ?_, fun off h0 h1 => ?_⟩
  · refine (hrd _).trans ((State.rd_wr_other _ _ _ _ _ (.inr (.inl ?_))).trans ((modStation_rd _ p _ _ _).trans ?_))
    · simp only [Nat.one_ne_zero, if_false, Reg.TAP_CLU_FALLOW_SILENT, Reg.TAP_PHYS_STATE]; omega
    · exact State.rd_wr_same _ _ _ _ (show 8 + 3 ≤ 64 by decide)
  · refine (hrd _).trans ((State.rd_wr_other _ _ _ _ _ (.inr (.inl ?_))).trans ((modStation_rd _ p _ _ _).trans ?_))
    · simp only [Nat.one_ne_zero, if_false, Reg.TAP_CLU_FALLOW_SILENT, Reg.TAP_PHYS_LOGICAL]; omega
    · exact State.rd_wr_other _ _ _ _ _ (.inr (.inr (.inl (show 0 + 8 ≤ 8 by decide))))
  · exact (congrArg Station.stalled (station_countClu _ n 1 p)).trans (congrArg Station.stalled (modStation_same _ p _))
  · refine (hrd _).trans ((State.rd_wr_same _ _ _ _ (show 32 + 32 ≤ 64 by decide)).trans ?_)
    rw [modStation_rd]
    exact congrArg (fun v => (v + 1) % 2 ^ 32) hcnt
  · refine (hword off).trans ((State.word_wr_other _ _ _ _ (.inr ?_)).trans ((modStation_word _ p _ _ _).trans (State.word_wr_other _ _ _ _ (.inr h0))))
    rw [if_neg Nat.one_ne_zero]
    exact h1

/-- What ten microseconds of silence leave (R45, R48, R177, R188). -/
theorem clusterSilent_leaves (hp : p < 272) (h : s.rd .htu (Reg.TAP_PHYS_STATE p) = phActive) (hf : (s.station p).fallow = false) :
    let n := s.rd .htu (Reg.TAP_PHYS_LOGICAL p)
    let t := (Prog.clusterSilent p).run s
    t.rd .htu (Reg.TAP_PHYS_STATE p) = phSilent ∧ t.rd .htu (Reg.TAP_PHYS_LOGICAL p) = n ∧ (t.station p).stalled = true ∧
      t.rd .htu (Reg.TAP_CLU_FALLOW_SILENT n) = (s.rd .htu (Reg.TAP_CLU_FALLOW_SILENT n) + 1) % 2 ^ 32 ∧
      t.rd .htu (Reg.TAP_CLU_STATE_ABSENT n) = (t.absent n).toNat ∧
      ∀ off, off ≠ 0xa0000 + 8 * p → off ≠ 0x10800 + 8 * n → off ≠ 0x11008 + 16 * n → off ≠ Reg.EVR_STATUS_BUCKET.off →
        t.word .htu off = s.word .htu off := by
  intro n t
  have hn : n < 256 := logical_lt s p
  obtain ⟨hst, hlog, hstall, hcnt, hword⟩ := silenced_leaves s p hn
  obtain ⟨habs, -, hrd⟩ := shown_absent (s.silenced p n) n hn 0x0A01 (s.silentPayload p)
  rw [← clusterSilent_run s p h hf] at habs hrd
  have hr (f : Fld) (h : 0x11000 ≤ f.off ∧ f.off ≠ 0x70010) : t.rd .htu f = _ := hrd f (by omega) h.2
  refine ⟨(hr _ ?_).trans hst, (hr _ ?_).trans hlog, ?_, (hr _ ?_).trans hcnt, habs, fun off h0 h1 h2 h3 => ?_⟩
  · simp only [Reg.TAP_PHYS_STATE]; omega
  · simp only [Reg.TAP_PHYS_LOGICAL]; omega
  · rw [show t = _ from clusterSilent_run s p h hf, station_event]
    exact (congrArg Station.stalled (station_wr _ _ _ _ p)).trans hstall
  · simp only [Reg.TAP_CLU_FALLOW_SILENT]; omega
  · rw [show t = _ from clusterSilent_run s p h hf, word_event _ _ _ _ h3]
    exact (State.word_wr_other _ _ _ _ (.inr h1)).trans (hword off h0 h2)

/-- Words of a station that is not SILENT resume nothing (R48). -/
theorem clusterResumed_none (h : s.rd .htu (Reg.TAP_PHYS_STATE p) ≠ phSilent) : (Prog.clusterResumed p).run s = s := by
  rw [Prog.clusterResumed, Prog.run_get, beq_false_of_ne h, Prog.run_cond_false]

/-- The state in which a station is ACTIVE again and its FIFOs have moved on (R45, R48). -/
def State.woken (s : State) (p : Nat) : State :=
  (Prog.takeWords p).run ((Prog.modStation p fun t => { t with stalled := false, inq := [] }).run (s.wr .htu (Reg.TAP_PHYS_STATE p) phActive))

/-- Words of a SILENT station make it ACTIVE (R48). -/
theorem clusterResumed_run (h : s.rd .htu (Reg.TAP_PHYS_STATE p) = phSilent) : (Prog.clusterResumed p).run s =
    (Prog.event .htu 0x0A02 (s.silentPayload p)).run ((Prog.showAbsent (s.rd .htu (Reg.TAP_PHYS_LOGICAL p))).run (s.woken p)) := by
  rw [Prog.clusterResumed, Prog.run_get, beq_iff_eq.2 h, Prog.run_cond_true, Prog.run_seq_cons, Prog.run_seq_cons, Prog.run_seq_cons,
    Prog.run_seq_cons, Prog.run_seq_cons, Prog.run_seq_nil, Prog.run_wr]
  rfl

/-- A station that resumes with an empty FIFO (R45, R48). -/
theorem woken_leaves (ho : (s.station p).out = []) : (s.woken p).rd .htu (Reg.TAP_PHYS_STATE p) = phActive ∧
    ((s.woken p).station p).stalled = false ∧ ((s.woken p).station p).out = [] ∧
    ∀ off, off ≠ 0xa0000 + 8 * p → (s.woken p).word .htu off = s.word .htu off := by
  have hrun : s.woken p = (Prog.modStation p fun t => { t with out := [] }).run
      ((Prog.modStation p fun t => { t with stalled := false, inq := [] }).run (s.wr .htu (Reg.TAP_PHYS_STATE p) phActive)) :=
    takeWords_nil _ p (by rw [modStation_same, station_wr]; exact ho)
  have hst : (s.woken p).station p = { s.station p with out := [], stalled := false, inq := [] } := by
    rw [hrun, modStation_same, modStation_same, station_wr]
  refine ⟨?_, by rw [hst], by rw [hst], fun off h0 => ?_⟩
  · rw [hrun, modStation_rd, modStation_rd]
    exact State.rd_wr_same _ _ _ _ (show 8 + 3 ≤ 64 by decide)
  · rw [hrun, modStation_word, modStation_word, State.word_wr_other _ _ _ _ (.inr h0)]

/-- What words of a SILENT station leave, where its FIFO was empty (R45, R48, R188). -/
theorem clusterResumed_leaves (hp : p < 272) (h : s.rd .htu (Reg.TAP_PHYS_STATE p) = phSilent) (ho : (s.station p).out = []) :
    let n := s.rd .htu (Reg.TAP_PHYS_LOGICAL p)
    let t := (Prog.clusterResumed p).run s
    t.rd .htu (Reg.TAP_PHYS_STATE p) = phActive ∧ (t.station p).stalled = false ∧ (t.station p).out = [] ∧
      t.rd .htu (Reg.TAP_CLU_STATE_ABSENT n) = (t.absent n).toNat ∧
      ∀ off, off ≠ 0xa0000 + 8 * p → off ≠ 0x10800 + 8 * n → off ≠ Reg.EVR_STATUS_BUCKET.off → t.word .htu off = s.word .htu off := by
  intro n t
  have hn : n < 256 := logical_lt s p
  obtain ⟨hst, hstall, hout, hword⟩ := woken_leaves s p ho
  obtain ⟨habs, -, hrd⟩ := shown_absent (s.woken p) n hn 0x0A02 (s.silentPayload p)
  rw [← clusterResumed_run s p h] at habs hrd
  have ht : t.station p = (s.woken p).station p := by
    rw [show t = _ from clusterResumed_run s p h, station_event]
    exact station_wr _ _ _ _ p
  refine ⟨(hrd _ ?_ ?_).trans hst, by rw [ht, hstall], by rw [ht, hout], habs, fun off h0 h1 h3 => ?_⟩
  · simp only [Reg.TAP_PHYS_STATE]; omega
  · simp only [Reg.TAP_PHYS_STATE, Reg.EVR_STATUS_BUCKET]; omega
  · rw [show t = _ from clusterResumed_run s p h, word_event _ _ _ _ h3]
    exact (State.word_wr_other _ _ _ _ (.inr h1)).trans (hword off h0)

-- Fallow

/-- A lane that changes. -/
theorem modLane_same (f : Lane → Lane) : ((Prog.modLane p f).run s).lane p = f (s.lane p) := Sparse.get_mod_same _ _ _ _

section
variable (k : Tile → Verdict)

/-- Verdicts that join a lane's queue (R230). -/
theorem pushVerdicts_out (l : List Tile) :
    (((Prog.each l fun t => Prog.pushVerdict p (k t)).run s).lane p).out.length = (s.lane p).out.length + l.length := by
  induction l generalizing s with
  | nil => rfl
  | cons a l ih =>
    rw [Prog.run_each_cons, ih]
    have h : (((Prog.pushVerdict p (k a)).run s).lane p).out.length = (s.lane p).out.length + 1 := by
      rw [Prog.pushVerdict, Prog.run_get, modLane_same]
      exact List.length_append
    rw [h, List.length_cons]
    omega

end

/-- The lane of a cluster that enters Fallow: its open tiles end, and it writes no register (R38, R230). -/
theorem laneFallow_leaves : (((Prog.laneFallow p).run s).lane p).tiles = [] ∧
    (((Prog.laneFallow p).run s).lane p).out.length
      = (s.lane p).out.length + (if (s.lane p).given then (s.lane p).tiles.drop 1 else (s.lane p).tiles).length ∧
    ((Prog.laneFallow p).run s).hx.stations = s.hx.stations ∧ ∀ f, ((Prog.laneFallow p).run s).rd .htu f = s.rd .htu f := by
  have hk : (Prog.laneFallow p).keeps fun _ _ => False :=
    Prog.changes.keeps (by simp [Prog.laneFallow, Prog.pushVerdict, Prog.modLane, Prog.free])
  have hs : ((Prog.laneFallow p).run s).hx.stations = s.hx.stations :=
    Prog.changes.hx (g := HtuX.stations) (by simp [Prog.laneFallow, Prog.pushVerdict, Prog.modLane, Prog.free]) s
  refine ⟨?_, ?_, hs, fun f => Prog.rd_keeps hk f id s⟩
  · rw [Prog.laneFallow, Prog.run_get, Prog.run_seq_cons, Prog.run_seq_cons, Prog.run_seq_nil, Prog.run_free, Prog.run_free, Prog.run_free,
      Prog.run_free, modLane_same]
  · rw [Prog.laneFallow, Prog.run_get, Prog.run_seq_cons, Prog.run_seq_cons, Prog.run_seq_nil, Prog.run_free, Prog.run_free, Prog.run_free,
      Prog.run_free, modLane_same]
    exact pushVerdicts_out s p _ _

/-- What a logical cluster shows as its station enters Fallow (R174, R177, R357). -/
def Prog.showFallow (n : Nat) : Prog := .seq [.wr .htu (Reg.TAP_CLU_STATE_FALLOW n) 1, .countClu n 0, .traceMark .htu n 4 []]

/-- The cluster's registers at the entry. -/
theorem showFallow_rd {n : Nat} (hn : n < 256) : ((Prog.showFallow n).run s).rd .htu (Reg.TAP_CLU_STATE_FALLOW n) = 1 ∧
    ((Prog.showFallow n).run s).rd .htu (Reg.TAP_CLU_FALLOW_ENTRIES n) = (s.rd .htu (Reg.TAP_CLU_FALLOW_ENTRIES n) + 1) % 2 ^ 32 := by
  rw [Prog.showFallow, Prog.run_seq_cons, Prog.run_seq_cons, Prog.run_seq_cons, Prog.run_seq_nil, Prog.run_wr]
  constructor
  · rw [traceMark_rd _ _ _ _ (by simp only [Reg.TAP_CLU_STATE_FALLOW]; omega)]
    refine (State.rd_wr_other _ _ _ _ _ (.inr (.inl ?_))).trans (State.rd_wr_same _ _ _ _ (show 0 + 1 ≤ 64 by decide))
    rw [if_pos rfl]
    simp only [Reg.TAP_CLU_STATE_FALLOW, Reg.TAP_CLU_FALLOW_ENTRIES]
    omega
  · rw [traceMark_rd _ _ _ _ (by simp only [Reg.TAP_CLU_FALLOW_ENTRIES]; omega)]
    refine (State.rd_wr_same _ _ _ _ (show 0 + 32 ≤ 64 by decide)).trans ?_
    rw [if_pos rfl, State.rd_wr_other _ _ _ _ _ (by simp only [Reg.TAP_CLU_STATE_FALLOW, Reg.TAP_CLU_FALLOW_ENTRIES]; omega)]
    rfl

/-- A marker in the trace and a count of the cluster change neither stations nor lanes. -/
theorem showFallow_hx (n : Nat) : ((Prog.showFallow n).run s).hx.stations = s.hx.stations ∧ ((Prog.showFallow n).run s).hx.lanes = s.hx.lanes := by
  rw [Prog.showFallow, Prog.run_seq_cons, Prog.run_seq_cons, Prog.run_seq_cons, Prog.run_seq_nil, traceMark_hx]
  exact ⟨rfl, rfl⟩

/-- What a rail that falls leaves of the station (R174). -/
def Station.fallen (t : Station) (s : State) (n : Nat) : Station :=
  { t with fallow := true, fallowT := s.ns .htu, fallowTick := s.h.ticks, fallowV := s.timev .htu, oldSlices := t.slices, oldCmds := t.cmds
           bound := false, fresh := false, prev := 0, oldId := BitVec.ofNat 32 (s.rd .htu (Reg.TAP_CLU_STATE_CMD_ID n)) }

/-- A rail that falls (R174). -/
theorem fallowEntry_run (h : (s.station p).fallow = false) : (Prog.fallowEntry p).run s =
    (Prog.cond (s.serves p) (.showFallow (s.rd .htu (Reg.TAP_PHYS_LOGICAL p)))).run
      ((Prog.modStation p fun t => t.fallen s (s.rd .htu (Reg.TAP_PHYS_LOGICAL p))).run s) := by
  rw [Prog.fallowEntry, Prog.run_get, h, Bool.not_false, Prog.run_cond_true]
  rfl

/-- What a rail that falls leaves, but for the lane (R174, R177). -/
theorem fallowEntry_leaves (h : (s.station p).fallow = false) :
    let n := s.rd .htu (Reg.TAP_PHYS_LOGICAL p)
    let t := (Prog.fallowEntry p).run s
    (t.station p).fallow = true ∧ (t.station p).oldSlices = (s.station p).slices ∧ t.lane p = s.lane p ∧
      (s.serves p = true → t.rd .htu (Reg.TAP_CLU_STATE_FALLOW n) = 1 ∧
        t.rd .htu (Reg.TAP_CLU_FALLOW_ENTRIES n) = (s.rd .htu (Reg.TAP_CLU_FALLOW_ENTRIES n) + 1) % 2 ^ 32) := by
  intro n t
  have hrun : t = _ := fallowEntry_run s p h
  have hst : t.station p = (s.station p).fallen s n := by
    rw [hrun, ← modStation_same s p fun t => t.fallen s n]
    cases s.serves p
    · rfl
    · exact congrArg (fun l => Sparse.get ({} : Station) l p) (showFallow_hx _ _).1
  have hl : t.lane p = s.lane p := by
    rw [hrun]
    cases s.serves p
    · rfl
    · exact congrArg (fun l => Sparse.get ({} : Lane) l p) (showFallow_hx _ _).2
  refine ⟨by rw [hst]; rfl, by rw [hst]; rfl, hl, fun hs => ?_⟩
  rw [hs, Prog.run_cond_true] at hrun
  obtain ⟨h1, h2⟩ := showFallow_rd ((Prog.modStation p fun t => t.fallen s n).run s) (logical_lt s p)
  rw [hrun]
  exact ⟨h1, h2.trans (by rw [modStation_rd])⟩

/-- A rail that returns (R174, R357). -/
theorem fallowExit_run (h : (s.station p).fallow = true) : (Prog.fallowExit p).run s =
    let n := s.rd .htu (Reg.TAP_PHYS_LOGICAL p)
    (Prog.cond (s.serves p) (.seq [.wr .htu (Reg.TAP_CLU_STATE_FALLOW n) 0,
      .count .htu (Reg.TAP_CLU_FALLOW_FALLOW_NS n) (s.fallowSpan (s.station p)), .traceMark .htu n 5 [], .traceSync n])).run
        ((Prog.modStation p fun t => { t with fallow := false }).run s) := by
  rw [Prog.fallowExit, Prog.run_get]
  dsimp only
  rw [h, Prog.run_cond_true, Prog.run_both]

/-- A rail that returns where none had fallen changes nothing. -/
theorem fallowExit_none (h : (s.station p).fallow = false) : (Prog.fallowExit p).run s = s := by
  rw [Prog.fallowExit, Prog.run_get]
  dsimp only
  rw [h, Prog.run_cond_false]

/-- A SYNC packet leaves the registers beside the trace's, and the HTU's own part (R352). -/
theorem traceSync_leaves (n : Nat) : ((Prog.traceSync n).run s).hx = s.hx ∧
    ∀ f : Fld, f.off / 65536 ≠ 5 → ((Prog.traceSync n).run s).rd .htu f = s.rd .htu f := by
  rw [Prog.traceSync, Prog.run_get]
  exact ⟨traceMark_hx _ _ _ _, fun f hf => traceMark_rd _ _ _ _ hf⟩

/-- What a rail that returns leaves (R174). -/
theorem fallowExit_leaves (h : (s.station p).fallow = true) :
    let n := s.rd .htu (Reg.TAP_PHYS_LOGICAL p)
    let t := (Prog.fallowExit p).run s
    (t.station p).fallow = false ∧ (s.serves p = true → t.rd .htu (Reg.TAP_CLU_STATE_FALLOW n) = 0 ∧
      t.rd .htu (Reg.TAP_CLU_FALLOW_FALLOW_NS n) = (s.rd .htu (Reg.TAP_CLU_FALLOW_FALLOW_NS n) + s.fallowSpan (s.station p)) % 2 ^ 64) := by
  intro n t
  have hrun : t = _ := fallowExit_run s p h
  have hn : n < 256 := logical_lt s p
  dsimp only at hrun
  cases hs : s.serves p
  · rw [hs, Prog.run_cond_false] at hrun
    exact ⟨by rw [hrun, modStation_same], nofun⟩
  · rw [hs, Prog.run_cond_true, Prog.run_seq_cons, Prog.run_seq_cons, Prog.run_seq_cons, Prog.run_seq_cons, Prog.run_seq_nil, Prog.run_wr] at hrun
    have hrd (b : State) (f : Fld) (hf : f.off / 65536 ≠ 5) :
        ((Prog.traceSync n).run ((Prog.traceMark .htu n 5 []).run b)).rd .htu f = b.rd .htu f := ((traceSync_leaves _ n).2 f hf).trans (traceMark_rd _ n 5 [] hf)
    refine ⟨?_, fun _ => ⟨?_, ?_⟩⟩
    · rw [hrun, State.station, (traceSync_leaves _ n).1, traceMark_hx]
      exact congrArg Station.fallow (modStation_same s p _)
    · rw [hrun, hrd _ _ (by simp only [Reg.TAP_CLU_STATE_FALLOW]; omega), Prog.run_count,
        State.rd_wr_other _ _ _ _ _ (by simp only [Reg.TAP_CLU_STATE_FALLOW, Reg.TAP_CLU_FALLOW_FALLOW_NS]; omega)]
      exact State.rd_wr_same _ _ _ _ (show 0 + 1 ≤ 64 by decide)
    · rw [hrun, hrd _ _ (by simp only [Reg.TAP_CLU_FALLOW_FALLOW_NS]; omega), Prog.run_count,
        State.rd_wr_same _ _ _ _ (show 0 + 64 ≤ 64 by decide),
        State.rd_wr_other _ _ _ _ _ (by simp only [Reg.TAP_CLU_STATE_FALLOW, Reg.TAP_CLU_FALLOW_FALLOW_NS]; omega), modStation_rd]
      rfl

/-- FALLOW_ENTRY: the lane first, then the station (R38, R174, R230). -/
theorem fallowEntry_row_leaves (h : (s.station p).fallow = false) :
    let n := s.rd .htu (Reg.TAP_PHYS_LOGICAL p)
    let t := (Prog.fallowEntry p).run ((Prog.laneFallow p).run s)
    (t.station p).fallow = true ∧ (t.station p).oldSlices = (s.station p).slices ∧ (t.lane p).tiles = [] ∧
      (t.lane p).out.length = (s.lane p).out.length + (if (s.lane p).given then (s.lane p).tiles.drop 1 else (s.lane p).tiles).length ∧
      (s.serves p = true → t.rd .htu (Reg.TAP_CLU_STATE_FALLOW n) = 1 ∧
        t.rd .htu (Reg.TAP_CLU_FALLOW_ENTRIES n) = (s.rd .htu (Reg.TAP_CLU_FALLOW_ENTRIES n) + 1) % 2 ^ 32) := by
  intro n t
  obtain ⟨htiles, hout, hstations, hrd⟩ := laneFallow_leaves s p
  have hst : ((Prog.laneFallow p).run s).station p = s.station p := congrArg (fun l => Sparse.get ({} : Station) l p) hstations
  have hserves : ((Prog.laneFallow p).run s).serves p = s.serves p := congrArg (· != phSpare) (hrd _)
  obtain ⟨hf, hsl, hlane, hshow⟩ := fallowEntry_leaves ((Prog.laneFallow p).run s) p (by rw [hst]; exact h)
  rw [hserves, hrd, hrd] at hshow
  exact ⟨hf, by rw [hsl, hst], by rw [hlane, htiles], by rw [hlane, hout], hshow⟩

/-- Settles O41: each row by what the station shows before it. -/
theorem stationsFallSilentAndFallow : Obligations.StationsFallSilentAndFallow := by
  intro p s hp hr n
  have hbeat : exec (.heartbeat p) s = .next ((Prog.heartbeat p).run s) := (nextIf_of hp _ s).trans (next_up (u := .htu) _ hr)
  have hsil : exec (.clusterSilent p) s = .next ((Prog.clusterSilent p).run s) := (nextIf_of hp _ s).trans (next_up (u := .htu) _ hr)
  have hres : exec (.clusterResumed p) s = .next ((Prog.clusterResumed p).run s) := (nextIf_of hp _ s).trans (next_up (u := .htu) _ hr)
  have hent : exec (.fallowEntry p) s = .next ((Prog.cond (!(s.station p).fallow) (.both (.laneFallow p) (.fallowEntry p))).run s) :=
    (nextIf_of hp _ s).trans (next_up (u := .htu) _ hr)
  have hexit : exec (.fallowExit p) s = .next ((Prog.fallowExit p).run s) := (nextIf_of hp _ s).trans (next_up (u := .htu) _ hr)
  refine ⟨fun h => by rw [hbeat, heartbeat_none s p h], fun h ho => ⟨_, hbeat, heartbeat_leaves s p h ho⟩,
    fun h => by rw [hsil, clusterSilent_none s p h], fun h hf => ⟨_, hsil, clusterSilent_leaves s p hp h hf⟩,
    fun h => by rw [hres, clusterResumed_none s p h], fun h => ?_, fun h ho => ⟨_, hres, clusterResumed_leaves s p hp h ho⟩,
    fun h => by rw [hent, h, Bool.not_true, Prog.run_cond_false], fun h => ⟨_, ?_, fallowEntry_row_leaves s p h⟩, fun h => ?_, fun h => ?_⟩
  · rw [hres, clusterResumed_run s p h, State.woken]
  · rw [hent, h, Bool.not_false, Prog.run_cond_true, Prog.run_both]
  · rw [hexit, fallowExit_none s p h]
  · obtain ⟨hf, hshow⟩ := fallowExit_leaves s p h
    refine ⟨_, hexit, hf, fun hs => ⟨(hshow hs).1, (hshow hs).2.trans ?_⟩⟩
    simp only [State.fallowSpan, h, Bool.not_true, Bool.false_eq_true, if_false, Bool.and_eq_true, n]

end Sys2Proof.Machine

end

section

/-! # Maps, partitions and energy of a die: O43 -/

namespace Sys2Proof.Machine

variable (s : State)

-- fields that a program does not write

/-- Two fields of different words, or of different bits of one. -/
abbrev Fld.apart (g f : Fld) : Prop := g.off ≠ f.off ∨ g.lsb + g.width ≤ f.lsb ∨ f.lsb + f.width ≤ g.lsb

/-- A change leaves a field of a unit: it writes others. -/
@[simp] def Prog.sparing (w : UnitId) (g : Fld) : Prog → Prop
  | .wr u f _ => u = w → g.apart f
  | .clearRegs _ _ | .get _ | .both _ _ => False
  | _ => True

/-- A program whose every change leaves a field leaves it. -/
theorem Prog.changes.rd {p : Prog} {w : UnitId} {g : Fld} (h : p.changes (Prog.sparing w g)) : p.fixes fun s => s.rd w g := by
  refine h.fixes fun q hq t => ?_
  cases q with
  | wr u f v =>
    by_cases hu : u = w
    · exact State.rd_wr_other _ _ _ _ _ (.inr (hq hu))
    · exact State.rd_wr_other _ _ _ _ _ (.inl (Ne.symm hu))
  | clearRegs => exact absurd hq id
  | get => exact absurd hq id
  | both => exact absurd hq id
  | dev u => exact State.rd_modDev t u w g _
  | _ => cases w <;> rfl

/-- An event leaves a field of another word than EVR_STATUS. -/
theorem event_sparing {g : Fld} (h : g.off ≠ 0x70010) (u : UnitId) (typ : Nat) (pl : List Byte) :
    (Prog.event u typ pl).changes (Prog.sparing .htu g) :=
  Prog.event_changes (fun _ _ => trivial) trivial (fun _ _ => .inl h) (fun _ _ => .inl h) typ pl

-- the scheduled map

/-- Without a scheduled map nothing is due (R54). -/
theorem mapDue_none (h : s.hx.mapNext = none) : Prog.mapDue.run s = s := by
  rw [Prog.mapDue, Prog.run_get, h, Prog.run_opt_none]

/-- Before its epoch, or without time, the scheduled map waits (R54). -/
theorem mapDue_early {m : List Nat} {ap : Nat} (h : s.hx.mapNext = some (m, ap))
    (hn : s.timev .htu = false ∨ s.h.gated = true ∨ serialGe 32 (s.epoch .htu) ap = false) : Prog.mapDue.run s = s := by
  have hc : (s.timev .htu && !s.h.gated && serialGe 32 (s.epoch .htu) ap) = false := by
    rcases hn with h | h | h <;> simp [h]
  rw [Prog.mapDue, Prog.run_get, h, Prog.run_opt_some, hc, Prog.run_cond_false]

/-- The logical clusters that a map moves, with the station that each leaves and the one that it takes (R54). -/
def State.moved (s : State) (m : Nat → Nat) : List (Nat × Nat × Nat) :=
  ((List.range 256).map fun n => (n, s.physOf n, m n)).filter fun e => e.2.1 != e.2.2

/-- Which clusters a map moves. -/
theorem mem_moved {m : Nat → Nat} {e : Nat × Nat × Nat} :
    e ∈ s.moved m ↔ e.1 < 256 ∧ e.2.1 = s.physOf e.1 ∧ e.2.2 = m e.1 ∧ s.physOf e.1 ≠ m e.1 := by
  obtain ⟨n, p, q⟩ := e
  simp only [State.moved, List.mem_filter, List.mem_map, List.mem_range, Prod.mk.injEq, bne_iff_ne]
  constructor
  · rintro ⟨⟨k, hk, rfl, rfl, rfl⟩, h⟩
    exact ⟨hk, rfl, rfl, h⟩
  · rintro ⟨hk, rfl, rfl, h⟩
    exact ⟨⟨n, hk, rfl, rfl, rfl⟩, h⟩

/-- A logical cluster takes its new station (R54). -/
def Prog.takeStation (e : Nat × Nat × Nat) : Prog :=
  .both (.wr .htu (Reg.TAP_PHYS_STATE e.2.2) phActive) (.wr .htu (Reg.TAP_PHYS_LOGICAL e.2.2) e.1)

/-- What a station shows: its state and its logical cluster. -/
def State.shown (e : Nat × Nat × Nat) (s : State) : Nat × Nat :=
  (s.rd .htu (Reg.TAP_PHYS_STATE e.2.2), s.rd .htu (Reg.TAP_PHYS_LOGICAL e.2.2))

/-- A taken station is ACTIVE and serves its cluster. -/
theorem takeStation_shown {e : Nat × Nat × Nat} (he : e.1 < 256) : ((Prog.takeStation e).run s).shown e = (phActive, e.1) := by
  refine Prod.ext ?_ ?_
  · exact (State.rd_wr_other _ _ _ _ _ (.inr (.inr (.inr (show 0 + 8 ≤ 8 by decide))))).trans
      (State.rd_wr_same _ _ _ _ (show 8 + 3 ≤ 64 by decide))
  · exact (State.rd_wr_same _ _ _ _ (show 0 + 8 ≤ 64 by decide)).trans (Nat.mod_eq_of_lt he)

/-- Another station stays as it is. -/
theorem takeStation_fixes {e c : Nat × Nat × Nat} (h : e.2.2 ≠ c.2.2) : (Prog.takeStation c).fixes (State.shown e) := fun t => by
  have ho : 0xa0000 + 8 * e.2.2 ≠ 0xa0000 + 8 * c.2.2 := by omega
  refine Prod.ext ?_ ?_
  · exact (State.rd_wr_other _ _ _ _ _ (.inr (.inl ho))).trans (State.rd_wr_other _ _ _ _ _ (.inr (.inl ho)))
  · exact (State.rd_wr_other _ _ _ _ _ (.inr (.inl ho))).trans (State.rd_wr_other _ _ _ _ _ (.inr (.inl ho)))

/-- What follows the move of a cluster, ABSENT and the event, writes no word of a station. -/
theorem afterMove_sparing {n q : Nat} (hn : n < 256) {g : Fld} (hg : g.off = 0xa0000 + 8 * q) (typ : Nat) (pl : List Byte) :
    (Prog.both (.showAbsent n) (.event .htu typ pl)).changes (Prog.sparing .htu g) := by
  refine ⟨fun t _ => .inl ?_, event_sparing ?_ _ _ _⟩
  · simp only [Reg.TAP_CLU_STATE_ABSENT]; omega
  · omega

/-- A map that takes effect ends with its moved clusters on their new stations, their ABSENT bits and their events (R54). -/
theorem mapApply_run (m : Nat → Nat) : ∃ b : State, (Prog.mapApply m).run s =
    (Prog.each (s.moved m) fun e => .both (.showAbsent e.1)
      (.event .htu 0x0A03 (le 1 e.1 ++ zeros 1 ++ le 2 e.2.1 ++ le 2 e.2.2 ++ zeros 2 ++ le 4 s.epochOrNone))).run
        ((Prog.each (s.moved m) Prog.takeStation).run b) := by
  rw [Prog.mapApply, Prog.run_get, Prog.run_seq_cons, Prog.run_seq_cons, Prog.run_seq_cons, Prog.run_seq_cons, Prog.run_seq_cons,
    Prog.run_seq_nil]
  exact ⟨_, rfl⟩

/-- Each moved cluster's new station is ACTIVE and serves it (R54). -/
theorem mapApply_moved {m : Nat → Nat} (hinj : ∀ n < 256, ∀ k < 256, m n = m k → n = k) {n : Nat} (hn : n < 256) (hm : s.physOf n ≠ m n) :
    ((Prog.mapApply m).run s).rd .htu (Reg.TAP_PHYS_STATE (m n)) = phActive ∧
    ((Prog.mapApply m).run s).rd .htu (Reg.TAP_PHYS_LOGICAL (m n)) = n := by
  obtain ⟨b, hb⟩ := mapApply_run s m
  have hmem : (n, s.physOf n, m n) ∈ s.moved m := (mem_moved s).2 ⟨hn, rfl, rfl, hm⟩
  have hsp {g : Fld} (hg : g.off = 0xa0000 + 8 * m n) : ((Prog.mapApply m).run s).rd .htu g = ((Prog.each (s.moved m) Prog.takeStation).run b).rd .htu g := by
    rw [hb]
    exact Prog.changes.rd ((Prog.changes_each _ _).2 fun e he => afterMove_sparing ((mem_moved s).1 he).1 hg _ _) _
  have hall := (each_reaches (read := State.shown) (goal := fun e => (phActive, e.1)) (inv := fun _ => True) (f := Prog.takeStation) (s.moved m)
    (fun _ _ _ _ => trivial) (fun e he t _ => takeStation_shown t ((mem_moved s).1 he).1)
    (fun e he c hc hne => takeStation_fixes fun h => hne ?_) b trivial).2 _ hmem
  · rw [hsp rfl, hsp rfl]
    exact ⟨congrArg Prod.fst hall, congrArg Prod.snd hall⟩
  · obtain ⟨he1, he2, he3, -⟩ := (mem_moved s).1 he
    obtain ⟨hc1, hc2, hc3, -⟩ := (mem_moved s).1 hc
    have h1 : e.1 = c.1 := hinj _ he1 _ hc1 (by rw [← he3, ← hc3, h])
    exact Prod.ext h1 (Prod.ext (by rw [he2, hc2, h1]) h)

-- a partition change

/-- Before its epoch, or without time, a partition change waits (R119). -/
theorem partitionChange_early (hn : s.timev .htu = false ∨ s.h.gated = true ∨
    serialGe 32 (s.epoch .htu) (s.rd .htu Reg.SEC_PART_EPOCH_PEND_EPOCH) = false) : Prog.partitionChange.run s = s := by
  have hc : (s.timev .htu && !s.h.gated && serialGe 32 (s.epoch .htu) (s.rd .htu Reg.SEC_PART_EPOCH_PEND_EPOCH)) = false := by
    rcases hn with h | h | h <;> simp [h]
  rw [Prog.partitionChange, Prog.run_get, hc, Prog.run_cond_false]

/-- The clusters that have a partition pending (R119). -/
def State.pendingClusters (s : State) : List Nat := (List.range 256).filter fun n => s.on .htu (Reg.SEC_CLUSTER_PART_PEND_VALID n)

/-- A cluster passes to its partition, and the change is recorded (R119). -/
def Prog.passes (s : State) (n : Nat) : Prog := .both (.passCluster n)
  (.event .htu 0x0805 (le 1 n ++ le 1 (s.owner n) ++ le 1 (s.rd .htu (Reg.SEC_CLUSTER_PART_PEND_PART n)) ++ zeros 1
    ++ le 4 s.epochOrNone))

/-- In its epoch the pending clusters pass (R119). -/
theorem partitionChange_due (ht : s.timev .htu = true) (hg : s.h.gated = false)
    (hs : serialGe 32 (s.epoch .htu) (s.rd .htu Reg.SEC_PART_EPOCH_PEND_EPOCH) = true) :
    Prog.partitionChange.run s = (Prog.each s.pendingClusters (Prog.passes s)).run s := by
  rw [Prog.partitionChange, Prog.run_get, ht, hg, hs, Bool.not_false, Bool.and_self, Bool.and_self, Prog.run_cond_true, Prog.applyPartitions,
    Prog.run_get]
  rfl

/-- A slice of a partition is reset: its event code is all ones and its accumulator 0 (R168). -/
def Prog.resetSlice (n sl : Nat) : Prog := .both (.setSlice n sl 0xFF) (.wr .htu (Reg.TAP_ACC_ACC n sl) 0)

/-- A cluster's slices of a partition, 8 to 15, are reset (R168). -/
def Prog.resetSlices (n : Nat) : Prog := .each ((List.range 8).map (· + 8)) (Prog.resetSlice n)

/-- A field apart from every one that a passing cluster writes (R119, R168). -/
structure Fld.besidePass (g : Fld) (n : Nat) : Prop where
  acc : ∀ sl < 16, g.apart (Reg.TAP_ACC_ACC n sl)
  event : ∀ sl, 8 ≤ sl → sl < 16 → g.apart (Reg.TAP_SLICE_CFG_EVENT n sl)
  part : g.apart (Reg.SEC_CLUSTER_PART_PART n)
  valid : g.apart (Reg.SEC_CLUSTER_PART_PEND_VALID n)
  evr : g.off ≠ 0x70010

section
variable {g : Fld} {n : Nat}

/-- Reading a cluster's slices advances its accumulators alone (R169). -/
theorem carryAll_sparing (h : ∀ sl < 16, g.apart (Reg.TAP_ACC_ACC n sl)) : (Prog.carryAll n).changes (Prog.sparing .htu g) := by
  simp only [Prog.carryAll, Prog.carry, Prog.count, Prog.changes_get, Prog.changes_cond, Prog.changes_each, Prog.changes_both, Prog.changes_wr,
    Prog.changes_htu, List.mem_range, Prog.sparing, and_true]
  exact fun _ _ sl hsl _ _ _ _ => h sl hsl

/-- A cluster that passes leaves every field beside its own (R119, R168). -/
theorem passes_sparing (h : g.besidePass n) : (Prog.passes s n).changes (Prog.sparing .htu g) := by
  refine ⟨?_, event_sparing h.evr _ _ _⟩
  simp only [Prog.passCluster, Prog.setSlice, Prog.modStation, Prog.changes_get, Prog.changes_seq_cons, Prog.changes_seq_nil, Prog.changes_each,
    Prog.changes_both, Prog.changes_cond, Prog.changes_wr, Prog.changes_htu, Prog.changes_dev, Prog.sparing, and_true, true_and, List.mem_map,
    List.mem_range, forall_exists_index, and_imp, implies_true, forall_const]
  refine fun t => ⟨carryAll_sparing h.acc, fun sl k hk hsl => ⟨h.event sl (by omega) (by omega), h.acc sl (by omega)⟩, h.part, h.valid⟩

/-- A slice that is reset leaves every field beside its own. -/
theorem resetSlice_sparing {sl : Nat} (he : g.apart (Reg.TAP_SLICE_CFG_EVENT n sl)) (ha : g.apart (Reg.TAP_ACC_ACC n sl)) :
    (Prog.resetSlice n sl).changes (Prog.sparing .htu g) := by
  simp only [Prog.resetSlice, Prog.setSlice, Prog.modStation, Prog.changes_get, Prog.changes_both, Prog.changes_cond, Prog.changes_wr,
    Prog.changes_htu, Prog.sparing, and_true, implies_true, forall_const]
  exact ⟨he, ha⟩

/-- All eight of them likewise. -/
theorem resetSlices_sparing (he : ∀ sl, 8 ≤ sl → sl < 16 → g.apart (Reg.TAP_SLICE_CFG_EVENT n sl))
    (ha : ∀ sl, 8 ≤ sl → sl < 16 → g.apart (Reg.TAP_ACC_ACC n sl)) : (Prog.resetSlices n).changes (Prog.sparing .htu g) := by
  refine (Prog.changes_each _ _).2 fun sl hsl => ?_
  obtain ⟨k, hk, rfl⟩ := List.mem_map.1 hsl
  have hk := List.mem_range.1 hk
  exact resetSlice_sparing (he _ (by omega) (by omega)) (ha _ (by omega) (by omega))

end

-- the fields of the clusters beside one another

section
variable {n k : Nat}

theorem acc_apart {sl sl' : Nat} (h : sl < 16) (h' : sl' < 16) (hne : k ≠ n ∨ sl ≠ sl') :
    (Reg.TAP_ACC_ACC k sl).apart (Reg.TAP_ACC_ACC n sl') := by
  refine .inl ?_
  simp only [Reg.TAP_ACC_ACC]
  omega

theorem event_apart {sl sl' : Nat} (h : sl < 16) (h' : sl' < 16) (hne : k ≠ n ∨ sl ≠ sl') :
    (Reg.TAP_SLICE_CFG_EVENT k sl).apart (Reg.TAP_SLICE_CFG_EVENT n sl') := by
  simp only [Fld.apart, Reg.TAP_SLICE_CFG_EVENT, Fld.at]
  omega

/-- A slice of another cluster stands beside a passing one. -/
theorem event_besidePass {sl : Nat} (hk : k < 256) (hn : n < 256) (hs : sl < 16) (hne : k ≠ n) : (Reg.TAP_SLICE_CFG_EVENT k sl).besidePass n where
  acc sl' _ := .inl (by simp only [Reg.TAP_SLICE_CFG_EVENT, Reg.TAP_ACC_ACC, Fld.at]; omega)
  event sl' _ h := event_apart hs h (.inl hne)
  part := .inl (by simp only [Reg.TAP_SLICE_CFG_EVENT, Reg.SEC_CLUSTER_PART_PART, Fld.at]; omega)
  valid := .inl (by simp only [Reg.TAP_SLICE_CFG_EVENT, Reg.SEC_CLUSTER_PART_PEND_VALID, Fld.at]; omega)
  evr := by simp only [Reg.TAP_SLICE_CFG_EVENT, Fld.at]; omega

/-- So does its accumulator. -/
theorem acc_besidePass {sl : Nat} (hk : k < 256) (hn : n < 256) (hs : sl < 16) (hne : k ≠ n) : (Reg.TAP_ACC_ACC k sl).besidePass n where
  acc _ h := acc_apart hs h (.inl hne)
  event sl' _ h := .inl (by simp only [Reg.TAP_SLICE_CFG_EVENT, Reg.TAP_ACC_ACC, Fld.at]; omega)
  part := .inl (by simp only [Reg.TAP_ACC_ACC, Reg.SEC_CLUSTER_PART_PART, Fld.at]; omega)
  valid := .inl (by simp only [Reg.TAP_ACC_ACC, Reg.SEC_CLUSTER_PART_PEND_VALID, Fld.at]; omega)
  evr := by simp only [Reg.TAP_ACC_ACC]; omega

/-- A field of SEC_CLUSTER_PART of cluster `k`: `b` is its first bit, `w` its width (R119). -/
def partField (k b w : Nat) : Fld := .at (0x81000 + 4 * k) b w

/-- A field of another cluster's SEC_CLUSTER_PART stands beside a passing one. -/
theorem partField_besidePass {b w : Nat} (hk : k < 256) (hn : n < 256) (hw : b + w ≤ 32)
    (hne : k ≠ n ∨ (8 ≤ b ∧ b + w ≤ 16)) : (partField k b w).besidePass n where
  acc _ _ := .inl (by simp only [partField, Reg.TAP_ACC_ACC, Fld.at]; omega)
  event _ _ _ := .inl (by simp only [partField, Reg.TAP_SLICE_CFG_EVENT, Fld.at]; omega)
  part := by simp only [partField, Fld.apart, Reg.SEC_CLUSTER_PART_PART, Fld.at]; omega
  valid := by simp only [partField, Fld.apart, Reg.SEC_CLUSTER_PART_PEND_VALID, Fld.at]; omega
  evr := by simp only [partField, Fld.at]; omega

end

/-- The event code of a slice that is set, whatever waits for a stalled station. -/
theorem setSlice_rd (n sl code : Nat) (f : Fld) :
    ((Prog.setSlice n sl code).run s).rd .htu f = (s.wr .htu (Reg.TAP_SLICE_CFG_EVENT n sl) code).rd .htu f := by
  rw [Prog.setSlice, Prog.run_both, Prog.run_get, Prog.run_wr, Prog.run_cond]
  split
  · exact modStation_rd _ _ _ _ _
  · rfl

/-- A slice and an accumulator lie in different words. -/
theorem event_apart_acc {n k sl sl' : Nat} (hn : n < 256) (hs : sl < 16) : (Reg.TAP_SLICE_CFG_EVENT n sl).apart (Reg.TAP_ACC_ACC k sl') :=
  .inl (by simp only [Reg.TAP_SLICE_CFG_EVENT, Reg.TAP_ACC_ACC, Fld.at]; omega)

theorem acc_apart_event {n k sl sl' : Nat} (hn : n < 256) (hs : sl < 16) : (Reg.TAP_ACC_ACC k sl').apart (Reg.TAP_SLICE_CFG_EVENT n sl) :=
  .inl (by simp only [Reg.TAP_SLICE_CFG_EVENT, Reg.TAP_ACC_ACC, Fld.at]; omega)

/-- What a slice shows: its event code and its accumulator. -/
def State.sliceShown (n sl : Nat) (s : State) : Nat × Nat := (s.rd .htu (Reg.TAP_SLICE_CFG_EVENT n sl), s.rd .htu (Reg.TAP_ACC_ACC n sl))

/-- A slice after its reset (R168). -/
theorem resetSlice_shown {n sl : Nat} (hn : n < 256) (hs : sl < 16) : ((Prog.resetSlice n sl).run s).sliceShown n sl = (0xFF, 0) := by
  refine Prod.ext ?_ (State.rd_wr_same _ _ _ _ (show 0 + 64 ≤ 64 by decide))
  refine (State.rd_wr_other _ _ _ _ _ (.inr (event_apart_acc hn hs))).trans ((setSlice_rd s n sl 0xFF _).trans (State.rd_wr_same _ _ _ _ ?_))
  simp only [Reg.TAP_SLICE_CFG_EVENT, Fld.at]
  omega

/-- A cluster's slices of a partition after their reset (R168). -/
theorem resetSlices_rd {n sl : Nat} (hn : n < 256) (h8 : 8 ≤ sl) (h16 : sl < 16) :
    ((Prog.resetSlices n).run s).sliceShown n sl = (0xFF, 0) := by
  have hlt {k : Nat} (hk : k ∈ (List.range 8).map (· + 8)) : k < 16 := by
    obtain ⟨a, ha, rfl⟩ := List.mem_map.1 hk
    have ha := List.mem_range.1 ha
    omega
  refine (each_reaches (read := State.sliceShown n) (goal := fun _ => (0xFF, 0)) (inv := fun _ => True) (f := Prog.resetSlice n) _
    (fun _ _ _ _ => trivial) (fun k hk t _ => resetSlice_shown t hn (hlt hk)) (fun k hk c hc hne t => ?_) s trivial).2 sl
    (List.mem_map.2 ⟨sl - 8, List.mem_range.2 (by omega), by omega⟩)
  exact Prod.ext (Prog.changes.rd (resetSlice_sparing (event_apart (hlt hk) (hlt hc) (.inr hne)) (event_apart_acc hn (hlt hk))) t)
    (Prog.changes.rd (resetSlice_sparing (acc_apart_event hn (hlt hc)) (acc_apart (hlt hk) (hlt hc) (.inr hne))) t)

/-- A cluster that passes, to its fields (R119, R168). -/
theorem passCluster_run (n : Nat) : ∃ (g h : HtuX → HtuX) (d : Dev → Dev), (Prog.passCluster n).run s = (Prog.dev .htu d).run
    ((((Prog.htu h).run ((Prog.htu g).run ((Prog.resetSlices n).run ((Prog.carryAll n).run s)))).wr .htu (Reg.SEC_CLUSTER_PART_PART n)
      (s.rd .htu (Reg.SEC_CLUSTER_PART_PEND_PART n))).wr .htu (Reg.SEC_CLUSTER_PART_PEND_VALID n) 0) := by
  rw [Prog.passCluster, Prog.run_get, Prog.run_seq_cons, Prog.run_seq_cons, Prog.run_seq_cons, Prog.run_seq_cons, Prog.run_seq_cons,
    Prog.run_seq_cons, Prog.run_seq_cons, Prog.run_seq_nil]
  exact ⟨_, _, _, rfl⟩

/-- A cluster that has passed: its partition, and its slices reset (R119, R168). -/
theorem passes_rd (b : State) {n : Nat} (hn : n < 256) :
    ((Prog.passes b n).run s).rd .htu (Reg.SEC_CLUSTER_PART_PART n) = s.rd .htu (Reg.SEC_CLUSTER_PART_PEND_PART n) ∧
    ((Prog.passes b n).run s).rd .htu (Reg.SEC_CLUSTER_PART_PEND_VALID n) = 0 ∧
    ∀ sl, 8 ≤ sl → sl < 16 → ((Prog.passes b n).run s).sliceShown n sl = (0xFF, 0) := by
  obtain ⟨g, h, d, hrun⟩ := passCluster_run s n
  have hev {f : Fld} (hf : f.off ≠ 0x70010) : ((Prog.passes b n).run s).rd .htu f = ((Prog.passCluster n).run s).rd .htu f := by
    rw [Prog.passes, Prog.run_both, rd_event _ _ _ _ hf]
  have hslice {f : Fld} (hp : f.apart (Reg.SEC_CLUSTER_PART_PART n)) (hv : f.apart (Reg.SEC_CLUSTER_PART_PEND_VALID n)) :
      ((Prog.passCluster n).run s).rd .htu f = ((Prog.resetSlices n).run ((Prog.carryAll n).run s)).rd .htu f := by
    rw [hrun, Prog.run_dev, State.modDev_rd, State.rd_wr_other _ _ _ _ _ (.inr hv), State.rd_wr_other _ _ _ _ _ (.inr hp), Prog.run_htu,
      State.rd_hx, Prog.run_htu, State.rd_hx]
  refine ⟨?_, ?_, fun sl h8 h16 => ?_⟩
  · rw [hev (by simp only [Reg.SEC_CLUSTER_PART_PART, Fld.at]; omega), hrun, Prog.run_dev, State.modDev_rd,
      State.rd_wr_other _ _ _ _ _ (.inr (by simp only [Reg.SEC_CLUSTER_PART_PART, Reg.SEC_CLUSTER_PART_PEND_VALID, Fld.at]; omega)),
      State.rd_wr_same _ _ _ _ (by simp only [Reg.SEC_CLUSTER_PART_PART, Fld.at]; omega)]
    exact Nat.mod_eq_of_lt (State.rd_lt _ _ _)
  · rw [hev (by simp only [Reg.SEC_CLUSTER_PART_PEND_VALID, Fld.at]; omega), hrun, Prog.run_dev, State.modDev_rd,
      State.rd_wr_same _ _ _ _ (by simp only [Reg.SEC_CLUSTER_PART_PEND_VALID, Fld.at]; omega)]
    rfl
  · refine Eq.trans ?_ (resetSlices_rd ((Prog.carryAll n).run s) hn h8 h16)
    refine Prod.ext ((hev ?_).trans (hslice (.inl ?_) (.inl ?_))) ((hev ?_).trans (hslice (.inl ?_) (.inl ?_)))
    all_goals simp only [Reg.TAP_SLICE_CFG_EVENT, Reg.TAP_ACC_ACC, Reg.SEC_CLUSTER_PART_PART, Reg.SEC_CLUSTER_PART_PEND_VALID, Fld.at]; omega

/-- What a cluster shows of its partition (R119). -/
def State.partShown (n : Nat) (s : State) : Nat × Nat :=
  (s.rd .htu (Reg.SEC_CLUSTER_PART_PART n), s.rd .htu (Reg.SEC_CLUSTER_PART_PEND_VALID n))

/-- Another cluster that passes leaves it (R119). -/
theorem passes_fixes_part (b : State) {n k : Nat} (hn : n < 256) (hk : k < 256) (h : k ≠ n) : (Prog.passes b n).fixes (State.partShown k) := fun t =>
  Prod.ext (Prog.changes.rd (passes_sparing b (partField_besidePass (b := 0) (w := 8) hk hn (by decide) (.inl h))) t)
    (Prog.changes.rd (passes_sparing b (partField_besidePass (b := 16) (w := 1) hk hn (by decide) (.inl h))) t)

/-- And its slices (R168). -/
theorem passes_fixes_slice (b : State) {n k sl : Nat} (hn : n < 256) (hk : k < 256) (hs : sl < 16) (h : k ≠ n) :
    (Prog.passes b n).fixes (State.sliceShown k sl) := fun t =>
  Prod.ext (Prog.changes.rd (passes_sparing b (event_besidePass hk hn hs h)) t) (Prog.changes.rd (passes_sparing b (acc_besidePass hk hn hs h)) t)

/-- What is pending for a cluster stays as clusters pass (R119). -/
theorem passes_fixes_pending (b : State) {n k : Nat} (hn : n < 256) (hk : k < 256) :
    (Prog.passes b n).fixes fun t => t.rd .htu (Reg.SEC_CLUSTER_PART_PEND_PART k) :=
  Prog.changes.rd (passes_sparing b (partField_besidePass (b := 8) (w := 8) hk hn (by decide) (.inr (by decide))))

/-- The clusters once those with a partition pending have passed (R119, R168). -/
theorem passedClusters (n : Nat) (hn : n < 256) :
    let t := (Prog.each s.pendingClusters (Prog.passes s)).run s
    t.rd .htu (Reg.SEC_CLUSTER_PART_PART n) = (if s.on .htu (Reg.SEC_CLUSTER_PART_PEND_VALID n) then
      s.rd .htu (Reg.SEC_CLUSTER_PART_PEND_PART n) else s.owner n) ∧ t.rd .htu (Reg.SEC_CLUSTER_PART_PEND_VALID n) = 0 ∧
    (s.on .htu (Reg.SEC_CLUSTER_PART_PEND_VALID n) = true → ∀ sl, 8 ≤ sl → sl < 16 →
      t.rd .htu (Reg.TAP_SLICE_CFG_EVENT n sl) = 0xFF ∧ t.rd .htu (Reg.TAP_ACC_ACC n sl) = 0) := by
  intro t
  have hlt {k : Nat} (hk : k ∈ s.pendingClusters) : k < 256 := List.mem_range.1 (List.mem_filter.1 hk).1
  cases hv : s.on .htu (Reg.SEC_CLUSTER_PART_PEND_VALID n)
  · have hnot : n ∉ s.pendingClusters := fun h => Bool.false_ne_true (hv.symm.trans (List.mem_filter.1 h).2)
    have hkeep : t.partShown n = s.partShown n :=
      each_invariant (inv := fun t => t.partShown n = s.partShown n) _
        (fun k hk b hb => (passes_fixes_part s (hlt hk) hn (fun e => hnot (e ▸ hk)) b).trans hb) s rfl
    have h0 : s.rd .htu (Reg.SEC_CLUSTER_PART_PEND_VALID n) = 0 := by simpa [State.on] using hv
    exact ⟨congrArg Prod.fst hkeep, (congrArg Prod.snd hkeep).trans h0, nofun⟩
  · have hmem : n ∈ s.pendingClusters := List.mem_filter.2 ⟨List.mem_range.2 hn, hv⟩
    have hpart := (each_reaches (read := State.partShown) (goal := fun k => (s.rd .htu (Reg.SEC_CLUSTER_PART_PEND_PART k), 0))
      (inv := fun t => ∀ k < 256, t.rd .htu (Reg.SEC_CLUSTER_PART_PEND_PART k) = s.rd .htu (Reg.SEC_CLUSTER_PART_PEND_PART k))
      (f := Prog.passes s) s.pendingClusters (fun k hk b hb j hj => (passes_fixes_pending s (hlt hk) hj b).trans (hb j hj))
      (fun k hk b hb => Prod.ext ((passes_rd b s (hlt hk)).1.trans (hb k (hlt hk))) (passes_rd b s (hlt hk)).2.1)
      (fun k hk c hc hne => passes_fixes_part s (hlt hc) (hlt hk) hne) s fun _ _ => rfl).2 n hmem
    refine ⟨congrArg Prod.fst hpart, congrArg Prod.snd hpart, fun _ sl h8 h16 => ?_⟩
    have hsl := (each_reaches (read := fun k => State.sliceShown k sl) (goal := fun _ => (0xFF, 0)) (inv := fun _ => True) (f := Prog.passes s)
      s.pendingClusters (fun _ _ _ _ => trivial) (fun k hk b _ => (passes_rd b s (hlt hk)).2.2 sl h8 h16)
      (fun k hk c hc hne => passes_fixes_slice s (hlt hc) (hlt hk) h16 hne) s trivial).2 n hmem
    exact ⟨congrArg Prod.fst hsl, congrArg Prod.snd hsl⟩

-- energy

/-- Before its epoch has passed no estimate is made (R178). -/
theorem energy_early (h : s.estimateDue = false) : Prog.energy.run s = s := by
  rw [Prog.energy, Prog.run_get, h, Prog.run_cond_false]

/-- The energy of a cluster joins its partition's accumulator, the die's, and the period's (R178, R179). -/
def Prog.chargeCluster (s : State) (n : Nat) : Prog :=
  .seq [.addEnergy (Reg.TAP_EN_PART_UJ (s.owner n)) (8 * s.owner n + 7) (s.clusterEnergy n), .addEnergy Reg.TAP_EN_DIE_UJ 2048 (s.clusterEnergy n),
    .cond (s.clusterEnergy n != 0) (.htu fun x => { x with pmClus := Sparse.mod 0 x.pmClus n (· + s.clusterEnergy n) })]

/-- An estimate: every cluster's energy is charged, and the next estimate's base is taken (R178). -/
theorem energy_due (h : s.estimateDue = true) : ∃ g : HtuX → HtuX, Prog.energy.run s =
    (Prog.htu g).run ((Prog.each (List.range 256) (Prog.chargeCluster s)).run s) := by
  rw [Prog.energy, Prog.run_get, h, Prog.run_cond_true, Prog.run_both]
  exact ⟨_, rfl⟩

/-- An accumulator in µJ and the part below one µJ that is kept for it (R179). -/
def State.energyShown (f : Fld) (key : Nat) (s : State) : Nat × Nat := (s.rd .htu f, Sparse.get 0 s.hx.fracE key)

/-- An accumulator after `e` more fJ (R179). -/
def energyPlus (a : Nat × Nat) (e : Nat) : Nat × Nat := ((a.1 + (a.2 + e) / 10 ^ 9) % 2 ^ 64, (a.2 + e) % 10 ^ 9)

/-- Energies that join one after the other join as their sum (R179). -/
theorem energyPlus_energyPlus (a : Nat × Nat) (e d : Nat) : energyPlus (energyPlus a e) d = energyPlus a (e + d) := by
  simp only [energyPlus, Prod.mk.injEq]
  omega

/-- Energy joins its accumulator (R179). -/
theorem addEnergy_shown {f : Fld} {key : Nat} (hf : f.lsb = 0 ∧ f.width = 64) (e : Nat) (h : Sparse.get 0 s.hx.fracE key < 10 ^ 9) :
    ((Prog.addEnergy f key e).run s).energyShown f key = energyPlus (s.energyShown f key) e := by
  rw [Prog.addEnergy, Prog.run_get]
  dsimp only
  by_cases he : e = 0
  · have hlt : s.rd .htu f < 2 ^ 64 := hf.2 ▸ State.rd_lt s .htu f
    rw [he, bne_self_eq_false, Prog.run_cond_false, energyPlus, State.energyShown]
    simp only [Nat.add_zero, Nat.div_eq_of_lt h, Nat.mod_eq_of_lt h, Nat.mod_eq_of_lt hlt]
  · rw [bne_iff_ne.2 he, Prog.run_cond_true, Prog.run_both, Prog.run_count, Prog.run_htu, State.energyShown, energyPlus]
    refine Prod.ext ?_ (Sparse.get_set_same _ _ _ _)
    rw [State.rd_hx, State.rd_wr_same _ _ _ _ (by omega), hf.2]
    rfl

/-- It leaves every other accumulator (R179). -/
theorem addEnergy_fixes {f f' : Fld} {key key' : Nat} (e : Nat) (hf : f'.off ≠ f.off) (hk : key' ≠ key) :
    (Prog.addEnergy f key e).fixes (State.energyShown f' key') := fun t => by
  rw [Prog.addEnergy, Prog.run_get]
  dsimp only
  rw [Prog.run_cond]
  split
  · rw [Prog.run_both, Prog.run_count, Prog.run_htu, State.energyShown, State.rd_hx, State.rd_wr_other _ _ _ _ _ (.inr (.inl hf)),
      Sparse.get_set_other _ _ _ _ hk, State.wr_hx]
    rfl
  · rfl

/-- An accumulator that takes the energy of the clusters of `mine` (R179). -/
theorem charged {f : Fld} {key : Nat} (mine : Nat → Bool) (l : List Nat)
    (hadd : ∀ n ∈ l, ∀ t : State, Sparse.get 0 t.hx.fracE key < 10 ^ 9 → ((Prog.chargeCluster s n).run t).energyShown f key
      = energyPlus (t.energyShown f key) (if mine n then s.clusterEnergy n else 0))
    (t : State) (h : Sparse.get 0 t.hx.fracE key < 10 ^ 9) (hlt : t.rd .htu f < 2 ^ 64) :
    ((Prog.each l (Prog.chargeCluster s)).run t).energyShown f key
      = energyPlus (t.energyShown f key) ((l.filter mine).map s.clusterEnergy).sum := by
  induction l generalizing t with
  | nil =>
    rw [Prog.run_each_nil, energyPlus, State.energyShown]
    simp only [List.filter_nil, List.map_nil, List.sum_nil, Nat.add_zero, Nat.div_eq_of_lt h, Nat.mod_eq_of_lt h, Nat.mod_eq_of_lt hlt]
  | cons n l ih =>
    have hn := hadd n List.mem_cons_self t h
    have h1 : ((Prog.chargeCluster s n).run t).rd .htu f < 2 ^ 64 := (congrArg Prod.fst hn).trans_lt (Nat.mod_lt _ (by decide))
    have h2 : Sparse.get 0 ((Prog.chargeCluster s n).run t).hx.fracE key < 10 ^ 9 := (congrArg Prod.snd hn).trans_lt (Nat.mod_lt _ (by decide))
    rw [Prog.run_each_cons, ih (fun k hk => hadd k (List.mem_cons_of_mem _ hk)) _ h2 h1, hn, energyPlus_energyPlus, List.filter_cons]
    cases mine n
    · simp
    · simp

/-- The period's energies are no accumulator. -/
theorem pmClus_fixes (b : Bool) (h : HtuX → List (Nat × Nat)) (f : Fld) (key : Nat) :
    (Prog.cond b (.htu fun x => { x with pmClus := h x })).fixes (State.energyShown f key) := fun t => by
  cases b <;> rfl

/-- The die's accumulator takes the energy of every cluster (R179). -/
theorem chargeCluster_die (n : Nat) (t : State) (h : Sparse.get 0 t.hx.fracE 2048 < 10 ^ 9) :
    ((Prog.chargeCluster s n).run t).energyShown Reg.TAP_EN_DIE_UJ 2048
      = energyPlus (t.energyShown Reg.TAP_EN_DIE_UJ 2048) (s.clusterEnergy n) := by
  have hpart := addEnergy_fixes (f := Reg.TAP_EN_PART_UJ (s.owner n)) (f' := Reg.TAP_EN_DIE_UJ) (key := 8 * s.owner n + 7) (key' := 2048)
    (s.clusterEnergy n) (by simp only [Reg.TAP_EN_PART_UJ, Reg.TAP_EN_DIE_UJ]; omega) (by omega) t
  rw [Prog.chargeCluster, Prog.run_seq_cons, Prog.run_seq_cons, Prog.run_seq_cons, Prog.run_seq_nil, pmClus_fixes,
    addEnergy_shown _ ⟨rfl, rfl⟩ _ ((congrArg Prod.snd hpart).trans_lt h), hpart]

/-- A partition's accumulator takes the energy of its clusters (R179). -/
theorem chargeCluster_part (q n : Nat) (t : State) (h : Sparse.get 0 t.hx.fracE (8 * q + 7) < 10 ^ 9) :
    ((Prog.chargeCluster s n).run t).energyShown (Reg.TAP_EN_PART_UJ q) (8 * q + 7)
      = energyPlus (t.energyShown (Reg.TAP_EN_PART_UJ q) (8 * q + 7)) (if s.owner n == q then s.clusterEnergy n else 0) := by
  have hlt : t.rd .htu (Reg.TAP_EN_PART_UJ q) < 2 ^ 64 := State.rd_lt _ _ _
  rw [Prog.chargeCluster, Prog.run_seq_cons, Prog.run_seq_cons, Prog.run_seq_cons, Prog.run_seq_nil, pmClus_fixes,
    addEnergy_fixes _ (by simp only [Reg.TAP_EN_PART_UJ, Reg.TAP_EN_DIE_UJ]; omega) (by omega)]
  by_cases hq : s.owner n = q
  · rw [hq, beq_self_eq_true, if_pos rfl, addEnergy_shown _ ⟨rfl, rfl⟩ _ h]
  · rw [beq_false_of_ne hq, if_neg Bool.false_ne_true,
      addEnergy_fixes _ (by simp only [Reg.TAP_EN_PART_UJ]; omega) (by omega), energyPlus, State.energyShown]
    simp only [Nat.add_zero, Nat.div_eq_of_lt h, Nat.mod_eq_of_lt h, Nat.mod_eq_of_lt hlt]

/-- Registers and the HTU's own part stand apart from the common part. -/
theorem wr_fixes_h (u : UnitId) (f : Fld) (v : Nat) : (Prog.wr u f v).fixes State.h := fun _ => by cases u <;> rfl
theorem htu_fixes_h (f : HtuX → HtuX) : (Prog.htu f).fixes State.h := fun _ => rfl

/-- An estimate changes nothing of the common part. -/
theorem energy_h : (Prog.energy.run s).h = s.h := by
  refine Prog.changes.fixes (P := fun q => q.fixes State.h) (g := State.h) ?_ (fun _ h => h) s
  simp only [Prog.energy, Prog.addEnergy, Prog.count, Prog.changes_get, Prog.changes_cond, Prog.changes_both, Prog.changes_each,
    Prog.changes_seq_cons, Prog.changes_seq_nil, Prog.changes_wr, Prog.changes_htu, and_true]
  exact fun _ _ => ⟨fun _ _ => ⟨fun _ _ => ⟨fun _ => wr_fixes_h _ _ _, htu_fixes_h _⟩, fun _ _ => ⟨fun _ => wr_fixes_h _ _ _, htu_fixes_h _⟩, fun _ => htu_fixes_h _⟩,
    htu_fixes_h _⟩

/-- The accumulators after an estimate (R178, R179). -/
theorem energy_rd (h : s.estimateDue = true) :
    (Sparse.get 0 s.hx.fracE 2048 < 10 ^ 9 → (Prog.energy.run s).rd .htu Reg.TAP_EN_DIE_UJ = (s.rd .htu Reg.TAP_EN_DIE_UJ
      + (Sparse.get 0 s.hx.fracE 2048 + ((List.range 256).map s.clusterEnergy).sum) / 10 ^ 9) % 2 ^ 64) ∧
    ∀ q, Sparse.get 0 s.hx.fracE (8 * q + 7) < 10 ^ 9 →
      (Prog.energy.run s).rd .htu (Reg.TAP_EN_PART_UJ q) = (s.rd .htu (Reg.TAP_EN_PART_UJ q) + (Sparse.get 0 s.hx.fracE (8 * q + 7)
        + (((List.range 256).filter fun n => s.owner n == q).map s.clusterEnergy).sum) / 10 ^ 9) % 2 ^ 64 := by
  obtain ⟨g, hrun⟩ := energy_due s h
  rw [hrun, Prog.run_htu]
  refine ⟨fun hlt => ?_, fun q hlt => ?_⟩
  · have hall := charged s (f := Reg.TAP_EN_DIE_UJ) (fun _ => true) (List.range 256) (fun n _ t ht => chargeCluster_die s n t ht) s hlt
      (State.rd_lt _ _ _)
    rw [State.rd_hx]
    rw [List.filter_eq_self.2 fun _ _ => rfl] at hall
    exact congrArg Prod.fst hall
  · have hall := charged s (f := Reg.TAP_EN_PART_UJ q) (fun n => s.owner n == q) (List.range 256) (fun n _ t ht => chargeCluster_part s q n t ht)
      s hlt (State.rd_lt _ _ _)
    rw [State.rd_hx]
    exact congrArg Prod.fst hall

/-- Settles O43: the scheduled map, the pending partitions and the estimate, each when it is due. -/
theorem epochWorkOfTheDie : Obligations.EpochWorkOfTheDie := by
  intro s hr
  have hmap : exec .mapApply s = .next (Prog.mapDue.run s) := next_up _ hr
  have hpart : exec .partitionChange s = .next (Prog.partitionChange.run s) := next_up _ hr
  have hen : exec .energyEstimate s = .next (Prog.energy.run s) := next_up _ hr
  refine ⟨fun h => by rw [hmap, mapDue_none s h], fun m ap h => ⟨fun hn => by rw [hmap, mapDue_early s h hn], fun ht hg hs hgrp hinj => ?_⟩,
    fun hn => by rw [hpart, partitionChange_early s hn], fun ht hg hs => ⟨_, hpart, ?_⟩, fun h => by rw [hen, energy_early s h],
    fun h => ⟨_, hen, energy_h s, (energy_rd s h).1, fun q _ => (energy_rd s h).2 q⟩⟩
  · refine ⟨_, hmap.trans (congrArg _ (mapDue_applies s h ht hg hs)), ?_, rfl, fun n hn hm => ?_⟩
    · rw [State.rd_hx]
      exact State.rd_wr_same _ _ _ _ (by decide)
    · have hg := hgrp n hn
      have ho : 0xa0000 + 8 * m.getD n 0 ≠ 0xa2008 := by omega
      obtain ⟨hst, hlog⟩ := mapApply_moved s (m := fun n => m.getD n 0) hinj hn hm
      rw [State.rd_hx, State.rd_hx]
      exact ⟨(State.rd_wr_other _ _ _ _ _ (.inr (.inl ho))).trans hst, (State.rd_wr_other _ _ _ _ _ (.inr (.inl ho))).trans hlog⟩
  · rw [partitionChange_due s ht hg hs]
    exact passedClusters s

end Sys2Proof.Machine

end

section

/-! # The start-up of a unit: O31 -/

namespace Sys2Proof.Machine

-- the registers that a start-up shows, and what its steps leave of them

/-- Where the registers end that the steps of a start-up speak of: the unit's status and the mailboxes that a host opens (R62, R428). -/
def bootEnd : UnitId → Nat
  | .htu => 0x1118
  | .vta => 0x1818

/-- A field that the steps of a start-up speak of: those registers, and PATCH_SVN (R62, R109, R428). -/
def Fld.early (u : UnitId) (g : Fld) : Bool := decide (g.off < bootEnd u) || (g.off == 0x80000 && decide (32 ≤ g.lsb))

/-- A field beside all of them. -/
def Fld.pastBoot (u : UnitId) (f : Fld) : Bool := decide (bootEnd u ≤ f.off) && (f.off != 0x80000 || decide (f.lsb + f.width ≤ 32))

theorem pastBoot_of {u : UnitId} {f : Fld} (h : bootEnd u ≤ f.off) (h0 : f.off ≠ 0x80000) : f.pastBoot u = true := by
  simp [Fld.pastBoot, h, h0]

/-- The two stand apart. -/
theorem apart_of_pastBoot {u : UnitId} {f g : Fld} (hg : g.early u = true) (hf : f.pastBoot u = true) : g.apart f := by
  simp only [Fld.early, Fld.pastBoot, Bool.or_eq_true, Bool.and_eq_true, decide_eq_true_eq, beq_iff_eq, bne_iff_ne] at hg hf
  rw [Fld.apart]
  omega

/-- A change that a start-up does not show: other registers, and neither the reset nor the PCIe link. -/
def Prog.bootLeaf (u : UnitId) : Prog → Prop
  | .wr w f _ => w = u → f.pastBoot u = true
  | .dev _ f => ∀ d, (f d).inReset = d.inReset
  | .vta f => ∀ x, (f x).pcieUp = x.pcieUp
  | .clearRegs _ _ | .get _ | .both _ _ => False
  | _ => True

/-- Two states that a start-up shows alike. -/
structure State.sameBoot (u : UnitId) (s t : State) : Prop where
  rd : ∀ g : Fld, g.early u = true → t.rd u g = s.rd u g
  inReset : (t.dev u).inReset = (s.dev u).inReset
  pcieUp : t.vx.pcieUp = s.vx.pcieUp

theorem State.sameBoot.trans {u : UnitId} {s t r : State} (h : s.sameBoot u t) (k : t.sameBoot u r) : s.sameBoot u r where
  rd g hg := (k.rd g hg).trans (h.rd g hg)
  inReset := k.inReset.trans h.inReset
  pcieUp := k.pcieUp.trans h.pcieUp

/-- A program of such changes leaves what a start-up shows. -/
theorem Prog.changes.sameBoot {p : Prog} {u : UnitId} (h : p.changes (Prog.bootLeaf u)) (s : State) : s.sameBoot u (p.run s) where
  rd g hg := by
    refine (h.mono (Q := Prog.sparing u g) fun q hq => ?_).rd s
    cases q with
    | wr w f v =>
      exact fun hw => apart_of_pastBoot hg (hq hw)
    | clearRegs => exact hq
    | get => exact hq
    | both => exact hq
    | _ => trivial
  inReset := by
    refine h.fixes (g := fun s => (s.dev u).inReset) (fun q hq t => ?_) s
    cases q with
    | dev w f => cases u <;> cases w <;> first | rfl | exact hq _
    | wr w => exact congrArg Dev.inReset (State.wr_dev t w _ _ u)
    | clearRegs => exact absurd hq id
    | get => exact absurd hq id
    | both => exact absurd hq id
    | _ => cases u <;> rfl
  pcieUp := by
    refine h.fixes (g := fun s => s.vx.pcieUp) (fun q hq t => ?_) s
    cases q with
    | vta f => exact hq t.vx
    | wr w => exact congrArg VtaX.pcieUp (State.wr_vx t w _ _)
    | dev w => exact congrArg VtaX.pcieUp (State.modDev_vx t w _)
    | clearRegs => exact absurd hq id
    | get => exact absurd hq id
    | both => exact absurd hq id
    | _ => rfl

@[simp] theorem bootLeaf_wr (u w : UnitId) (f : Fld) (v : Nat) : Prog.bootLeaf u (.wr w f v) ↔ (w = u → f.pastBoot u = true) := Iff.rfl
@[simp] theorem bootLeaf_dev (u w : UnitId) (f : Dev → Dev) : Prog.bootLeaf u (.dev w f) ↔ ∀ d, (f d).inReset = d.inReset := Iff.rfl
@[simp] theorem bootLeaf_htu (u : UnitId) (f : HtuX → HtuX) : Prog.bootLeaf u (.htu f) := trivial
@[simp] theorem bootLeaf_vta (u : UnitId) (f : VtaX → VtaX) : Prog.bootLeaf u (.vta f) ↔ ∀ x, (f x).pcieUp = x.pcieUp := Iff.rfl
@[simp] theorem bootLeaf_draw (u : UnitId) : Prog.bootLeaf u .draw := trivial

-- the steps' own programs

section
variable (u : UnitId)

/-- The recorder stands beside them. -/
theorem recorderOnly_inReset {f : Dev → Dev} (h : Dev.recorderOnly f) (d : Dev) : (f d).inReset = d.inReset := by
  obtain ⟨v, b, e⟩ := h d
  rw [e]

theorem pastBoot_evr (f : Fld) (h : f.off = 0x70010) : f.pastBoot u = true := by
  rw [Fld.pastBoot, h]
  cases u <;> rfl

/-- The engines' registers lie past them. -/
theorem pastBoot_high {f : Fld} (h : 0x80001 ≤ f.off) : f.pastBoot u = true := by
  simp only [Fld.pastBoot, Bool.or_eq_true, Bool.and_eq_true, decide_eq_true_eq, bne_iff_ne]
  cases u <;> simp only [bootEnd] <;> omega

theorem commitEv_boot (w : UnitId) (e : EvRec) : (Prog.commitEv w e).changes (Prog.bootLeaf u) :=
  Prog.commitEv_changes (fun _ h => recorderOnly_inReset h) trivial (fun _ _ => pastBoot_evr u _ rfl) (fun _ _ => pastBoot_evr u _ rfl) e

theorem event_boot (w : UnitId) (typ : Nat) (pl : List Byte) : (Prog.event w typ pl).changes (Prog.bootLeaf u) :=
  Prog.event_changes (fun _ h => recorderOnly_inReset h) trivial (fun _ _ => pastBoot_evr u _ rfl) (fun _ _ => pastBoot_evr u _ rfl) typ pl

/-- The recorder opens (R62, R411, R418). -/
theorem openRecorder_boot (cold blank : Bool) : (Prog.openRecorder u cold blank).changes (Prog.bootLeaf u) := by
  have hret : Reg.PWR_BO_RET_RET_VALID.pastBoot .htu = true := rfl
  simp only [Prog.openRecorder, Prog.eventRetained, Prog.evr, Prog.changes_seq_cons, Prog.changes_seq_nil, Prog.changes_cond, Prog.changes_get,
    Prog.changes_both, Prog.changes_dev, Prog.changes_wr, bootLeaf_dev, bootLeaf_wr, and_true, implies_true, true_and]
  exact ⟨fun _ _ _ => commitEv_boot u _ _, fun _ _ => ⟨fun _ => commitEv_boot u _ _, fun h => h ▸ hret⟩⟩

/-- The ROM's keys and measurements (R107 to R110). -/
theorem deriveDevice_boot : (Prog.deriveDevice u).changes (Prog.bootLeaf u) := by
  have h : Reg.SEC_STATE_UDS_LOCK.pastBoot u = true := by cases u <;> rfl
  simp [Prog.deriveDevice, h]

theorem measure_boot (i : Nat) (v : BitVec 384) : (Prog.measure u i v).changes (Prog.bootLeaf u) := by
  simp [Prog.measure, event_boot]

theorem deriveAlias_boot (b : BootRun) : (Prog.deriveAlias u b).changes (Prog.bootLeaf u) := by
  simp [Prog.deriveAlias, Prog.measureFuses, measure_boot]

theorem newKey_boot : (Prog.newKey u).changes (Prog.bootLeaf u) := by
  have ha : Reg.SEC_STATE_ALIAS_READY.pastBoot u = true := by cases u <;> rfl
  have hr : Reg.SEC_STATE_RSK_READY.pastBoot u = true := by cases u <;> rfl
  simp [Prog.newKey, ha, hr]

/-- The Bracken mailbox lies past those that a host opens. -/
theorem openBracken_boot : (Prog.openMbx u (brackenMbx u)).changes (Prog.bootLeaf u) := by
  have ho : (Reg.MBX_STATUS_OPEN (brackenMbx u)).pastBoot u = true := by cases u <;> rfl
  have hs : (Reg.MBX_NEXT_SEQ_SEQ (brackenMbx u)).pastBoot u = true := by cases u <;> rfl
  simp [Prog.openMbx, Prog.modMb, ho, hs]

theorem modBrk_boot (g : Nat) (f : Bracken → Bracken) : (Prog.modBrk u g f).changes (Prog.bootLeaf u) := by
  have ho : (Reg.MBX_STATUS_OPEN (brackenMbx u)).pastBoot u = true := by cases u <;> rfl
  have hg : (Reg.VTA_SWG_STATE g).pastBoot .vta = true := pastBoot_high .vta (by simp only [Reg.VTA_SWG_STATE]; omega)
  simp only [Prog.modBrk, Prog.changes_seq_cons, Prog.changes_seq_nil, Prog.changes_cond, Prog.changes_get, Prog.changes_ite, Prog.changes_dev,
    Prog.changes_wr, bootLeaf_dev, bootLeaf_wr, and_true, implies_true, true_and, forall_const]
  exact ⟨fun s => ⟨fun _ _ => openBracken_boot u, fun _ => ho⟩, fun _ _ _ h => h ▸ hg⟩

/-- The Bracken images start or are rejected (R104, R110). -/
theorem startBrackens_boot (b : BootRun) : (Prog.startBrackens u b).changes (Prog.bootLeaf u) := by
  simp [Prog.startBrackens, measure_boot, event_boot, modBrk_boot]

end

-- steps of the HTU alone

/-- Retired stations and the map of the others (R410, R447). -/
theorem startMap_boot : Prog.startMap.changes (Prog.bootLeaf .htu) := by
  have hst (n : Nat) : (Reg.TAP_PHYS_STATE n).pastBoot .htu = true := pastBoot_high .htu (by simp only [Reg.TAP_PHYS_STATE]; omega)
  have hlog (n : Nat) : (Reg.TAP_PHYS_LOGICAL n).pastBoot .htu = true := pastBoot_high .htu (by simp only [Reg.TAP_PHYS_LOGICAL]; omega)
  have habs (n : Nat) (h : n < 256) : (Reg.TAP_CLU_STATE_ABSENT n).pastBoot .htu = true :=
    pastBoot_of (show 0x1118 ≤ 0x10800 + 8 * n by omega) (show 0x10800 + 8 * n ≠ 0x80000 by omega)
  simp only [Prog.startMap, Prog.changes_each, Prog.changes_get, Prog.changes_both, Prog.changes_cond, Prog.changes_seq_cons, Prog.changes_seq_nil,
    Prog.changes_wr, bootLeaf_wr, List.mem_range, and_true, forall_const]
  exact fun n hn _ => ⟨fun _ => ⟨hst _, hlog _, event_boot .htu _ _ _⟩, fun _ _ => habs n hn⟩

theorem retiredStations_boot (l : List Nat) : (Prog.each l fun n => .wr .htu (Reg.TAP_PHYS_STATE n) phRetired).changes (Prog.bootLeaf .htu) :=
  (Prog.changes_each _ _).2 fun n _ _ => pastBoot_high .htu (by simp only [Reg.TAP_PHYS_STATE]; omega)

/-- The sequencer's next handshake (R326). -/
theorem sequence_boot : Prog.sequence.changes (Prog.bootLeaf .htu) := by
  have hc : (Reg.TAP_DIE_CNT_COUNT 6).pastBoot .htu = true := rfl
  simp [Prog.sequence, Prog.count, Prog.send, hc]

/-- The sequencer's first operations (R346, R348). -/
theorem powerLive_boot : Prog.powerLive.changes (Prog.bootLeaf .htu) := by
  have hgrp (f : Fld) (h : 0x40000 ≤ f.off ∧ f.off < 0x80000) : f.pastBoot .htu = true :=
    pastBoot_of (show 0x1118 ≤ f.off by omega) (by omega)
  simp only [Prog.powerLive, Prog.ceilings, Prog.markCap, Prog.changes_get, Prog.changes_seq_cons, Prog.changes_seq_nil, Prog.changes_each,
    Prog.changes_both, Prog.changes_cond, Prog.changes_wr, Prog.changes_htu, bootLeaf_wr, bootLeaf_htu, groups, List.mem_range, and_true,
    forall_const, implies_true, true_and]
  exact fun _ => ⟨fun g hg => ⟨hgrp _ (by simp only [Reg.PWR_GRP_F_IDX]; omega), hgrp _ (by simp only [Reg.PWR_GRP_V_IDX]; omega)⟩,
    fun _ => ⟨fun g hg => hgrp _ (by simp only [Reg.PWR_GRP_CEIL_IDX]; omega), rfl, sequence_boot⟩⟩

theorem irqEdge_boot (m : Nat) (was : State) : (Prog.irqEdge .htu m was).changes (Prog.bootLeaf .htu) := by
  simp [Prog.irqEdge, Prog.send]

-- the start-up of an HTU, from its last step to its first

variable (s : State) (b : BootRun)

/-- A mailbox that opens shows it, counts from 0, and changes no other register (R69, R78). -/
theorem openMbx_rd (u : UnitId) (m : Nat) (g : Fld) :
    ((Prog.openMbx u m).run s).rd u g = ((s.wr u (Reg.MBX_STATUS_OPEN m) 1).wr u (Reg.MBX_NEXT_SEQ_SEQ m) 0).rd u g := by
  rw [Prog.openMbx, Prog.run_seq_cons, Prog.run_seq_cons, Prog.run_seq_cons, Prog.run_seq_nil]
  exact State.rd_modDev _ u u g _

/-- It leaves the reset of its unit, and the PCIe link. -/
theorem openMbx_leaves (u w : UnitId) (m : Nat) : (((Prog.openMbx u m).run s).dev w).inReset = (s.dev w).inReset ∧
    ((Prog.openMbx u m).run s).vx = s.vx := by
  cases u <;> cases w <;> exact ⟨rfl, rfl⟩

/-- Whether patches pass depends on PATCH_SVN alone (R109). -/
theorem patchesOk_of_rd {u : UnitId} {t : State} (h : t.rd u Reg.SEC_SVN_PATCH_SVN = s.rd u Reg.SEC_SVN_PATCH_SVN) :
    t.patchesOk u b = s.patchesOk u b := by
  simp only [State.patchesOk, h]

/-- The fields that step 5 of an HTU's start-up writes (R62, R63). -/
def step5Fields : List Fld := [Reg.HTU_STATUS_BOOT_FAIL, Reg.HTU_STATUS_BOUNDARY_LIVE, Reg.HTU_STATUS_MBX0_OPEN, Reg.MBX_STATUS_OPEN 0, Reg.MBX_NEXT_SEQ_SEQ 0]

/-- Step 5 with a failure: BOOT_FAIL is 5, and mailbox 0 opens (R63). -/
theorem htuStep5_stops (h : b.fail = 5 ∨ ((Prog.deriveDevice .htu).run s).patchesOk .htu b = false) : (Prog.htuStep5 b).run s =
    (Prog.openMbx .htu 0).run ((((Prog.deriveDevice .htu).run s).wr .htu Reg.HTU_STATUS_BOOT_FAIL 5).wr .htu Reg.HTU_STATUS_MBX0_OPEN 1) := by
  rw [Prog.htuStep5, Prog.run_both, Prog.run_get, if_pos (h.imp_right fun h => by rw [h]; rfl), Prog.run_seq_cons, Prog.run_seq_cons,
    Prog.run_seq_cons, Prog.run_seq_nil, Prog.run_wr, Prog.run_wr]

/-- Step 5 without one: after the keys the outputs and mailbox 0, then what a start-up does not show (R62, R107 to R109). -/
theorem htuStep5_ends (h5 : b.fail ≠ 5) (h : ((Prog.deriveDevice .htu).run s).patchesOk .htu b = true) : ∃ k : State,
    s.sameBoot .htu k ∧ ((Prog.openMbx .htu 0).run ((k.wr .htu Reg.HTU_STATUS_BOUNDARY_LIVE 1).wr .htu Reg.HTU_STATUS_MBX0_OPEN 1)).sameBoot .htu
      ((Prog.htuStep5 b).run s) := by
  have hn : ¬ (b.fail = 5 ∨ (!((Prog.deriveDevice .htu).run s).patchesOk .htu b) = true) := by simp [h5, h]
  rw [Prog.htuStep5, Prog.run_both, Prog.run_get, if_neg hn, Prog.run_seq_cons, Prog.run_seq_cons, Prog.run_seq_cons, Prog.run_seq_cons,
    Prog.run_seq_cons, Prog.run_seq_cons, Prog.run_seq_cons, Prog.run_seq_cons, Prog.run_seq_cons, Prog.run_seq_nil, Prog.run_wr, Prog.run_wr]
  exact ⟨_, ((deriveDevice_boot .htu).sameBoot s).trans (((deriveAlias_boot .htu b).sameBoot _).trans ((newKey_boot .htu).sameBoot _)),
    ((irqEdge_boot 0 _).sameBoot _).trans (((startBrackens_boot .htu b).sameBoot _).trans ((powerLive_boot.sameBoot _).trans
      (sequence_boot.sameBoot _)))⟩

/-- What step 5 of an HTU leaves. -/
structure HtuStep5 (b : BootRun) (s t : State) : Prop where
  inReset : t.h.inReset = s.h.inReset
  rd : ∀ g : Fld, g.early .htu = true → (∀ f ∈ step5Fields, g.apart f) → t.rd .htu g = s.rd .htu g
  opened : t.rd .htu (Reg.MBX_STATUS_OPEN 0) = 1
  fails : b.fail = 5 ∨ t.patchesOk .htu b = false →
    t.rd .htu Reg.HTU_STATUS_BOOT_FAIL = 5 ∧ t.rd .htu Reg.HTU_STATUS_BOUNDARY_LIVE = s.rd .htu Reg.HTU_STATUS_BOUNDARY_LIVE
  ends : b.fail ≠ 5 → t.patchesOk .htu b = true → t.rd .htu Reg.HTU_STATUS_BOUNDARY_LIVE = 1 ∧ t.rd .htu (Reg.MBX_NEXT_SEQ_SEQ 0) = 0

/-- What a failed step 5 leaves (R63). -/
theorem htuStep5_fails (h : b.fail = 5 ∨ ((Prog.deriveDevice .htu).run s).patchesOk .htu b = false) : HtuStep5 b s ((Prog.htuStep5 b).run s) := by
  have hdev := (deriveDevice_boot .htu).sameBoot s
  have hrd (g : Fld) (hg : g.early .htu = true) (hap : ∀ f ∈ step5Fields, f ≠ Reg.HTU_STATUS_BOUNDARY_LIVE → g.apart f) :
      ((Prog.htuStep5 b).run s).rd .htu g = s.rd .htu g := by
    rw [htuStep5_stops s b h, openMbx_rd, State.rd_wr_other _ _ _ _ _ (.inr (hap _ (by decide) (by decide))),
      State.rd_wr_other _ _ _ _ _ (.inr (hap _ (by decide) (by decide))), State.rd_wr_other _ _ _ _ _ (.inr (hap _ (by decide) (by decide))),
      State.rd_wr_other _ _ _ _ _ (.inr (hap _ (by decide) (by decide))), hdev.rd g hg]
  have hok : ((Prog.htuStep5 b).run s).patchesOk .htu b = ((Prog.deriveDevice .htu).run s).patchesOk .htu b :=
    patchesOk_of_rd _ b ((hrd _ rfl (by decide)).trans (hdev.rd _ rfl).symm)
  refine ⟨?_, fun g hg hap => hrd g hg fun f hf _ => hap f hf, ?_, fun _ => ⟨?_, hrd _ rfl (by decide)⟩, fun h5 ht => ?_⟩
  · rw [htuStep5_stops s b h]
    refine (openMbx_leaves _ .htu .htu 0).1.trans ?_
    rw [State.wr_dev, State.wr_dev]
    exact hdev.inReset
  · rw [htuStep5_stops s b h, openMbx_rd]
    simp (disch := decide) only [State.rd_wr_other, State.rd_wr_same]
    rfl
  · rw [htuStep5_stops s b h, openMbx_rd]
    simp (disch := decide) only [State.rd_wr_other, State.rd_wr_same]
    rfl
  · rw [hok] at ht
    exact absurd ht (by simpa [h5] using h)

/-- What a step 5 without a failure leaves (R62). -/
theorem htuStep5_passes (h5 : b.fail ≠ 5) (h : ((Prog.deriveDevice .htu).run s).patchesOk .htu b = true) :
    HtuStep5 b s ((Prog.htuStep5 b).run s) := by
  obtain ⟨k, hk, ht⟩ := htuStep5_ends s b h5 h
  have hrd (g : Fld) (hg : g.early .htu = true) (hap : ∀ f ∈ step5Fields, g.apart f) : ((Prog.htuStep5 b).run s).rd .htu g = s.rd .htu g := by
    rw [ht.rd g hg, openMbx_rd, State.rd_wr_other _ _ _ _ _ (.inr (hap _ (by decide))), State.rd_wr_other _ _ _ _ _ (.inr (hap _ (by decide))),
      State.rd_wr_other _ _ _ _ _ (.inr (hap _ (by decide))), State.rd_wr_other _ _ _ _ _ (.inr (hap _ (by decide))), hk.rd g hg]
  have hok : ((Prog.htuStep5 b).run s).patchesOk .htu b = true :=
    (patchesOk_of_rd _ b ((hrd _ rfl (by decide)).trans (((deriveDevice_boot .htu).sameBoot s).rd _ rfl).symm)).trans h
  refine ⟨ht.inReset.trans ((openMbx_leaves _ .htu .htu 0).1.trans hk.inReset), hrd, ?_, fun hf => ?_, fun _ _ => ⟨?_, ?_⟩⟩
  · rw [ht.rd _ rfl, openMbx_rd]
    simp (disch := decide) only [State.rd_wr_other, State.rd_wr_same]
    rfl
  · rw [hok] at hf
    exact absurd hf (by simp [h5])
  · rw [ht.rd _ rfl, openMbx_rd]
    simp (disch := decide) only [State.rd_wr_other, State.rd_wr_same]
    rfl
  · rw [ht.rd _ rfl, openMbx_rd, State.rd_wr_same _ _ _ _ (by decide)]
    rfl

theorem htuStep5_leaves : HtuStep5 b s ((Prog.htuStep5 b).run s) := by
  by_cases h : b.fail = 5 ∨ ((Prog.deriveDevice .htu).run s).patchesOk .htu b = false
  · exact htuStep5_fails s b h
  · obtain ⟨h5, hok⟩ := not_or.1 h
    exact htuStep5_passes s b h5 (Bool.not_eq_false _ ▸ hok)

/-- The recorder opens and the map is restored (R62, R410): what step 4 does before step 5. -/
theorem htuStep4_opens (h4 : b.fail ≠ 4) : ∃ k : State,
    (s.sameBoot .htu k) ∧ ∃ m, (k.wr .htu Reg.HTU_STATUS_RECORDER_OPEN 1).sameBoot .htu m ∧ (Prog.htuStep4 true b).run s = (Prog.htuStep5 b).run m := by
  rw [Prog.htuStep4, if_neg h4, Prog.run_seq_cons, Prog.run_seq_cons, Prog.run_seq_cons, Prog.run_seq_cons, Prog.run_seq_nil, Prog.run_wr,
    Prog.run_cond_true, Prog.run_get, Prog.run_both]
  exact ⟨_, (openRecorder_boot .htu true b.blank).sameBoot s, _, ((retiredStations_boot _).sameBoot _).trans (startMap_boot.sameBoot _), rfl⟩

/-- What step 4 of an HTU leaves. -/
structure HtuStep4 (b : BootRun) (s t : State) : Prop where
  inReset : t.h.inReset = s.h.inReset
  rd : ∀ g : Fld, g.early .htu = true → g.apart Reg.HTU_STATUS_RECORDER_OPEN → (∀ f ∈ step5Fields, g.apart f) → t.rd .htu g = s.rd .htu g
  stops : b.fail = 4 → t.rd .htu Reg.HTU_STATUS_BOOT_FAIL = 4 ∧ t.rd .htu Reg.HTU_STATUS_RECORDER_OPEN = s.rd .htu Reg.HTU_STATUS_RECORDER_OPEN
  opens : b.fail ≠ 4 → t.rd .htu Reg.HTU_STATUS_RECORDER_OPEN = 1 ∧ t.rd .htu (Reg.MBX_STATUS_OPEN 0) = 1
  fails : b.fail = 5 ∨ (b.fail ≠ 4 ∧ t.patchesOk .htu b = false) →
    t.rd .htu Reg.HTU_STATUS_BOOT_FAIL = 5 ∧ t.rd .htu Reg.HTU_STATUS_BOUNDARY_LIVE = s.rd .htu Reg.HTU_STATUS_BOUNDARY_LIVE
  ends : b.fail ≠ 4 → b.fail ≠ 5 → t.patchesOk .htu b = true →
    t.rd .htu Reg.HTU_STATUS_BOUNDARY_LIVE = 1 ∧ t.rd .htu (Reg.MBX_NEXT_SEQ_SEQ 0) = 0

theorem htuStep4_leaves : HtuStep4 b s ((Prog.htuStep4 true b).run s) := by
  by_cases h4 : b.fail = 4
  · have hrun : (Prog.htuStep4 true b).run s = s.wr .htu Reg.HTU_STATUS_BOOT_FAIL 4 := by rw [Prog.htuStep4, if_pos h4, Prog.run_wr]
    rw [hrun]
    exact ⟨rfl, fun g _ _ hap => State.rd_wr_other _ _ _ _ _ (.inr (hap _ (by decide))),
      fun _ => ⟨State.rd_wr_same _ _ _ _ (by decide), State.rd_wr_other _ _ _ _ _ (by decide)⟩, fun h => absurd h4 h,
      fun h => by omega, fun h => absurd h4 h⟩
  · obtain ⟨k, hk, m, hm, hrun⟩ := htuStep4_opens s b h4
    have h5 := htuStep5_leaves m b
    rw [← hrun] at h5
    have hrd (g : Fld) (hg : g.early .htu = true) (ha : g.apart Reg.HTU_STATUS_RECORDER_OPEN) : m.rd .htu g = s.rd .htu g := by
      rw [hm.rd g hg, State.rd_wr_other _ _ _ _ _ (.inr ha), hk.rd g hg]
    refine ⟨h5.inReset.trans (hm.inReset.trans hk.inReset), fun g hg ha hap => (h5.rd g hg hap).trans (hrd g hg ha), fun h => absurd h h4,
      fun _ => ⟨(h5.rd _ rfl (by decide)).trans ((hm.rd _ rfl).trans (State.rd_wr_same _ _ _ _ (by decide))), h5.opened⟩, fun hf => ?_,
      fun _ => h5.ends⟩
    obtain ⟨hb, hl⟩ := h5.fails (hf.imp_right And.right)
    exact ⟨hb, hl.trans (hrd _ rfl (by decide))⟩

-- the first steps of both units

/-- A change of a register. -/
@[simp] def Prog.isWr : Prog → Prop
  | .wr _ _ _ => True
  | _ => False

/-- A program of register changes leaves the units' common parts and the VTA's own. -/
theorem Prog.changes.common {p : Prog} (h : p.changes Prog.isWr) (w : UnitId) : (p.run s).dev w = s.dev w ∧ (p.run s).vx = s.vx := by
  constructor
  · refine h.fixes (g := fun s => s.dev w) (fun q hq t => ?_) s
    cases q with
    | wr u f v => exact State.wr_dev t u f v w
    | _ => exact absurd hq id
  · refine h.fixes (g := fun s => s.vx) (fun q hq t => ?_) s
    cases q with
    | wr u f v => exact State.wr_vx t u f v
    | _ => exact absurd hq id

/-- The fused values write no status register (R104, R121). -/
theorem showFuses_leaves (u w : UnitId) : ((Prog.showFuses u).run s).dev w = s.dev w ∧ ((Prog.showFuses u).run s).vx = s.vx ∧
    ∀ g : Fld, g.off = 0 → ((Prog.showFuses u).run s).rd w g = s.rd w g := by
  have hc : (Prog.showFuses u).changes Prog.isWr := by simp [Prog.showFuses]
  have hk : (Prog.showFuses u).changes (Prog.writes fun _ o => o ≠ 0) := by
    simp [Prog.showFuses, Reg.SEC_SVN_PATCH_SVN, Reg.SEC_SVN_BRACKEN_SVN, Reg.MEM_BCH_CFG_REPAIR_LEFT]
  obtain ⟨hd, hv⟩ := hc.common s w
  exact ⟨hd, hv, fun g hg => Prog.rd_keeps hk.keeps g (not_not.2 hg) s⟩

/-- The state in which a unit has left its reset and read its fuses (R62, R428). -/
def State.leftReset (s : State) (u : UnitId) : State := (Prog.showFuses u).run (s.modDev u fun d => { d with inReset := false })

/-- It shows its status as before. -/
theorem leftReset_leaves (u : UnitId) : ((s.leftReset u).dev u).inReset = false ∧ (s.leftReset u).vx = s.vx ∧
    ∀ g : Fld, g.off = 0 → (s.leftReset u).rd u g = s.rd u g := by
  obtain ⟨hd, hv, hr⟩ := showFuses_leaves (s.modDev u fun d => { d with inReset := false }) u u
  refine ⟨?_, hv.trans (State.modDev_vx s u _), fun g hg => (hr g hg).trans (State.rd_modDev s u u g _)⟩
  rw [State.leftReset, hd]
  cases u <;> rfl

/-- Furrow ports that run show in no register (R90). -/
theorem portsRun_boot (u : UnitId) (l : List Nat) : (Prog.each l fun k => .setFn u (fidPort k) fun f => { f with st := .running }).changes
    (Prog.bootLeaf u) := (Prog.changes_each _ _).2 fun _ _ _ => rfl

/-- An HTU out of reset, to the step that fails (R62). -/
theorem htuStart_run (hr : s.h.inReset = true) : ∃ m : State,
    (((s.leftReset .htu).wr .htu Reg.HTU_STATUS_FUSES 1).wr .htu Reg.HTU_STATUS_MEM_INIT 1).sameBoot .htu m ∧
    (Prog.htuStart b).run s = if b.fail = 3 then ((s.leftReset .htu).wr .htu Reg.HTU_STATUS_FUSES 1).wr .htu Reg.HTU_STATUS_BOOT_FAIL 3
      else if b.fail = 1 ∨ b.fail = 2 then m.wr .htu Reg.HTU_STATUS_BOOT_FAIL b.fail
      else (Prog.htuStep4 true b).run (m.wr .htu Reg.HTU_STATUS_GORSE_UP 1) := by
  refine ⟨_, (portsRun_boot .htu [0, 1]).sameBoot _, ?_⟩
  rw [Prog.htuStart, Prog.run_get, if_pos hr, Prog.run_seq_cons, Prog.run_seq_cons, Prog.run_seq_cons, Prog.run_seq_cons, Prog.run_seq_nil,
    Prog.run_wr, Prog.run_dev, ← State.leftReset]
  by_cases h3 : b.fail = 3
  · rw [if_pos h3, if_pos h3, Prog.run_wr]
  · rw [if_neg h3, if_neg h3, Prog.run_seq_cons, Prog.run_seq_cons, Prog.run_seq_cons, Prog.run_seq_nil, Prog.htuStep3, Prog.run_wr]
    by_cases h12 : b.fail = 1 ∨ b.fail = 2
    · rw [if_pos h12, if_pos h12, Prog.run_wr]
    · rw [if_neg h12, if_neg h12, Prog.run_both, Prog.run_wr]

/-- What the start-up of an HTU reaches (R62, R63, R109). -/
theorem htuStart_leaves (hr : s.h.inReset = true) :
    let t := (Prog.htuStart b).run s
    t.h.inReset = false ∧ t.rd .htu Reg.HTU_STATUS_FUSES = 1 ∧
      (b.fail = 3 → t.rd .htu Reg.HTU_STATUS_BOOT_FAIL = 3 ∧ t.rd .htu Reg.HTU_STATUS_MEM_INIT = s.rd .htu Reg.HTU_STATUS_MEM_INIT) ∧
      (b.fail ≠ 3 → t.rd .htu Reg.HTU_STATUS_MEM_INIT = 1) ∧
      (b.fail = 1 ∨ b.fail = 2 → t.rd .htu Reg.HTU_STATUS_BOOT_FAIL = b.fail ∧
        t.rd .htu Reg.HTU_STATUS_GORSE_UP = s.rd .htu Reg.HTU_STATUS_GORSE_UP) ∧
      (b.fail = 4 → t.rd .htu Reg.HTU_STATUS_GORSE_UP = 1 ∧ t.rd .htu Reg.HTU_STATUS_BOOT_FAIL = 4 ∧
        t.rd .htu Reg.HTU_STATUS_RECORDER_OPEN = s.rd .htu Reg.HTU_STATUS_RECORDER_OPEN) ∧
      (b.fail = 5 ∨ (b.fail = 0 ∧ t.patchesOk .htu b = false) → t.rd .htu Reg.HTU_STATUS_RECORDER_OPEN = 1 ∧ t.rd .htu Reg.HTU_STATUS_BOOT_FAIL = 5 ∧
        t.rd .htu (Reg.MBX_STATUS_OPEN 0) = 1 ∧ t.rd .htu Reg.HTU_STATUS_BOUNDARY_LIVE = s.rd .htu Reg.HTU_STATUS_BOUNDARY_LIVE) ∧
      (b.fail = 0 → t.patchesOk .htu b = true → t.rd .htu Reg.HTU_STATUS_GORSE_UP = 1 ∧ t.rd .htu Reg.HTU_STATUS_RECORDER_OPEN = 1 ∧
        t.rd .htu Reg.HTU_STATUS_BOUNDARY_LIVE = 1 ∧ t.rd .htu (Reg.MBX_STATUS_OPEN 0) = 1 ∧ t.rd .htu (Reg.MBX_NEXT_SEQ_SEQ 0) = 0) := by
  intro t
  obtain ⟨hres, -, hsame⟩ := leftReset_leaves s .htu
  obtain ⟨m, hm, hrun⟩ := htuStart_run s b hr
  have hmrd {g : Fld} (hg : g.off = 0) (hf : g.apart Reg.HTU_STATUS_FUSES) (hi : g.apart Reg.HTU_STATUS_MEM_INIT) : m.rd .htu g = s.rd .htu g := by
    rw [hm.rd g (by rw [Fld.early, hg]; rfl), State.rd_wr_other _ _ _ _ _ (.inr hi), State.rd_wr_other _ _ _ _ _ (.inr hf), hsame g hg]
  have hmfuses : m.rd .htu Reg.HTU_STATUS_FUSES = 1 := by
    rw [hm.rd _ rfl, State.rd_wr_other _ _ _ _ _ (by decide), State.rd_wr_same _ _ _ _ (by decide)]
    rfl
  have hminit : m.rd .htu Reg.HTU_STATUS_MEM_INIT = 1 := by
    rw [hm.rd _ rfl, State.rd_wr_same _ _ _ _ (by decide)]
    rfl
  have hmres : (m.dev .htu).inReset = false := by rw [hm.inReset, State.wr_dev, State.wr_dev, hres]
  by_cases h3 : b.fail = 3
  · have ht : t = _ := hrun.trans (if_pos h3)
    have htres : (t.dev .htu).inReset = false := by rw [ht, State.wr_dev, State.wr_dev, hres]
    refine ⟨htres, ?_, fun _ => ⟨?_, ?_⟩, fun h => absurd h3 h, fun h => by omega, fun h => by omega, fun h => by omega,
      fun h => by omega⟩
    all_goals rw [ht]; simp (disch := decide) only [State.rd_wr_other, State.rd_wr_same]
    · rfl
    · rfl
    · exact hsame _ rfl
  rw [if_neg h3] at hrun
  by_cases h12 : b.fail = 1 ∨ b.fail = 2
  · have ht : t = _ := hrun.trans (if_pos h12)
    have htres : (t.dev .htu).inReset = false := by rw [ht, State.wr_dev, hmres]
    refine ⟨htres, ?_, fun h => absurd h h3, fun _ => ?_, fun _ => ⟨?_, ?_⟩, fun h => by omega, fun h => by omega,
      fun h => by omega⟩
    all_goals rw [ht]; simp (disch := decide) only [State.rd_wr_other, State.rd_wr_same]
    · exact hmfuses
    · exact hminit
    · exact Nat.mod_eq_of_lt (by rcases h12 with h | h <;> rw [h] <;> decide)
    · exact hmrd rfl (by decide) (by decide)
  · have h4 := htuStep4_leaves (m.wr .htu Reg.HTU_STATUS_GORSE_UP 1) b
    rw [if_neg h12] at hrun
    rw [← hrun] at h4
    have hrd {g : Fld} (hg : g.off = 0) (hf : g.apart Reg.HTU_STATUS_FUSES) (hi : g.apart Reg.HTU_STATUS_MEM_INIT)
        (hu : g.apart Reg.HTU_STATUS_GORSE_UP) : (m.wr .htu Reg.HTU_STATUS_GORSE_UP 1).rd .htu g = s.rd .htu g := by
      rw [State.rd_wr_other _ _ _ _ _ (.inr hu), hmrd hg hf hi]
    have hup : t.rd .htu Reg.HTU_STATUS_GORSE_UP = 1 := (h4.rd _ rfl (by decide) (by decide)).trans (State.rd_wr_same _ _ _ _ (by decide))
    refine ⟨h4.inReset.trans hmres, (h4.rd _ rfl (by decide) (by decide)).trans ((State.rd_wr_other _ _ _ _ _ (by decide)).trans hmfuses),
      fun h => absurd h h3, fun _ => (h4.rd _ rfl (by decide) (by decide)).trans ((State.rd_wr_other _ _ _ _ _ (by decide)).trans hminit),
      fun h => absurd h h12, fun h => ?_, fun h => ?_, fun h hok => ?_⟩
    · obtain ⟨hb, hrec⟩ := h4.stops h
      exact ⟨hup, hb, hrec.trans (hrd rfl (by decide) (by decide) (by decide))⟩
    · obtain ⟨hb, hl⟩ := h4.fails (h.imp_right fun h => ⟨by omega, h.2⟩)
      obtain ⟨hrec, ho⟩ := h4.opens (by omega)
      exact ⟨hrec, hb, ho, hl.trans (hrd rfl (by decide) (by decide) (by decide))⟩
    · obtain ⟨hl, hseq⟩ := h4.ends (by omega) (by omega) hok
      obtain ⟨hrec, ho⟩ := h4.opens (by omega)
      exact ⟨hup, hrec, hl, ho, hseq⟩

end Sys2Proof.Machine

end

section

/-! # The start-up of a VTA: O31 -/

namespace Sys2Proof.Machine

variable (s : State) (b : BootRun)

theorem early_of {u : UnitId} {g : Fld} (h : g.off < bootEnd u) : g.early u = true := by
  simp [Fld.early, h]

-- the fields that a part of the start-up writes

/-- A change of the VTA's registers that is to one of the fields `W`, or past what a start-up shows, and that does not reset the unit. -/
def Prog.statusLeaf (W : List Fld) : Prog → Prop
  | .wr w f _ => w = .vta → f ∈ W ∨ f.pastBoot .vta = true
  | .dev _ f => ∀ d, (f d).inReset = d.inReset
  | .clearRegs _ _ | .get _ | .both _ _ => False
  | _ => True

section
variable {W : List Fld} {p : Prog}

@[simp] theorem statusLeaf_wr (w : UnitId) (f : Fld) (v : Nat) :
    Prog.statusLeaf W (.wr w f v) ↔ (w = .vta → f ∈ W ∨ f.pastBoot .vta = true) := Iff.rfl
@[simp] theorem statusLeaf_dev (w : UnitId) (f : Dev → Dev) : Prog.statusLeaf W (.dev w f) ↔ ∀ d, (f d).inReset = d.inReset := Iff.rfl
@[simp] theorem statusLeaf_htu (f : HtuX → HtuX) : Prog.statusLeaf W (.htu f) := trivial
@[simp] theorem statusLeaf_vta (f : VtaX → VtaX) : Prog.statusLeaf W (.vta f) := trivial
@[simp] theorem statusLeaf_draw : Prog.statusLeaf W .draw := trivial

/-- A program that a start-up does not show. -/
theorem Prog.changes.status (h : p.changes (Prog.bootLeaf .vta)) : p.changes (Prog.statusLeaf W) := by
  refine h.mono fun q hq => ?_
  cases q with
  | wr w f v => exact fun e => .inr (hq e)
  | dev w f => exact hq
  | clearRegs => exact hq
  | get => exact hq
  | both => exact hq
  | _ => trivial

/-- More fields. -/
theorem Prog.changes.statusMono {V : List Fld} (h : p.changes (Prog.statusLeaf W)) (hv : ∀ f ∈ W, f ∈ V) : p.changes (Prog.statusLeaf V) := by
  refine h.mono fun q hq => ?_
  cases q with
  | wr w f v => exact fun e => (hq e).imp_left (hv f)
  | dev w f => exact hq
  | clearRegs => exact hq
  | get => exact hq
  | both => exact hq
  | _ => trivial

/-- It leaves every other field that a start-up shows. -/
theorem Prog.changes.statusRd (h : p.changes (Prog.statusLeaf W)) {g : Fld} (hg : g.early .vta = true) (ha : ∀ f ∈ W, g.apart f) :
    (p.run s).rd .vta g = s.rd .vta g := by
  refine (h.mono (Q := Prog.sparing .vta g) fun q hq => ?_).rd s
  cases q with
  | wr w f v => exact fun e => (hq e).elim (ha f) (apart_of_pastBoot hg)
  | clearRegs => exact hq
  | get => exact hq
  | both => exact hq
  | _ => trivial

/-- It does not reset the unit. -/
theorem Prog.changes.statusReset (h : p.changes (Prog.statusLeaf W)) : (p.run s).v.inReset = s.v.inReset := by
  refine h.fixes (g := fun s => s.v.inReset) (fun q hq t => ?_) s
  cases q with
  | dev w f => cases w <;> first | rfl | exact hq _
  | wr w => cases w <;> rfl
  | clearRegs => exact absurd hq id
  | get => exact absurd hq id
  | both => exact absurd hq id
  | _ => rfl

end

-- a status bit

/-- An MSI-X write lies past what a start-up shows (R431). -/
theorem msix_boot (n : Nat) : (Prog.msix n).changes (Prog.bootLeaf .vta) := by
  have h : Reg.MSIX_PBA_PENDING.pastBoot .vta = true := rfl
  simp [Prog.msix, Prog.send, h]

/-- A status field takes its value (R431). -/
theorem vtaStatus_same {f : Fld} {v : Nat} (hf : f.lsb + f.width ≤ 64) (he : f.early .vta = true) (hv : v < 2 ^ f.width) :
    ((Prog.vtaStatus f v).run s).rd .vta f = v := by
  rw [Prog.vtaStatus, Prog.run_get, Prog.run_cond]
  split
  · rw [Prog.run_both, ((msix_boot 8).sameBoot _).rd f he, Prog.run_wr, State.rd_wr_same _ _ _ _ hf, Nat.mod_eq_of_lt hv]
  · simp_all

/-- It changes no other field. -/
theorem vtaStatus_status (f : Fld) (v : Nat) : (Prog.vtaStatus f v).changes (Prog.statusLeaf [f]) := by
  simp [Prog.vtaStatus, (msix_boot 8).status]

/-- It leaves the VTA's own part. -/
theorem vtaStatus_vx (f : Fld) (v : Nat) : ((Prog.vtaStatus f v).run s).vx = s.vx :=
  Prog.vtaKeeps.run (g := id) (by simp [Prog.vtaStatus, Prog.msix, Prog.send]) s

-- the PCIe link

/-- The fields of the mailboxes that the PCIe link opens (R432). -/
def pcieFields : List Fld := Reg.VTA_STATUS_PCIE_OPEN :: (List.range 8).flatMap fun m => [Reg.MBX_STATUS_OPEN m, Reg.MBX_NEXT_SEQ_SEQ m]

theorem openPcie_status : Prog.openPcie.changes (Prog.statusLeaf pcieFields) := by
  refine ⟨(Prog.changes_each _ _).2 fun m hm => ?_, (vtaStatus_status _ _).statusMono (by decide)⟩
  have hmem {f : Fld} (h : f = Reg.MBX_STATUS_OPEN m ∨ f = Reg.MBX_NEXT_SEQ_SEQ m) : f ∈ pcieFields :=
    List.mem_cons_of_mem _ (List.mem_flatMap.2 ⟨m, hm, by simpa using h⟩)
  simp [Prog.openMbx, Prog.modMb, hmem]

/-- What a mailbox shows: that it is open, and its count. -/
def State.mbxShown (m : Nat) (s : State) : Nat × Nat := (s.rd .vta (Reg.MBX_STATUS_OPEN m), s.rd .vta (Reg.MBX_NEXT_SEQ_SEQ m))

/-- Changes of the status alone leave what the mailboxes of PCIe show. -/
theorem Prog.changes.mbxShown {W : List Fld} {p : Prog} (h : p.changes (Prog.statusLeaf W)) (hw : ∀ f ∈ W, f.off = 0) {m : Nat} (hm : m < 8) :
    (p.run s).mbxShown m = s.mbxShown m := by
  refine Prod.ext ?_ ?_
  · exact h.statusRd s (early_of (show 0x1018 + 256 * m < 0x1818 by omega)) fun f hf => .inl (hw f hf ▸ show 0x1018 + 256 * m ≠ 0 by omega)
  · exact h.statusRd s (early_of (show 0x1030 + 256 * m < 0x1818 by omega)) fun f hf => .inl (hw f hf ▸ show 0x1030 + 256 * m ≠ 0 by omega)

/-- The PCIe link opens mailboxes 0 to 7 (R428, R432). -/
theorem openPcie_leaves : (Prog.openPcie.run s).rd .vta Reg.VTA_STATUS_PCIE_OPEN = 1 ∧ (Prog.openPcie.run s).vx = s.vx ∧
    ∀ m < 8, (Prog.openPcie.run s).mbxShown m = (1, 0) := by
  refine ⟨vtaStatus_same _ (by decide) rfl (by decide), ?_, fun m hm => ?_⟩
  · exact (vtaStatus_vx _ _ _).trans (Prog.vtaKeeps.run (g := id) (by simp [Prog.openMbx, Prog.modMb]) s)
  · have hall := (each_reaches (read := State.mbxShown) (goal := fun _ => (1, 0)) (inv := fun _ => True) (f := Prog.openMbx .vta) (List.range 8)
      (fun _ _ _ _ => trivial) (fun k hk t _ => ?_) (fun k hk c hc hne t => ?_) s trivial).2 m (List.mem_range.2 hm)
    · exact ((vtaStatus_status _ _).mbxShown _ (by decide) hm).trans hall
    · refine Prod.ext ?_ ?_ <;> rw [State.mbxShown] <;> simp only [openMbx_rd]
      · rw [State.rd_wr_other _ _ _ _ _ (by simp only [Reg.MBX_STATUS_OPEN, Reg.MBX_NEXT_SEQ_SEQ]; omega), State.rd_wr_same _ _ _ _ (show 0 + 1 ≤ 64 by decide)]
        rfl
      · exact State.rd_wr_same _ _ _ _ (show 0 + 32 ≤ 64 by decide)
    · refine Prod.ext ?_ ?_ <;> rw [State.mbxShown] <;> simp only [openMbx_rd]
      · rw [State.rd_wr_other _ _ _ _ _ (by simp only [Reg.MBX_STATUS_OPEN, Reg.MBX_NEXT_SEQ_SEQ]; omega),
          State.rd_wr_other _ _ _ _ _ (by simp only [Reg.MBX_STATUS_OPEN]; omega)]
        rfl
      · rw [State.rd_wr_other _ _ _ _ _ (by simp only [Reg.MBX_NEXT_SEQ_SEQ]; omega),
          State.rd_wr_other _ _ _ _ _ (by simp only [Reg.MBX_STATUS_OPEN, Reg.MBX_NEXT_SEQ_SEQ]; omega)]
        rfl

-- the last steps: DDR5 and the Bracken images

/-- The fields of steps 8 and 9 (R428). -/
def step8Fields : List Fld := [Reg.VTA_STATUS_BOOT_FAIL, Reg.VTA_STATUS_DDR_SLOW, Reg.VTA_STATUS_DDR_READY, Reg.VTA_STATUS_BRACKEN_UP]

theorem vtaStep9_status : (Prog.vtaStep9 b).changes (Prog.statusLeaf [Reg.VTA_STATUS_BRACKEN_UP]) :=
  ⟨(startBrackens_boot .vta b).status, fun _ => (Prog.changes_cond _).2 fun _ => vtaStatus_status _ _⟩

theorem vtaStep8_status : (Prog.vtaStep8 b).changes (Prog.statusLeaf step8Fields) := by
  refine ⟨(Prog.changes_ite _).2 ⟨fun _ => (vtaStatus_status _ _).statusMono (by decide), fun _ t => ?_⟩, (vtaStep9_status b).statusMono (by decide)⟩
  rw [Prog.changes_seq_cons, Prog.changes_seq_cons, Prog.changes_seq_cons]
  exact ⟨trivial, (vtaStatus_status _ _).statusMono (by decide), (vtaStatus_status _ _).statusMono (by decide), trivial⟩

/-- The steps 8 and 9 leave the PCIe link. -/
theorem vtaStep8_pcieUp : ((Prog.vtaStep8 b).run s).vx.pcieUp = s.vx.pcieUp := by
  have hb (t : State) := ((startBrackens_boot .vta b).sameBoot t).pcieUp
  have h9 (t : State) : ((Prog.vtaStep9 b).run t).vx.pcieUp = t.vx.pcieUp := by
    rw [Prog.vtaStep9, Prog.run_both, Prog.run_get, Prog.run_cond]
    split
    · rw [vtaStatus_vx, hb]
    · exact hb t
  rw [Prog.vtaStep8, Prog.run_both, h9]
  split
  · rw [vtaStatus_vx]
  · rw [Prog.run_get, Prog.run_seq_cons, Prog.run_seq_cons, Prog.run_seq_cons, Prog.run_seq_nil, vtaStatus_vx, vtaStatus_vx, Prog.run_vta]

/-- A DDR5 that does not train shows BOOT_FAIL 7; one that does is ready (R403, R428). -/
theorem vtaStep8_leaves : (b.fail = 7 → ((Prog.vtaStep8 b).run s).rd .vta Reg.VTA_STATUS_BOOT_FAIL = 7) ∧
    (b.fail ≠ 7 → ((Prog.vtaStep8 b).run s).rd .vta Reg.VTA_STATUS_DDR_READY = 1) := by
  constructor
  · intro h
    rw [Prog.vtaStep8, Prog.run_both, if_pos h, (vtaStep9_status b).statusRd _ rfl (by decide), vtaStatus_same _ (by decide) rfl (by decide)]
  · intro h
    rw [Prog.vtaStep8, Prog.run_both, if_neg h, (vtaStep9_status b).statusRd _ rfl (by decide), Prog.run_get, Prog.run_seq_cons,
      Prog.run_seq_cons, Prog.run_seq_cons, Prog.run_seq_nil, vtaStatus_same _ (by decide) rfl (by decide)]

-- step 7: patches, keys and the PCIe link

/-- The fields of step 7 and those after it (R428). -/
def step7Fields : List Fld := step8Fields ++ pcieFields

/-- The PCIe link is up after a cold start (R428). -/
def Prog.linkUp : Prog := .vta fun x => { x with pcieUp := x.pcieUp || true }

theorem linkUp_pcieUp : (Prog.linkUp.run s).vx.pcieUp = true := Bool.or_true _

/-- After a cold start the PCIe link opens. -/
theorem linkUp_opens : (Prog.get fun s => Prog.cond s.vx.pcieUp .openPcie).run (Prog.linkUp.run s) = Prog.openPcie.run (Prog.linkUp.run s) := by
  rw [Prog.run_get, linkUp_pcieUp, Prog.run_cond_true]

/-- Step 7 with a failure: the PCIe link opens its mailboxes all the same (R109, R428). -/
theorem vtaStep7_stops (h : b.fail = 5 ∨ ((Prog.deriveDevice .vta).run s).patchesOk .vta b = false) : (Prog.vtaStep7 true b).run s =
    Prog.openPcie.run (Prog.linkUp.run ((Prog.vtaStatus Reg.VTA_STATUS_BOOT_FAIL 5).run ((Prog.deriveDevice .vta).run s))) := by
  rw [Prog.vtaStep7, Prog.run_both, Prog.run_get, if_pos (h.imp_right fun h => by rw [h]; rfl), Prog.run_seq_cons, Prog.run_seq_cons,
    Prog.run_seq_cons, Prog.run_seq_nil]
  exact linkUp_opens _

/-- The PCIe mailboxes open, and then mailbox 8 if an image runs. -/
theorem openPcie_openMbx : ∃ c : Bool, (Prog.get fun s => Prog.both (.cond s.vx.pcieUp .openPcie)
    (.cond (s.v.brks.any fun e => e.2.running) (.openMbx .vta 8))).run (Prog.linkUp.run s) =
      (Prog.cond c (.openMbx .vta 8)).run (Prog.openPcie.run (Prog.linkUp.run s)) := by
  rw [Prog.run_get, Prog.run_both, linkUp_pcieUp, Prog.run_cond_true]
  exact ⟨_, rfl⟩

/-- Step 7 without one: keys, the PCIe link, and steps 8 and 9 (R107 to R109, R428). -/
theorem vtaStep7_ends (h5 : b.fail ≠ 5) (h : ((Prog.deriveDevice .vta).run s).patchesOk .vta b = true) : ∃ (k : State) (c : Bool),
    s.sameBoot .vta k ∧ (Prog.vtaStep7 true b).run s =
      (Prog.vtaStep8 b).run ((Prog.cond c (.openMbx .vta 8)).run (Prog.openPcie.run (Prog.linkUp.run k))) := by
  have hn : ¬ (b.fail = 5 ∨ (!((Prog.deriveDevice .vta).run s).patchesOk .vta b) = true) := by simp [h5, h]
  obtain ⟨c, hc⟩ := openPcie_openMbx ((Prog.newKey .vta).run ((Prog.deriveAlias .vta b).run ((Prog.deriveDevice .vta).run s)))
  refine ⟨_, c, ((deriveDevice_boot .vta).sameBoot s).trans (((deriveAlias_boot .vta b).sameBoot _).trans ((newKey_boot .vta).sameBoot _)), ?_⟩
  rw [Prog.vtaStep7, Prog.run_both, Prog.run_get, if_neg hn, Prog.run_seq_cons, Prog.run_seq_cons, Prog.run_seq_cons, Prog.run_seq_cons,
    Prog.run_seq_cons, Prog.run_seq_nil, Prog.run_cond_true, ← hc, Prog.linkUp]

/-- Step 7 changes no other field, and does not reset the unit. -/
theorem vtaStep7_status : (Prog.vtaStep7 true b).changes (Prog.statusLeaf step7Fields) := by
  have hp := openPcie_status.statusMono (V := step7Fields) fun f hf => List.mem_append_right _ hf
  have h8 : (Prog.openMbx .vta 8).changes (Prog.statusLeaf step7Fields) := (openBracken_boot .vta).status
  refine ⟨(deriveDevice_boot .vta).status, fun s => (Prog.changes_ite _).2 ⟨fun _ => ?_, fun _ => ?_⟩⟩
  · simp only [Prog.changes_seq_cons, Prog.changes_seq_nil, Prog.changes_get, Prog.changes_cond, Prog.changes_vta, statusLeaf_vta, and_true, true_and]
    exact ⟨(vtaStatus_status _ _).statusMono (by decide), fun _ _ => hp⟩
  · simp only [Prog.changes_seq_cons, Prog.changes_seq_nil, Prog.changes_get, Prog.changes_both, Prog.changes_cond, Prog.changes_vta, statusLeaf_vta,
      and_true, true_and]
    exact ⟨(deriveAlias_boot .vta b).status, (newKey_boot .vta).status, fun _ => ⟨fun _ => hp, fun _ => h8⟩,
      fun _ => (vtaStep8_status b).statusMono fun f hf => List.mem_append_left _ hf⟩

/-- PATCH_SVN is read alike before and after. -/
theorem vtaStep7_patches : ((Prog.vtaStep7 true b).run s).patchesOk .vta b = ((Prog.deriveDevice .vta).run s).patchesOk .vta b :=
  patchesOk_of_rd _ b (((vtaStep7_status b).statusRd s rfl (by decide)).trans (((deriveDevice_boot .vta).sameBoot s).rd _ rfl).symm)

/-- What step 7 of a VTA leaves (R109, R428). -/
structure VtaStep7 (b : BootRun) (t : State) : Prop where
  fails : b.fail = 5 ∨ t.patchesOk .vta b = false → t.rd .vta Reg.VTA_STATUS_BOOT_FAIL = 5 ∧ t.rd .vta Reg.VTA_STATUS_PCIE_OPEN = 1
  noDdr : b.fail = 7 → t.patchesOk .vta b = true → t.rd .vta Reg.VTA_STATUS_BOOT_FAIL = 7 ∧ t.rd .vta Reg.VTA_STATUS_PCIE_OPEN = 1
  ends : b.fail ≠ 5 → b.fail ≠ 7 → t.patchesOk .vta b = true → t.rd .vta Reg.VTA_STATUS_PCIE_OPEN = 1 ∧
    t.rd .vta Reg.VTA_STATUS_DDR_READY = 1 ∧ t.vx.pcieUp = true ∧ ∀ m < 8, t.mbxShown m = (1, 0)

theorem vtaStep7_leaves : VtaStep7 b ((Prog.vtaStep7 true b).run s) := by
  have hok := vtaStep7_patches s b
  by_cases h : b.fail = 5 ∨ ((Prog.deriveDevice .vta).run s).patchesOk .vta b = false
  · have hfail : ((Prog.vtaStep7 true b).run s).rd .vta Reg.VTA_STATUS_BOOT_FAIL = 5 ∧
        ((Prog.vtaStep7 true b).run s).rd .vta Reg.VTA_STATUS_PCIE_OPEN = 1 := by
      rw [vtaStep7_stops s b h]
      exact ⟨(openPcie_status.statusRd _ rfl (by decide)).trans (vtaStatus_same _ (by decide) rfl (by decide)), (openPcie_leaves _).1⟩
    rw [← hok] at h
    exact ⟨fun _ => hfail, fun h7 ho => absurd h (by simp [h7, ho]), fun h5 _ ho => absurd h (by simp [h5, ho])⟩
  · obtain ⟨h5, hpatch⟩ := not_or.1 h
    obtain ⟨k, c, -, hrun⟩ := vtaStep7_ends s b h5 (Bool.not_eq_false _ ▸ hpatch)
    obtain ⟨hopen, hvx, hmbx⟩ := openPcie_leaves (Prog.linkUp.run k)
    have h8 : (Prog.cond c (.openMbx .vta 8)).changes (Prog.bootLeaf .vta) := (Prog.changes_cond _).2 fun _ => openBracken_boot .vta
    have hpcie : ((Prog.vtaStep7 true b).run s).rd .vta Reg.VTA_STATUS_PCIE_OPEN = 1 := by
      rw [hrun, (vtaStep8_status b).statusRd _ rfl (by decide), (h8.sameBoot _).rd _ rfl, hopen]
    refine ⟨fun hf => absurd hf (by rw [hok]; exact h), fun h7 _ => ⟨?_, hpcie⟩, fun _ h7 _ => ⟨hpcie, ?_, ?_, fun m hm => ?_⟩⟩
    · rw [hrun, (vtaStep8_leaves _ b).1 h7]
    · rw [hrun, (vtaStep8_leaves _ b).2 h7]
    · rw [hrun, vtaStep8_pcieUp, (h8.sameBoot _).pcieUp, hvx, linkUp_pcieUp]
    · rw [hrun, (vtaStep8_status b).mbxShown _ (by decide) hm, (h8.status (W := [])).mbxShown _ (by decide) hm, hmbx m hm]

-- steps 5 and 6: Gorse and the recorder

/-- Banks, arrays and sward cores as the recorder restores them (R422). -/
theorem retireCore_boot (k : Nat) : (Prog.retireCore k).changes (Prog.bootLeaf .vta) := by
  have hcore (q : Nat) : (Reg.VTA_SWC_STATE q).pastBoot .vta = true := pastBoot_high .vta (by simp only [Reg.VTA_SWC_STATE, Fld.at]; omega)
  have hlog (q : Nat) : (Reg.VTA_SWC_LOGICAL q).pastBoot .vta = true := pastBoot_high .vta (by simp only [Reg.VTA_SWC_LOGICAL, Fld.at]; omega)
  have hsp (g : Nat) : (Reg.VTA_SWG_SPARES g).pastBoot .vta = true := pastBoot_high .vta (by simp only [Reg.VTA_SWG_SPARES]; omega)
  have hlc (g : Nat) : (Reg.VTA_SWG_LOGICAL g).pastBoot .vta = true := pastBoot_high .vta (by simp only [Reg.VTA_SWG_LOGICAL]; omega)
  refine fun s => ⟨fun _ => hcore _, (Prog.changes_ite _).2 ⟨fun _ _ => hsp _, fun _ => ?_⟩⟩
  split
  · simp only [Prog.changes_seq_cons, Prog.changes_seq_nil, Prog.changes_wr, bootLeaf_wr, hcore, hlog, hsp, implies_true, and_true]
  · exact fun _ => hlc _

theorem showBanks_boot : Prog.showBanks.changes (Prog.bootLeaf .vta) := by
  have hu (q : Nat) : (Reg.HTR_BANK_USED q).pastBoot .vta = true := pastBoot_high .vta (by simp only [Reg.HTR_BANK_USED]; omega)
  have ht (q : Nat) : (Reg.HTR_BANK_TREES q).pastBoot .vta = true := pastBoot_high .vta (by simp only [Reg.HTR_BANK_TREES]; omega)
  have ha : Reg.HTR_STATUS_BANKS_ACTIVE.pastBoot .vta = true := rfl
  have hr : Reg.HTR_STATUS_BANKS_RETIRED.pastBoot .vta = true := rfl
  simp [Prog.showBanks, hu, ht, ha, hr]

theorem initEngines_boot : Prog.initEngines.changes (Prog.bootLeaf .vta) := by
  have hb (q : Nat) : (Reg.HTR_BANK_STATE q).pastBoot .vta = true := pastBoot_high .vta (by simp only [Reg.HTR_BANK_STATE]; omega)
  have ha (q : Nat) : (Reg.HTH_ARRAY_STATE q).pastBoot .vta = true := pastBoot_high .vta (by simp only [Reg.HTH_ARRAY_STATE]; omega)
  have hr : Reg.HTH_STATUS_RETIRED.pastBoot .vta = true := rfl
  have hc : Reg.HTH_STATUS_ACTIVE.pastBoot .vta = true := rfl
  have hi : Reg.HTR_STATUS_INIT_DONE.pastBoot .vta = true := rfl
  simp [Prog.initEngines, hb, ha, hr, hc, hi, retireCore_boot, showBanks_boot]

theorem showBudgetDay_boot : Prog.showBudgetDay.changes (Prog.bootLeaf .vta) := by
  have hq : Reg.VTA_FLT_BUDGET_IN_QUAR.pastBoot .vta = true := rfl
  have hd : Reg.VTA_FLT_BUDGET_LAST_24H.pastBoot .vta = true := rfl
  simp [Prog.showBudgetDay, hq, hd]

/-- The fields of steps 5 to 9 (R428). -/
def step5VtaFields : List Fld := [Reg.VTA_STATUS_GORSE_UP, Reg.VTA_STATUS_RECORDER_OPEN] ++ step7Fields

theorem step7_mem {f : Fld} (h : f ∈ step7Fields) : f ∈ step5VtaFields := List.mem_append_right _ h

/-- Step 5 changes no other field, and does not reset the unit. -/
theorem vtaStep5_status : (Prog.vtaStep5 true b).changes (Prog.statusLeaf step5VtaFields) := by
  have hs (f : Fld) (v : Nat) (hf : f ∈ step5VtaFields) : (Prog.vtaStatus f v).changes (Prog.statusLeaf step5VtaFields) :=
    (vtaStatus_status f v).statusMono fun g hg => List.mem_singleton.1 hg ▸ hf
  refine (Prog.changes_ite _).2 ⟨fun _ => hs _ _ (by decide), fun _ => ⟨hs _ _ (by decide), (Prog.changes_ite _).2 ⟨fun _ => hs _ _ (by decide), fun _ => ?_⟩⟩⟩
  simp only [Prog.changes_seq_cons, Prog.changes_seq_nil, Prog.changes_cond, and_true]
  exact ⟨(openRecorder_boot .vta true b.blank).status, hs _ _ (by decide), fun _ => initEngines_boot.status, showBudgetDay_boot.status,
    (vtaStep7_status b).statusMono fun _ => step7_mem⟩

/-- Step 5 without a failure of Gorse or the recorder goes on to step 7 (R428). -/
theorem vtaStep5_run (h12 : ¬(b.fail = 1 ∨ b.fail = 2)) (h4 : b.fail ≠ 4) : ∃ k m : State,
    ((Prog.vtaStatus Reg.VTA_STATUS_GORSE_UP 1).run s).sameBoot .vta k ∧
    ((Prog.vtaStatus Reg.VTA_STATUS_RECORDER_OPEN 1).run k).sameBoot .vta m ∧
    (Prog.vtaStep5 true b).run s = (Prog.vtaStep7 true b).run m := by
  refine ⟨_, _, (openRecorder_boot .vta true b.blank).sameBoot _, (initEngines_boot.sameBoot _).trans (showBudgetDay_boot.sameBoot _), ?_⟩
  rw [Prog.vtaStep5, if_neg h12, if_neg h4, Prog.run_both, Prog.run_seq_cons, Prog.run_seq_cons, Prog.run_seq_cons, Prog.run_seq_cons,
    Prog.run_seq_cons, Prog.run_seq_nil, Prog.run_cond_true]

/-- What steps 5 to 9 leave where Gorse and the recorder start. -/
theorem vtaStep5_leaves (h12 : ¬(b.fail = 1 ∨ b.fail = 2)) (h4 : b.fail ≠ 4) : VtaStep7 b ((Prog.vtaStep5 true b).run s) ∧
    ((Prog.vtaStep5 true b).run s).rd .vta Reg.VTA_STATUS_GORSE_UP = 1 ∧ ((Prog.vtaStep5 true b).run s).rd .vta Reg.VTA_STATUS_RECORDER_OPEN = 1 := by
  obtain ⟨k, m, hk, hm, hrun⟩ := vtaStep5_run s b h12 h4
  rw [hrun]
  refine ⟨vtaStep7_leaves m b, ?_, ?_⟩
  · rw [(vtaStep7_status b).statusRd m rfl (by decide), hm.rd _ rfl, (vtaStatus_status _ _).statusRd k rfl (by decide), hk.rd _ rfl,
      vtaStatus_same _ (by decide) rfl (by decide)]
  · rw [(vtaStep7_status b).statusRd m rfl (by decide), hm.rd _ rfl, vtaStatus_same _ (by decide) rfl (by decide)]

-- the first steps

/-- A time PLL that locks shows in the time registers alone (R147, R149). -/
theorem pllGained_boot : (Prog.pllGained .vta 64).changes (Prog.bootLeaf .vta) := by
  have ha : Reg.TIM_STATUS_PLL_A_RDY.pastBoot .vta = true := rfl
  have hl : Reg.TIM_STATUS_LOCK.pastBoot .vta = true := rfl
  have hh : Reg.TIM_STATUS_HOLD.pastBoot .vta = true := rfl
  have hc : Reg.TIM_STATUS_SRC.pastBoot .vta = true := rfl
  have ht : Reg.TIM_STATUS_TIMEV.pastBoot .vta = true := rfl
  have hf : Reg.TIM_STATUS_SAFE.pastBoot .vta = true := rfl
  simp [Prog.pllGained, Prog.enterFree, Prog.timeValid, pllRdy, ha, hl, hh, hc, ht, hf]

/-- The fields of steps 3 to 9 (R428). -/
def step3VtaFields : List Fld := [Reg.VTA_CLK_PLL_RDY, Reg.VTA_STATUS_MEM_INIT] ++ step5VtaFields

theorem step5_mem {f : Fld} (h : f ∈ step5VtaFields) : f ∈ step3VtaFields := List.mem_append_right _ h

/-- The PLLs and the Furrow ports change PLL_RDY alone of what a start-up shows. -/
def Prog.clocksUp : Prog := .seq [.wr .vta Reg.VTA_CLK_PLL_RDY 0x1FF, .pllGained .vta 64,
  .each (List.range 64) fun k => .setFn .vta (fidPort k) fun f => { f with st := .running }]

theorem clocksUp_status : Prog.clocksUp.changes (Prog.statusLeaf [Reg.VTA_CLK_PLL_RDY]) := by
  rw [Prog.clocksUp, Prog.changes_seq_cons, Prog.changes_seq_cons, Prog.changes_seq_cons]
  exact ⟨fun _ => .inl (List.mem_singleton.2 rfl), pllGained_boot.status, (portsRun_boot .vta _).status, trivial⟩

/-- Steps 3 and 4: BOOT_FAIL 3 where the memories fail, else step 5 (R428). -/
theorem vtaStep3_run : (Prog.vtaStep3 b).run s = if b.fail = 3 then (Prog.vtaStatus Reg.VTA_STATUS_BOOT_FAIL 3).run (Prog.clocksUp.run s)
    else (Prog.vtaStep5 true b).run ((Prog.vtaStatus Reg.VTA_STATUS_MEM_INIT 1).run (Prog.clocksUp.run s)) := by
  rw [Prog.vtaStep3, Prog.clocksUp, Prog.run_seq_cons, Prog.run_seq_cons, Prog.run_seq_cons, Prog.run_seq_cons, Prog.run_seq_nil,
    Prog.run_seq_cons, Prog.run_seq_cons, Prog.run_seq_cons, Prog.run_seq_nil]
  split
  · rfl
  · rw [Prog.run_both]

/-- Steps 3 to 9 change no other field, and do not reset the unit. -/
theorem vtaStep3_status : (Prog.vtaStep3 b).changes (Prog.statusLeaf step3VtaFields) := by
  have hs (f : Fld) (v : Nat) (hf : f ∈ step3VtaFields) : (Prog.vtaStatus f v).changes (Prog.statusLeaf step3VtaFields) :=
    (vtaStatus_status f v).statusMono fun g hg => List.mem_singleton.1 hg ▸ hf
  rw [Prog.vtaStep3, Prog.changes_seq_cons, Prog.changes_seq_cons, Prog.changes_seq_cons, Prog.changes_seq_cons]
  exact ⟨fun _ => .inl (by decide), pllGained_boot.status, (portsRun_boot .vta _).status, (Prog.changes_ite _).2 ⟨fun _ => hs _ _ (by decide),
    fun _ => ⟨hs _ _ (by decide), (vtaStep5_status b).statusMono fun _ => step5_mem⟩⟩, trivial⟩

/-- What steps 3 to 9 leave. -/
theorem vtaStep3_leaves : (b.fail = 3 → ((Prog.vtaStep3 b).run s).rd .vta Reg.VTA_STATUS_BOOT_FAIL = 3) ∧
    (b.fail = 0 ∨ 5 ≤ b.fail → VtaStep7 b ((Prog.vtaStep3 b).run s) ∧ ((Prog.vtaStep3 b).run s).rd .vta Reg.VTA_STATUS_MEM_INIT = 1 ∧
      ((Prog.vtaStep3 b).run s).rd .vta Reg.VTA_STATUS_GORSE_UP = 1 ∧ ((Prog.vtaStep3 b).run s).rd .vta Reg.VTA_STATUS_RECORDER_OPEN = 1) := by
  constructor
  · intro h
    rw [vtaStep3_run, if_pos h, vtaStatus_same _ (by decide) rfl (by decide)]
  · intro h
    rw [vtaStep3_run, if_neg (by omega)]
    obtain ⟨h7, hg, hr⟩ := vtaStep5_leaves ((Prog.vtaStatus Reg.VTA_STATUS_MEM_INIT 1).run (Prog.clocksUp.run s)) b (by omega) (by omega)
    exact ⟨h7, ((vtaStep5_status b).statusRd _ rfl (by decide)).trans (vtaStatus_same _ (by decide) rfl (by decide)), hg, hr⟩

/-- A VTA out of reset: the fused values, then step 2 (R428). -/
theorem vtaStart_run (hr : s.v.inReset = true) (hh : s.vx.refHeld = false) (ht : s.vx.thermTrip = false) : (Prog.vtaStart b).run s =
    (if b.fail = 6 then (Prog.vtaStatus Reg.VTA_STATUS_BOOT_FAIL 6).run ((Prog.vtaStatus Reg.VTA_STATUS_FUSES 1).run (s.leftReset .vta))
      else (Prog.vtaStep3 b).run ((Prog.vtaStatus Reg.VTA_STATUS_REF_LOCK 1).run ((Prog.vtaStatus Reg.VTA_STATUS_FUSES 1).run (s.leftReset .vta)))) := by
  rw [Prog.vtaStart, Prog.run_get, if_pos hr, hh, ht, Bool.not_false, Bool.and_self, Prog.run_cond_true, Prog.run_seq_cons, Prog.run_seq_cons,
    Prog.run_seq_cons, Prog.run_seq_cons, Prog.run_seq_nil, Prog.run_dev, ← State.leftReset]
  split
  · rfl
  · rw [Prog.run_both]

/-- A VTA that is held does not start (R425, R428). -/
theorem vtaStart_held (hr : s.v.inReset = true) (h : s.vx.refHeld = true ∨ s.vx.thermTrip = true) : (Prog.vtaStart b).run s = s := by
  have hc : (!s.vx.refHeld && !s.vx.thermTrip) = false := by rcases h with h | h <;> simp [h]
  rw [Prog.vtaStart, Prog.run_get, if_pos hr, hc, Prog.run_cond_false]

/-- What the start-up of a VTA reaches (R109, R428). -/
theorem vtaStart_leaves (hr : s.v.inReset = true) (hh : s.vx.refHeld = false) (hth : s.vx.thermTrip = false) :
    let t := (Prog.vtaStart b).run s
    t.v.inReset = false ∧ t.rd .vta Reg.VTA_STATUS_FUSES = 1 ∧
      (b.fail = 6 → t.rd .vta Reg.VTA_STATUS_BOOT_FAIL = 6) ∧ (b.fail = 3 → t.rd .vta Reg.VTA_STATUS_BOOT_FAIL = 3) ∧
      (b.fail = 0 → t.patchesOk .vta b = true → t.rd .vta Reg.VTA_STATUS_REF_LOCK = 1 ∧ t.rd .vta Reg.VTA_STATUS_MEM_INIT = 1 ∧ t.rd .vta Reg.VTA_STATUS_GORSE_UP = 1 ∧
        t.rd .vta Reg.VTA_STATUS_RECORDER_OPEN = 1 ∧ t.rd .vta Reg.VTA_STATUS_PCIE_OPEN = 1 ∧ t.rd .vta Reg.VTA_STATUS_DDR_READY = 1 ∧
        t.vx.pcieUp = true ∧ ∀ m < 8, t.rd .vta (Reg.MBX_STATUS_OPEN m) = 1 ∧ t.rd .vta (Reg.MBX_NEXT_SEQ_SEQ m) = 0) ∧
      (b.fail = 7 → t.patchesOk .vta b = true → t.rd .vta Reg.VTA_STATUS_BOOT_FAIL = 7 ∧ t.rd .vta Reg.VTA_STATUS_PCIE_OPEN = 1) ∧
      (b.fail = 5 ∨ (b.fail = 0 ∧ t.patchesOk .vta b = false) →
        t.rd .vta Reg.VTA_STATUS_BOOT_FAIL = 5 ∧ t.rd .vta Reg.VTA_STATUS_PCIE_OPEN = 1) := by
  intro t
  have hrun : t = _ := vtaStart_run s b hr hh hth
  have hres : ((Prog.vtaStatus Reg.VTA_STATUS_FUSES 1).run (s.leftReset .vta)).v.inReset = false :=
    ((vtaStatus_status _ _).statusReset _).trans (leftReset_leaves s .vta).1
  have hfuses : ((Prog.vtaStatus Reg.VTA_STATUS_FUSES 1).run (s.leftReset .vta)).rd .vta Reg.VTA_STATUS_FUSES = 1 :=
    vtaStatus_same _ (by decide) rfl (by decide)
  generalize (Prog.vtaStatus Reg.VTA_STATUS_FUSES 1).run (s.leftReset .vta) = k at hrun hres hfuses
  by_cases h6 : b.fail = 6
  · rw [if_pos h6] at hrun
    have hb : t.rd .vta Reg.VTA_STATUS_BOOT_FAIL = 6 := hrun ▸ vtaStatus_same _ (by decide) rfl (by decide)
    exact ⟨hrun ▸ ((vtaStatus_status _ _).statusReset _).trans hres, hrun ▸ ((vtaStatus_status _ _).statusRd _ rfl (by decide)).trans hfuses,
      fun _ => hb, fun h => by omega, fun h => by omega, fun h => by omega, fun h => by omega⟩
  · rw [if_neg h6] at hrun
    obtain ⟨h3, hends⟩ := vtaStep3_leaves ((Prog.vtaStatus Reg.VTA_STATUS_REF_LOCK 1).run k) b
    have hrd {g : Fld} (hg : g.early .vta = true) (ha : ∀ f ∈ step3VtaFields, g.apart f) :
        t.rd .vta g = ((Prog.vtaStatus Reg.VTA_STATUS_REF_LOCK 1).run k).rd .vta g := hrun ▸ (vtaStep3_status b).statusRd _ hg ha
    rw [← hrun] at h3 hends
    refine ⟨?_, ?_, fun h => absurd h h6, h3, fun h0 hok => ?_, fun h7 hok => ?_, fun h => ?_⟩
    · exact hrun ▸ ((vtaStep3_status b).statusReset _).trans (((vtaStatus_status _ _).statusReset _).trans hres)
    · exact (hrd rfl (by decide)).trans (((vtaStatus_status _ _).statusRd _ rfl (by decide)).trans hfuses)
    · obtain ⟨h7, hmem, hgorse, hrec⟩ := hends (.inl h0)
      obtain ⟨hpcie, hddr, hup, hmbx⟩ := h7.ends (by omega) (by omega) hok
      exact ⟨(hrd rfl (by decide)).trans (vtaStatus_same _ (by decide) rfl (by decide)), hmem, hgorse, hrec, hpcie, hddr, hup,
        fun m hm => Prod.ext_iff.1 (hmbx m hm)⟩
    · exact (hends (by omega)).1.noDdr h7 hok
    · exact (hends (by omega)).1.fails (h.imp_right And.right)

/-- Settles O31: step by step, each step of a start-up writes its own status field, and what the rest of it writes stands beside that field. -/
theorem startsReachTheirSteps : Obligations.StartsReachTheirSteps := by
  refine ⟨fun b s hr => ⟨_, rfl, htuStart_leaves s b hr⟩, fun b s hr => ⟨fun h => ?_, fun hh ht => ⟨_, rfl, vtaStart_leaves s b hr hh ht⟩⟩⟩
  exact congrArg _ (vtaStart_held s b hr h)

end Sys2Proof.Machine

end

section

/-! # A command that starts: O16 -/

namespace Sys2Proof.Machine

section
variable {s : State} {u : UnitId} {m : Nat} {op : Op} {p : Packet}

/-- The reserved bits that a packet sets are counted (R8). -/
def Prog.countRsvd (u : UnitId) (m code : Nat) (p : Packet) : Prog := .cond (rsvdSet u code p) (.mbxErr u m (Reg.MBX_ERR2_RSVD m))

theorem modMb_countRsvd (code : Nat) (f : Mbx → Mbx) : (Prog.modMb u m f).run ((Prog.countRsvd u m code p).run s) =
    (Prog.countRsvd u m code p).run ((Prog.modMb u m f).run s) := by
  rw [Prog.countRsvd, Prog.run_cond, Prog.run_cond]
  split
  · exact Prog.modMb_mbxErr ..
  · rfl

@[simp] theorem mb_countRsvd (code : Nat) : ((Prog.countRsvd u m code p).run s).mb u m = s.mb u m := by
  rw [Prog.countRsvd, Prog.run_cond]
  split
  · exact State.mb_mbxErr ..
  · rfl

/-- Counting them writes no framing bit. -/
theorem on_gen_countRsvd (code : Nat) : ((Prog.countRsvd u m code p).run s).on u (Reg.MBX_STATUS_GEN m) = s.on u (Reg.MBX_STATUS_GEN m) := by
  have hk : (Prog.countRsvd u m code p).keeps _ := Prog.keeps_cond _ (Prog.mbxErr_keeps u m _)
  rw [State.on, State.on, Prog.rd_keeps hk]
  simp only [Reg.MBX_STATUS_GEN, Reg.MBX_ERR2_RSVD, Reg.MBX_IRQ_STATUS_ERROR, Reg.MSIX_PBA_PENDING]
  cases u <;> omega

/-- A packet accepted, `f` of its mailbox: what it finds is counted, the mailbox changes, and its next SEQ counts on (R8, R78). -/
def State.accepted (s : State) (u : UnitId) (m code : Nat) (p : Packet) (f : Mbx → Mbx) : State :=
  ((Prog.modMb u m f).run ((Prog.countRsvd u m code p).run s)).wr u (Reg.MBX_NEXT_SEQ_SEQ m) (s.rd u (Reg.MBX_NEXT_SEQ_SEQ m) + 1)

@[simp] theorem mb_accepted (code : Nat) (f : Mbx → Mbx) : (s.accepted u m code p f).mb u m = f (s.mb u m) := by
  simp [State.accepted]

theorem on_gen_accepted (code : Nat) (f : Mbx → Mbx) :
    (s.accepted u m code p f).on u (Reg.MBX_STATUS_GEN m) = s.on u (Reg.MBX_STATUS_GEN m) := by
  rw [State.accepted, State.on, State.rd_wr_other _ _ _ _ _ (by simp only [Reg.MBX_STATUS_GEN, Reg.MBX_NEXT_SEQ_SEQ]; omega), State.rd_modMb]
  exact on_gen_countRsvd _

/-- A further change of the mailbox. -/
theorem modMb_accepted (code : Nat) (f g : Mbx → Mbx) : (Prog.modMb u m g).run (s.accepted u m code p f) = s.accepted u m code p fun b => g (f b) := by
  rw [State.accepted, Prog.modMb_wr, Prog.modMb_modMb, State.accepted]

/-- Changes that agree on the mailbox as it stands are one. -/
theorem accepted_congr (code : Nat) {f g : Mbx → Mbx} (h : f (s.mb u m) = g (s.mb u m)) : s.accepted u m code p f = s.accepted u m code p g := by
  rw [State.accepted, State.accepted, Prog.modMb_congr _ u m f g (by simpa using h)]

theorem admitted_eq (code need : Nat) : s.admitted u m code p need = s.accepted u m code p fun b =>
    { b with waiting := [], held := [], outst := b.outst ++ [{ outstOf code p with need := need }] } := by
  rw [State.admitted, State.accepted, Prog.run_seq_cons, Prog.run_seq_cons, Prog.run_seq_cons, Prog.run_seq_nil, Prog.run_wr, Prog.countRsvd]

theorem mb_fetched : (s.fetched u m).mb u m = { s.mb u m with waiting := [] } := State.mb_modMb ..

/-- A packet that passes the checks is held. -/
theorem accept_holds (code : Nat) (hin : s.inTurn u m p) (hok : (s.fetched u m).takeFail u m code p = none) :
    (Prog.accept u m code p).run (s.fetched u m) = s.accepted u m code p fun b =>
      { b with waiting := [], outst := b.outst ++ [outstOf code p], held := b.held ++ [(code, p)] } := by
  obtain ⟨hdup, hseq⟩ := hin
  have hd : ¬((s.fetched u m).mb u m).outst.any (·.tag == p.tag) = true := by rw [mb_fetched]; simp [hdup]
  have hrd (f : Fld) : (s.fetched u m).rd u f = s.rd u f := State.rd_modMb ..
  have hs : ¬(!(s.fetched u m).on u (Reg.MBX_STATUS_GEN m) && p.seq.toNat != (s.fetched u m).rd u (Reg.MBX_NEXT_SEQ_SEQ m)) = true := by
    rw [State.on, hrd, hrd, ← State.on]
    rcases hseq with h | h <;> simp [h]
  rw [Prog.accept, Prog.run_get, if_neg hd]
  dsimp only
  rw [if_neg hs, hok, Prog.run_seq_cons, Prog.run_seq_cons, Prog.run_seq_cons, Prog.run_seq_nil, Prog.run_both, Prog.run_wr, hrd,
    ← Prog.countRsvd, State.fetched, ← modMb_countRsvd, Prog.modMb_modMb, ← State.accepted, modMb_accepted]

/-- A packet that stands alone in its mailbox is not kept back (R81, R85). -/
theorem alone_unblocked (b : Mbx) (v1 : Bool) (code : Nat) (hd : b.outst.any (·.tag == p.tag) = false)
    (hf : p.ordF = true ∨ v1 = true → b.outst.all (·.first) = true) :
    Mbx.unblocked { b with waiting := [], outst := b.outst ++ [outstOf code p], held := [(code, p)] } v1 p = true := by
  have hearly : (b.outst ++ [outstOf code p]).takeWhile (·.tag != p.tag) = b.outst := by
    have hall : ∀ o ∈ b.outst, (o.tag != p.tag) = true := fun o ho => by simpa using (List.any_eq_false.1 hd) o ho
    rw [List.takeWhile_append_of_pos hall]
    simp [outstOf]
  rw [Mbx.unblocked, Mbx.earlier, hearly]
  cases h : p.ordF || v1 with
  | false => simp
  | true => simp_all

/-- The held packet leaves its list and starts. -/
theorem mbxWork_starts {r : State} {code : Nat} (hh : (r.mb u m).held = [(code, p)]) (hop : opOf code = some op) (hf : isFence code p = false)
    (hb : (r.mb u m).unblocked (r.on u (Reg.MBX_STATUS_GEN m)) p = true) :
    (Prog.mbxWork u m).run r = (Prog.startCmd u m op p).run ((Prog.modMb u m fun b => { b with held := b.held.filter (·.2.tag != p.tag) }).run r) := by
  have hfind : (r.mb u m).held.find? (fun h => !isFence h.1 h.2 && (r.mb u m).unblocked (r.on u (Reg.MBX_STATUS_GEN m)) h.2) = some (code, p) := by
    rw [hh, List.find?_cons, hf, hb]
    rfl
  rw [Prog.mbxWork, Prog.run_get]
  dsimp only
  rw [hfind]
  dsimp only
  rw [Prog.startHeld, hop, Prog.run_both]
  rfl

/-- A command that is not refused takes its reply space, posts ACCEPTED where it asks for it, and has its effect (R82). -/
theorem startCmd_runs {r : State} (h : r.startFail u m op p = none) : (Prog.startCmd u m op p).run r =
    (op.run u m p).run ((Prog.cond (p.asyncF && op.async) (.reply u m p.tag { status := stAccepted })).run ((Prog.modMb u m fun b => { b with
      outst := b.outst.map fun o => if o.tag == p.tag then { o with need := op.data p } else o
      effects := if op.async then (b.effects.filter (·.1 != p.tag)) ++ [(p.tag, p.target)] else b.effects }).run r)) := by
  rw [Prog.startCmd, Prog.run_get, h]
  rfl

/-- The reply space that a command takes as it starts is the one it is admitted with (R71, R72). -/
theorem reserve_admitted (hd : (s.mb u m).outst.any (·.tag == p.tag) = false) : (Prog.modMb u m fun b => { b with
      outst := b.outst.map fun o => if o.tag == p.tag then { o with need := op.data p } else o
      effects := if op.async then (b.effects.filter (·.1 != p.tag)) ++ [(p.tag, p.target)] else b.effects }).run (s.admitted u m op.code p 0) =
    (Prog.modMb u m fun b => { b with
      effects := if op.async then (b.effects.filter (·.1 != p.tag)) ++ [(p.tag, p.target)] else b.effects }).run
        (s.admitted u m op.code p (op.data p)) := by
  have hmap : (s.mb u m).outst.map (fun o => if o.tag == p.tag then { o with need := op.data p } else o) = (s.mb u m).outst :=
    (List.map_congr_left fun o ho => if_neg ((List.any_eq_false.1 hd) o ho)).trans (List.map_id' _)
  rw [admitted_eq, admitted_eq, modMb_accepted, modMb_accepted]
  refine accepted_congr _ ?_
  simp only [List.map_append, hmap]
  simp [outstOf]

/-- A command that starts has its effect from the state in which it begins (R80 to R82). -/
theorem exec_starts {i : Instr} (hi : packetOf i = some (u, m, op.code, p)) (h : s.starts u m op p) :
    exec i s = .next ((Prog.settle u).run ((op.run u m p).run (s.begins u m op p))) := by
  obtain ⟨htake, hturn, ⟨hfence, hord⟩, hop, hok, hstart⟩ := h
  have hheld : (s.mb u m).held = [] := htake.2.2.2.2.1
  rw [exec_packet hi htake, accept_holds op.code hturn hok]
  rw [mbxWork_starts (code := op.code) (op := op) (by simp [hheld]) hop hfence (by
    rw [on_gen_accepted, mb_accepted, hheld]
    exact alone_unblocked _ _ _ hturn.1 hord)]
  rw [modMb_accepted]
  have hadm : s.accepted u m op.code p (fun b => { b with
      waiting := [], outst := b.outst ++ [outstOf op.code p], held := (b.held ++ [(op.code, p)]).filter (·.2.tag != p.tag) }) =
      s.admitted u m op.code p 0 := by
    rw [admitted_eq]
    exact accepted_congr _ (by simp [hheld, outstOf])
  rw [hadm, startCmd_runs hstart, State.begins, Prog.run_both, reserve_admitted hturn.1]

/-- What a command answers is what its effect does. -/
theorem answers_of_run {i : Instr} {f : State → State} (hi : packetOf i = some (u, m, op.code, p)) (hf : ∀ b, (op.run u m p).run b = f b) :
    s.answers u m p i op f := fun h => by rw [exec_starts hi h, hf]

end

section
variable (u : UnitId) (m : Nat) (p : Packet) (b : State)

/-- DISARM_COLLECTOR: a RUNNING collector drains, another is unarmed (R184). -/
theorem disarm_run : (opDisarm.run u m p).run b =
    if (b.fn u (fidCollector (targetInst p.target))).st = .running then
      (Prog.leaves u (targetInst p.target)).run ((Prog.setFn u (fidCollector (targetInst p.target)) fun f =>
        { f with st := .draining, stopper := some (m, p.tag), limit := arg p 0 4, disarm := true }).run b)
    else ((Prog.unarm u (targetInst p.target)).run b).okay u m p := by
  rw [opDisarm, Prog.run_get]
  cases h : (b.fn u (fidCollector (targetInst p.target))).st <;> rfl

/-- SWEEP_FULL: the sweep is scheduled where time is valid; a VTA has no stations (R186). -/
theorem sweepFull_run : (opSweepFull.run u m p).run b = match u with
    | .vta => b.okay .vta m p
    | .htu =>
      let b' : State := { b with hx := { b.hx with sweep := some (m, p.tag, arg p 0 2) } }
      if b.timev .htu = true then b'.modDev .htu fun d =>
        { d with sched := d.sched ++ [{ t := b.sweepInstant .htu, kind := .sweep (arg p 0 2), cmd := none }] }
      else b' := by
  cases u with
  | vta => rfl
  | htu =>
    rw [opSweepFull, Prog.run_get, Prog.run_both, Prog.run_cond]
    rfl

/-- ACK_STREAM: a SEQ that was acknowledged releases nothing (R398). -/
theorem ackStream_old {a : Nat} (hf : Sparse.find (b.dev u).acks (65536 * p.part + arg p 0 2) = some a) (h : serialGt 32 (arg p 4 4) a = false) :
    (opAckStream.run u m p).run b = b.okay u m p := by
  rw [opAckStream, Prog.run_get]
  dsimp only
  rw [if_pos (by rw [hf]; simpa using h), State.okay]

/-- ACK_STREAM of a stream of an HTU that nothing was acknowledged of: the records up to SEQ are released (R398). -/
theorem ackStream_htu (hf : Sparse.find b.h.acks (65536 * p.part + arg p 0 2) = none) : (opAckStream.run .htu m p).run b =
    ({ b with
      free := b.free + 1
      h := { b.h with
        acks := Sparse.put b.h.acks (65536 * p.part + arg p 0 2) (arg p 4 4)
        retain := b.h.retain.filter fun r => !(r.stream == arg p 0 2 && r.part == p.part && serialGe 32 (arg p 4 4) r.seq) }
      } : State).okay .htu m p (Config.freeNat b.free % 2 ^ 32) := by
  rw [opAckStream, Prog.run_get]
  dsimp only [State.dev]
  rw [if_neg (by rw [hf]; exact Bool.false_ne_true), Prog.run_seq_cons, Prog.run_seq_cons, Prog.run_seq_cons, Prog.run_seq_nil, Prog.run_free]
  rfl

end

/-- Settles O16: each of the six commands has its effect from the state in which it begins. -/
theorem collectorCommandsComplete : Obligations.CollectorCommandsComplete := by
  refine ⟨fun s u m p => ⟨answers_of_run rfl fun _ => rfl, answers_of_run rfl fun b => disarm_run u m p b, answers_of_run rfl fun _ => rfl,
    answers_of_run rfl fun b => sweepFull_run u m p b, answers_of_run rfl fun _ => rfl, answers_of_run rfl fun b => ?_⟩,
    fun s m p hf => ackStream_htu m p s hf⟩
  cases hf : Sparse.find (b.dev u).acks (65536 * p.part + arg p 0 2) with
  | none => rfl
  | some a =>
    cases hg : serialGt 32 (arg p 4 4) a with
    | true => exact (if_pos hg).symm
    | false => exact (ackStream_old u m p b hf hg).trans (if_neg (by rw [hg]; exact Bool.false_ne_true)).symm

end Sys2Proof.Machine

end

section

/-! # No command empties the mailboxes of its unit

Only `Prog.modMb` writes the list of mailboxes in use, and what it writes is listed. The lemmas below say so of every program that a command
may come to, a program that a single other one runs being unfolded in that one; those that settling runs without a command say besides that they
count no deferred page. -/

namespace Sys2Proof.Machine

/-- A change that leaves no mailbox list empty that was not, and where `b` is false defers no page of the recorder. -/
def Prog.mailLeaf (b : Bool) : Prog → Prop
  | .dev _ f => ∀ d, d.mbx ≠ [] → (f d).mbx ≠ []
  | .htu f => b = false → ∀ x, (f x).deferred = x.deferred
  | .get _ | .both _ _ => False
  | _ => True

section
variable {b : Bool} {u : UnitId}

@[simp] theorem mailLeaf_wr (f : Fld) (v : Nat) : Prog.mailLeaf b (.wr u f v) := trivial
@[simp] theorem mailLeaf_dev (f : Dev → Dev) : Prog.mailLeaf b (.dev u f) ↔ ∀ d, d.mbx ≠ [] → (f d).mbx ≠ [] := Iff.rfl
@[simp] theorem mailLeaf_htu (f : HtuX → HtuX) : Prog.mailLeaf b (.htu f) ↔ (b = false → ∀ x, (f x).deferred = x.deferred) := Iff.rfl
@[simp] theorem mailLeaf_vta (f : VtaX → VtaX) : Prog.mailLeaf b (.vta f) := trivial
@[simp] theorem mailLeaf_draw : Prog.mailLeaf b .draw := trivial
@[simp] theorem ddr_mail (a : Nat) (l : List Byte) : (Prog.ddr a l).changes (Prog.mailLeaf b) := trivial
@[simp] theorem entity_mail (a : Nat) (l : List Byte) : (Prog.entity a l).changes (Prog.mailLeaf b) := trivial

/-- One program or another. -/
theorem Prog.changes.ite {P : Prog → Prop} {p q : Prog} {c : Prop} [Decidable c] (hp : p.changes P) (hq : q.changes P) :
    (if c then p else q).changes P := (Prog.changes_ite c).2 ⟨fun _ => hp, fun _ => hq⟩

/-- A mailbox that has changed is listed. -/
@[simp] theorem Sparse.mod_ne_nil {α : Type} (d : α) (l : List (Nat × α)) (k : Nat) (f : α → α) : Sparse.mod d l k f ≠ [] := by
  intro h
  have hf := Sparse.find_put_same l k (f (Sparse.get d l k))
  rw [← Sparse.mod, h] at hf
  cases hf

-- small changes

@[simp] theorem free_mail (k : Nat → Prog) (hk : ∀ a, (k a).changes (Prog.mailLeaf true)) : (Prog.free k).changes (Prog.mailLeaf true) := by
  simp [Prog.free, hk]
@[simp] theorem bumpBy_mail (f : Fld) (n : Nat) : (Prog.bumpBy u f n).changes (Prog.mailLeaf b) := by simp [Prog.bumpBy]
@[simp] theorem bump_mail (f : Fld) : (Prog.bump u f).changes (Prog.mailLeaf b) := by simp [Prog.bump]
@[simp] theorem count_mail (f : Fld) (n : Nat) : (Prog.count u f n).changes (Prog.mailLeaf b) := by simp [Prog.count]
@[simp] theorem send_mail (o : Out) : (Prog.send u o).changes (Prog.mailLeaf b) := by simp [Prog.send]
@[simp] theorem irqEdge_mail (m : Nat) (was : State) : (Prog.irqEdge u m was).changes (Prog.mailLeaf b) := by simp [Prog.irqEdge]
@[simp] theorem setFn_mail (fid : Nat) (f : Fn → Fn) : (Prog.setFn u fid f).changes (Prog.mailLeaf b) := by simp [Prog.setFn]
@[simp] theorem modMb_mail (m : Nat) (f : Mbx → Mbx) : (Prog.modMb u m f).changes (Prog.mailLeaf b) := by simp [Prog.modMb]

-- the recorder

@[simp] theorem evr_mail (f : Evr → Evr) : (Prog.evr u f).changes (Prog.mailLeaf b) := by simp [Prog.evr]
@[simp] theorem refill_mail : (Prog.refill u).changes (Prog.mailLeaf b) := by simp [Prog.refill]
@[simp] theorem mbx_programOpen (d : Dev) : (Dev.programOpen u d).mbx = d.mbx := rfl

@[simp] theorem programPage_mail (h : u = .vta ∨ b = true) : (Prog.programPage u).changes (Prog.mailLeaf b) := by
  rcases h with rfl | rfl <;> simp [Prog.programPage]

@[simp] theorem commitEv_mail (h : u = .vta ∨ b = true) (e : EvRec) : (Prog.commitEv u e).changes (Prog.mailLeaf b) := by
  simp [Prog.commitEv, h]

@[simp] theorem event_mail (h : u = .vta ∨ b = true) (typ : Nat) (payload : List Byte) :
    (Prog.event u typ payload).changes (Prog.mailLeaf b) := by
  refine ⟨by simp [Prog.foldEnd, h], fun s => .ite (by simp) ?_⟩
  split <;> simp [h]

-- streams and records

@[simp] theorem modStream_mail (sid : Nat) (f : Stream → Stream) : (Prog.modStream u sid f).changes (Prog.mailLeaf b) := by simp [Prog.modStream]
@[simp] theorem closeSegment_mail (g : Segment) : (Prog.closeSegment g).changes (Prog.mailLeaf b) := by
  simp [Prog.closeSegment, Prog.showEngines, Prog.takeEngine, Prog.compress, Prog.writePages]
@[simp] theorem ether_mail (dst tc n : Nat) (o : Out) : (Prog.ether dst tc n o).changes (Prog.mailLeaf b) := by simp [Prog.ether]
@[simp] theorem ethRec_mail (up : Bool) (tc : Nat) (r : Rec) : (Prog.ethRec up tc r).changes (Prog.mailLeaf b) := by simp [Prog.ethRec]
@[simp] theorem deliver_mail (sid svc : Nat) (st : Stream) (r : Rec) : (Prog.deliver u sid svc st r).changes (Prog.mailLeaf b) := by
  cases u <;> simp [Prog.deliver, Prog.archive, Prog.hostRing, Prog.uplink]

@[simp] theorem put_mail (sid : Nat) (r : Rec) (svc : Option Nat) : (Prog.put u sid r svc).changes (Prog.mailLeaf b) := by simp [Prog.put]
@[simp] theorem closeChain_mail (sid : Nat) : (Prog.closeChain u sid).changes (Prog.mailLeaf b) := by simp [Prog.closeChain]
@[simp] theorem closeFull_mail (sid : Nat) : (Prog.closeFull u sid).changes (Prog.mailLeaf b) := by simp [Prog.closeFull]
@[simp] theorem flushLoss_mail (sid : Nat) : (Prog.flushLoss u sid).changes (Prog.mailLeaf b) := by simp [Prog.flushLoss]
@[simp] theorem emitSvc_mail (sid : Nat) (svc t : Option Nat) (edit : Rec → Rec) : (Prog.emitSvc u sid svc t edit).changes (Prog.mailLeaf true) := by
  simp [Prog.emitSvc, Prog.putNext, Prog.dropRecs]
@[simp] theorem emitAt_mail (sid : Nat) (t : Option Nat) (edit : Rec → Rec) : (Prog.emitAt u sid t edit).changes (Prog.mailLeaf true) := by
  simp [Prog.emitAt]
@[simp] theorem emit_mail (sid typ : Nat) (payload : List Byte) : (Prog.emit u sid typ payload).changes (Prog.mailLeaf true) := by simp [Prog.emit]
@[simp] theorem openStream_mail (sid : Nat) (st : Stream) : (Prog.openStream u sid st).changes (Prog.mailLeaf true) := by simp [Prog.openStream]
@[simp] theorem closeStream_mail (sid : Nat) : (Prog.closeStream u sid).changes (Prog.mailLeaf b) := by simp [Prog.closeStream]

-- mailboxes and messages

@[simp] theorem emitReg_mail (valid stream : Fld) (typ : Nat) (payload : List Byte) :
    (Prog.emitReg u valid stream typ payload).changes (Prog.mailLeaf true) := by simp [Prog.emitReg]
@[simp] theorem msix_mail (n : Nat) : (Prog.msix n).changes (Prog.mailLeaf b) := by simp [Prog.msix]
@[simp] theorem mbxIrq_mail (m bit : Nat) : (Prog.mbxIrq u m bit).changes (Prog.mailLeaf b) := by simp [Prog.mbxIrq]
@[simp] theorem mbxErr_mail (m : Nat) (f : Fld) : (Prog.mbxErr u m f).changes (Prog.mailLeaf true) := by simp [Prog.mbxErr]
@[simp] theorem sendPkt_mail (c vc : Nat) (bytes : List Byte) : (Prog.sendPkt u c vc bytes).changes (Prog.mailLeaf b) := by simp [Prog.sendPkt]
@[simp] theorem reply_mail (m : Nat) (tag : BitVec 16) (a : Ans) : (Prog.reply u m tag a).changes (Prog.mailLeaf b) := by
  simp [Prog.reply, Prog.postReply]
@[simp] theorem answer_mail (c : Option (Nat × BitVec 16)) (a : Ans) : (Prog.answer u c a).changes (Prog.mailLeaf b) := by simp [Prog.answer]
@[simp] theorem measure_mail (index : Nat) (v : BitVec 384) : (Prog.measure u index v).changes (Prog.mailLeaf true) := by simp [Prog.measure]

-- instants, generators and ports

@[simp] theorem schedule_mail (e : Sched) : (Prog.schedule u e).changes (Prog.mailLeaf true) := by simp [Prog.schedule]
@[simp] theorem unschedule_mail (e : Sched) : (Prog.unschedule u e).changes (Prog.mailLeaf b) := by simp [Prog.unschedule]
@[simp] theorem acted_mail (t : Nat) : (Prog.acted u t).changes (Prog.mailLeaf true) := by simp [Prog.acted]
@[simp] theorem armSnap_mail (g : Nat) : (Prog.armSnap u g).changes (Prog.mailLeaf true) := by simp [Prog.armSnap]
@[simp] theorem dropSnap_mail (g : Nat) : (Prog.dropSnap u g).changes (Prog.mailLeaf true) := by simp [Prog.dropSnap]
@[simp] theorem idleGen_mail (g : Nat) : (Prog.idleGen u g).changes (Prog.mailLeaf true) := by simp [Prog.idleGen]
@[simp] theorem advanceGen_mail (g n : Nat) : (Prog.advanceGen u g n).changes (Prog.mailLeaf true) := by simp [Prog.advanceGen]
@[simp] theorem forward_mail (c opcode : Nat) (p : Packet) (cmd : Option (Nat × BitVec 16)) :
    (Prog.forward u c opcode p cmd).changes (Prog.mailLeaf true) := by simp [Prog.forward]
@[simp] theorem modPort_mail (k : Nat) (f : Port → Port) : (Prog.modPort u k f).changes (Prog.mailLeaf true) := by simp [Prog.modPort]
@[simp] theorem planSwitch_mail (k : Nat) : (Prog.planSwitch u k).changes (Prog.mailLeaf true) := by
  cases u <;> simp [Prog.planSwitch]

-- trace

@[simp] theorem trace_mail (f : Trace → Trace) : (Prog.trace u f).changes (Prog.mailLeaf true) := by simp [Prog.trace]
@[simp] theorem openChunk_mail : (Prog.openChunk u).changes (Prog.mailLeaf true) := by simp [Prog.openChunk]
@[simp] theorem closeChunk_mail : (Prog.closeChunk u).changes (Prog.mailLeaf true) := by simp [Prog.closeChunk]
@[simp] theorem addPkt_mail (src typ tag : Nat) (words : List Word) : (Prog.addPkt u src typ tag words).changes (Prog.mailLeaf true) := by
  simp [Prog.addPkt]
@[simp] theorem traceHold_mail : (Prog.traceHold u).changes (Prog.mailLeaf true) := by simp [Prog.traceHold]
@[simp] theorem writePkt_mail (src typ tag : Nat) (words : List Word) : (Prog.writePkt u src typ tag words).changes (Prog.mailLeaf true) := by
  simp [Prog.writePkt]
@[simp] theorem trigger_mail (cause : Nat) : (Prog.trigger u cause).changes (Prog.mailLeaf true) := by simp [Prog.trigger]
@[simp] theorem traceData_mail (src tag : Nat) (w : Word) : (Prog.traceData u src tag w).changes (Prog.mailLeaf true) := by
  simp [Prog.traceData, Prog.loseWord]
@[simp] theorem traceStart_mail (part role : Nat) : (Prog.traceStart u part role).changes (Prog.mailLeaf true) := by simp [Prog.traceStart]

-- stations and their map

@[simp] theorem modStation_mail (n : Nat) (f : Station → Station) : (Prog.modStation n f).changes (Prog.mailLeaf b) := by simp [Prog.modStation]
@[simp] theorem carry_mail (n sl : Nat) (v : BitVec 40) : (Prog.carry n sl v).changes (Prog.mailLeaf true) := by simp [Prog.carry]
@[simp] theorem carryAll_mail (n : Nat) : (Prog.carryAll n).changes (Prog.mailLeaf true) := by simp [Prog.carryAll]
@[simp] theorem setSlice_mail (n sl code : Nat) : (Prog.setSlice n sl code).changes (Prog.mailLeaf b) := by simp [Prog.setSlice]
@[simp] theorem mapCommit_mail (immediate : Bool) : (Prog.mapCommit immediate).changes (Prog.mailLeaf true) := by
  refine fun s => ⟨trivial, .ite trivial (.ite ⟨trivial, trivial⟩ (.ite ⟨trivial, trivial⟩ (.ite ⟨trivial, trivial⟩ ?_)))⟩
  split
  · exact ⟨⟨trivial, trivial⟩, trivial⟩
  · simp [Prog.mapApply, Prog.showAbsent]

-- collectors

@[simp] theorem showBudget_mail : (Prog.showBudget u).changes (Prog.mailLeaf b) := by simp [Prog.showBudget]
@[simp] theorem modColl_mail (cn : Nat) (f : Coll → Coll) : (Prog.modColl u cn f).changes (Prog.mailLeaf b) := by simp [Prog.modColl]
@[simp] theorem announce_mail (leave : Bool) (cn ep : Nat) : (Prog.announce u leave cn ep).changes (Prog.mailLeaf b) := by
  cases u <;> simp [Prog.announce]

@[simp] theorem computeDigest_mail (cn op : Nat) (sels : List Sel) : (Prog.computeDigest u cn op sels).changes (Prog.mailLeaf true) := by
  simp [Prog.computeDigest]
@[simp] theorem releaseColl_mail (cn : Nat) : (Prog.releaseColl u cn).changes (Prog.mailLeaf b) := by simp [Prog.releaseColl, Prog.releaseSlices]
@[simp] theorem unarm_mail (cn : Nat) : (Prog.unarm u cn).changes (Prog.mailLeaf b) := by simp [Prog.unarm]
@[simp] theorem arm_mail (part role m : Nat) (gorse : Bool) (p : Packet) (cmd : Option (Nat × BitVec 16)) :
    (Prog.arm u part role m gorse p cmd).changes (Prog.mailLeaf true) := by simp [Prog.arm]
@[simp] theorem joins_mail (cn t : Nat) : (Prog.joins u cn t).changes (Prog.mailLeaf b) := by simp [Prog.joins]
@[simp] theorem leaves_mail (cn : Nat) : (Prog.leaves u cn).changes (Prog.mailLeaf b) := fun _ => announce_mail _ _ _

@[simp] theorem joinReady_mail : (Prog.joinReady u).changes (Prog.mailLeaf b) := by simp [Prog.joinReady]
@[simp] theorem nextPeriod_mail (e : Sched) : (Prog.nextPeriod u e).changes (Prog.mailLeaf true) := by
  intro s
  dsimp only
  split <;> simp

@[simp] theorem captureAt_mail (t : Nat) : (Prog.captureAt u t).changes (Prog.mailLeaf true) := by
  cases u <;> simp [Prog.captureAt, Prog.hedgeBusy, Prog.takeInstant, Prog.sampleColl, Prog.sampleRecords, Prog.openMerge]

@[simp] theorem forwardBelow_mail (opcode : Nat) (p : Packet) (scopeAt : Nat) (mask : Level → Word) (below : List Byte → List Byte) :
    (Prog.forwardBelow opcode p scopeAt mask below).changes (Prog.mailLeaf true) := by simp [Prog.forwardBelow]

-- power, dumps and steps

@[simp] theorem markCap_mail : Prog.markCap.changes (Prog.mailLeaf true) := by simp [Prog.markCap]
@[simp] theorem sequence_mail : Prog.sequence.changes (Prog.mailLeaf true) := by simp [Prog.sequence]
@[simp] theorem sendBudget_mail (port mw : Nat) : (Prog.sendBudget port mw).changes (Prog.mailLeaf true) := by simp [Prog.sendBudget]
@[simp] theorem startDumps_mail : Prog.startDumps.changes (Prog.mailLeaf true) := by simp [Prog.startDumps, Prog.modDump]
@[simp] theorem modCtx_mail (no : Nat) (f : StepCtx → StepCtx) : (Prog.modCtx no f).changes (Prog.mailLeaf true) := by simp [Prog.modCtx]
@[simp] theorem sntRec_mail (typ : Nat) (step : BitVec 32) (t : Option Nat) (payload : List Byte) :
    (Prog.sntRec typ step t payload).changes (Prog.mailLeaf true) := by simp [Prog.sntRec]
@[simp] theorem sendNotice_mail (c : Nat) (r : Rec) : (Prog.sendNotice u c r).changes (Prog.mailLeaf true) := by simp [Prog.sendNotice]
@[simp] theorem replayLost_mail (step : BitVec 32) (reason : Nat) : (Prog.replayLost step reason).changes (Prog.mailLeaf true) := by
  simp [Prog.replayLost]
@[simp] theorem drain_mail (why : Nat) : (Prog.drain why).changes (Prog.mailLeaf true) := by simp [Prog.drain]
@[simp] theorem finalRecords_mail (no : Nat) : (Prog.finalRecords no).changes (Prog.mailLeaf true) := by simp [Prog.finalRecords]
@[simp] theorem sendArrival_mail (no : Nat) : (Prog.sendArrival no).changes (Prog.mailLeaf true) := by simp [Prog.sendArrival]
@[simp] theorem releaseStep_mail (no : Nat) (clean : Bool) : (Prog.releaseStep no clean).changes (Prog.mailLeaf true) := by
  simp [Prog.releaseStep, Prog.release]
@[simp] theorem finalise_mail (no : Nat) : (Prog.finalise no).changes (Prog.mailLeaf true) := by
  simp [Prog.finalise, Prog.pushReplay, Prog.pulseReplay, Prog.replayReq, Prog.present]
@[simp] theorem closeStep_mail (no : Nat) : (Prog.closeStep no).changes (Prog.mailLeaf true) := by
  simp [Prog.closeStep, Prog.dumpClose, Prog.engineFault, Prog.enterVerdict, Prog.dualSkew, Prog.tryFinal]
@[simp] theorem takeCtx_mail : Prog.takeCtx.changes (Prog.mailLeaf true) := by
  refine fun s => (Prog.changes_cond _).2 fun _ => ?_
  split <;> simp

-- digests and members

@[simp] theorem sentinelSet_mail (p : Packet) : (Prog.sentinelSet p).changes (Prog.mailLeaf true) := by simp [Prog.sentinelSet]
@[simp] theorem digestReply_mail (cmd : Option (Nat × BitVec 16)) (ep : Nat) (p : Part) :
    (Prog.digestReply u cmd ep p).changes (Prog.mailLeaf true) := by
  cases u <;> simp [Prog.digestReply]

@[simp] theorem captured_mail (t : Nat) (e : Sched) : (Prog.captured u t e).changes (Prog.mailLeaf true) := by
  rw [Prog.captured]
  split
  · cases u <;> simp [Prog.openDigest]
  · simp
  · simp

@[simp] theorem showMembers_mail : Prog.showMembers.changes (Prog.mailLeaf true) := by simp [Prog.showMembers]
@[simp] theorem memberRec_mail (l : Level) (k : SheafKey) (leave : Bool) (cause input ep : Nat) :
    (Prog.memberRec l k leave cause input ep).changes (Prog.mailLeaf true) := by simp [Prog.memberRec]
@[simp] theorem inputGone_mail (l : Level) (input cause : Nat) : (Prog.inputGone l input cause).changes (Prog.mailLeaf true) := by
  simp [Prog.inputGone, Prog.modMerges]

-- jobs, verdicts and engines

@[simp] theorem verdictRec_mail (typ : Nat) (payload : List Byte) : (Prog.verdictRec typ payload).changes (Prog.mailLeaf true) := by
  simp [Prog.verdictRec]
@[simp] theorem endJob_mail (cause origin : Nat) : (Prog.endJob u cause origin).changes (Prog.mailLeaf true) := by
  cases u <;> simp [Prog.endJob, Prog.abortDumps, Prog.endSteps, Prog.endStep]

@[simp] theorem showBudgetDay_mail : Prog.showBudgetDay.changes (Prog.mailLeaf true) := by simp [Prog.showBudgetDay]
@[simp] theorem verdictRecord_mail (k old cause flags : Nat) : (Prog.verdictRecord k old cause flags).changes (Prog.mailLeaf true) := by
  simp [Prog.verdictRecord]
@[simp] theorem setVerdict_mail (k new cause flags : Nat) : (Prog.setVerdict k new cause flags).changes (Prog.mailLeaf true) := by
  simp [Prog.setVerdict]
@[simp] theorem tellDie_mail (k opcode action : Nat) : (Prog.tellDie k opcode action).changes (Prog.mailLeaf true) := by simp [Prog.tellDie]
@[simp] theorem probation_mail (k cause flags : Nat) : (Prog.probation k cause flags).changes (Prog.mailLeaf true) := by simp [Prog.probation]
@[simp] theorem showSlot_mail (n : Nat) : (Prog.showSlot n).changes (Prog.mailLeaf true) := by simp [Prog.showSlot]
@[simp] theorem showBanks_mail : Prog.showBanks.changes (Prog.mailLeaf true) := by simp [Prog.showBanks]
@[simp] theorem plannedLeave_mail (k : Nat) : (Prog.plannedLeave u k).changes (Prog.mailLeaf true) := by
  cases u <;> simp [Prog.plannedLeave]

-- registers and mailbox words

@[simp] theorem unbind_mail (m : Nat) : (Prog.unbind u m).changes (Prog.mailLeaf true) := by simp [Prog.unbind]
@[simp] theorem retireCore_mail (p : Nat) : (Prog.retireCore p).changes (Prog.mailLeaf true) := by
  refine fun s => ⟨trivial, .ite trivial ?_⟩
  split <;> simp

@[simp] theorem flushLog_mail (n : Nat) : (Prog.flushLog u n).changes (Prog.mailLeaf true) := by
  induction n with
  | zero => trivial
  | succ n ih => simp [Prog.flushLog, ih]

@[simp] theorem misaligned_mail (a : Agent) (off size : Nat) (write : Bool) : (Prog.misaligned u a off size write).changes (Prog.mailLeaf true) := by
  simp [Prog.misaligned]
/-- The words of a commit join the queue of their mailbox, or are counted (R69, R70). -/
theorem framed_mail (s : State) (m : Nat) (words : List Word) : (match s.framed u m words with
    | some p => Prog.modMb u m fun b => { b with waiting := b.waiting ++ [p] }
    | none => Prog.mbxErr u m (Reg.MBX_ERR_FRAMING m)).changes (Prog.mailLeaf true) := by
  split <;> simp

@[simp] theorem doorbell_mail (m : Nat) (a : Agent) : (Prog.doorbell u m a).changes (Prog.mailLeaf true) := by
  refine fun s => (Prog.changes_cond _).2 fun _ => ⟨modMb_mail _ _, .ite (mbxErr_mail _ _) (.ite (mbxErr_mail _ _) (.ite ?_ (framed_mail _ _ _)))⟩
  split
  · exact framed_mail _ _ _
  · exact unbind_mail _

@[simp] theorem rspRead_mail (m : Nat) (a : Agent) : (Prog.rspRead u m a).changes (Prog.mailLeaf true) := by
  refine fun s => .ite (by simp) ?_
  split <;> simp

@[simp] theorem readReg_mail (a : Agent) (off : Nat) (wide : Bool) : (Prog.readReg u a off wide).changes (Prog.mailLeaf true) := by
  refine fun s => .ite (misaligned_mail _ _ _ _) (.ite (by simp) (.ite (by simp) (.ite (by simp [Prog.readNow]) ?_)))
  split <;> simp [Prog.afterRead, Prog.replayPop]

/-- What a write of a mailbox register sets off (R69, R74). -/
theorem mbxWrite_mail (a : Agent) (off m : Nat) (mask data : Word) (was : State) : (match off % 256 with
    | 0 => Prog.reqWrite u m a (data &&& mask)
    | 8 => Prog.cond (data.getLsbD 0 && mask.getLsbD 0) (.doorbell u m a)
    | 0x20 => Prog.both (.genSelect u m was) (.irqEdge u m was)
    | 0x28 => Prog.irqEdge u m was
    | _ => Prog.skip).changes (Prog.mailLeaf true) := by
  split <;> simp [Prog.reqWrite, Prog.genSelect]

@[simp] theorem setSrcPref_mail (v : Nat) : (Prog.setSrcPref u v).changes (Prog.mailLeaf true) := by
  simp [Prog.setSrcPref, Prog.enterFree, Prog.timeValid]

@[simp] theorem afterWrite_mail (a : Agent) (off : Nat) (mask data : Word) (was : State) :
    (Prog.afterWrite u a off mask data was).changes (Prog.mailLeaf true) := by
  refine ⟨by simp [Prog.streamWrites], ?_⟩
  split
  · exact .ite (mbxWrite_mail _ _ _ _ _ _) (by simp)
  · simp [Prog.keyLoaded, Prog.digInvalid]
  · simp
  · simp [Prog.dumpHalt]
  · simp
  · simp [Prog.memDistWritten, Prog.ceilings, Prog.fuseLimit]
  · simp [Prog.periodWritten]
  · simp
  · simp

@[simp] theorem storeWord_mail (a : Agent) (off size : Nat) (mask data : Word) :
    (Prog.storeWord u a off size mask data).changes (Prog.mailLeaf true) := by simp [Prog.storeWord]

@[simp] theorem writeReg_mail (a : Agent) (off : Nat) (wide : Bool) (v : Word) : (Prog.writeReg u a off wide v).changes (Prog.mailLeaf true) := by
  refine fun s => .ite (misaligned_mail _ _ _ _) (.ite trivial ⟨by simp [Prog.dropLow], .ite (storeWord_mail _ _ _ _ _) (.ite ?_ (by simp))⟩)
  split <;> simp

-- functions and policy

@[simp] theorem startFn_mail (fid role : Nat) : (Prog.startFn u fid role).changes (Prog.mailLeaf true) := by
  rw [Prog.startFn]
  split <;> simp [Prog.startColl, Prog.startSentinel]

@[simp] theorem beginDrain_mail (fid : Nat) : (Prog.beginDrain u fid).changes (Prog.mailLeaf true) := by
  rw [Prog.beginDrain]
  split <;> simp [Prog.traceStop, Prog.stopped]

@[simp] theorem writeEntries_mail (m : Nat) (p : Packet) (i n : Nat) : (Prog.writeEntries u m p i n).changes (Prog.mailLeaf true) := by
  induction n generalizing i with
  | zero => exact reply_mail _ _ _
  | succ n ih =>
    intro s
    dsimp only
    split <;> simp [ih]

@[simp] theorem readEntries_mail (m : Nat) (p : Packet) (i n : Nat) (out : List Byte) :
    (Prog.readEntries u m p i n out).changes (Prog.mailLeaf true) := by
  induction n generalizing i out with
  | zero => exact reply_mail _ _ _
  | succ n ih => exact ⟨readReg_mail _ _ _, fun _ => ih _ _⟩

@[simp] theorem markGap_mail (sid : Nat) : (Prog.markGap u sid).changes (Prog.mailLeaf true) := by simp [Prog.markGap]
@[simp] theorem assignClusters_mail (parts : List Nat) (ep : Nat) : (Prog.assignClusters parts ep).changes (Prog.mailLeaf true) := by
  simp [Prog.assignClusters]
@[simp] theorem applyPolicy_mail (version ep : Nat) (body : PolicyBody) (image : List Byte) :
    (Prog.applyPolicy u version ep body image).changes (Prog.mailLeaf true) := by
  cases u <;> simp [Prog.applyPolicy, Prog.measureFuses, Prog.policyArm, Prog.policyColls, Prog.policyHtu, Prog.policyVta,
    Prog.dropPartition, Prog.applyPartitions, Prog.passCluster, Prog.vtaStatus, Prog.drained, Prog.halt, Prog.resume]

@[simp] theorem policyPortion_mail (m : Nat) (p : Packet) : (Prog.policyPortion u m p).changes (Prog.mailLeaf true) := by
  refine fun s => .ite (by simp) (.ite (by simp) ⟨by simp, ?_⟩)
  split <;> simp [Prog.acceptPolicy]

-- what a unit does by itself

@[simp] theorem passedOver_mail : (Prog.passedOver u).changes (Prog.mailLeaf b) := by
  refine fun s => ⟨by simp, (Prog.changes_each _ _).2 fun e _ => ?_⟩
  split <;> simp [Prog.jobMissed]

end

end Sys2Proof.Machine

end

section

/-! # The mailboxes of a unit that settles -/

namespace Sys2Proof.Machine

section
variable (u : UnitId) (m : Nat) (p : Packet)

theorem opStop_mail : (opStop.run u m p).changes (Prog.mailLeaf true) := by
  intro s
  dsimp only
  split <;> simp

theorem opDisarm_mail : (opDisarm.run u m p).changes (Prog.mailLeaf true) := by
  intro s
  dsimp only
  split <;> simp

theorem opScoreRun_mail : (opScoreRun.run u m p).changes (Prog.mailLeaf true) := by
  intro s
  dsimp only
  split <;> simp [Prog.scoreCounts]

theorem opPulseCancel_mail : (opPulseCancel.run u m p).changes (Prog.mailLeaf true) := by
  intro s
  dsimp only
  split <;> simp [Prog.skipFirings, Prog.capture, Prog.pulseRec, Prog.pulseFiring]

theorem opSweepFull_mail : (opSweepFull.run u m p).changes (Prog.mailLeaf true) := by
  cases u <;> simp [opSweepFull]

theorem opAckStream_mail : (opAckStream.run u m p).changes (Prog.mailLeaf true) := by
  refine fun s => .ite (reply_mail _ _ _) ?_
  cases u <;> simp

theorem opStartAt_mail : (opStartAt.run u m p).changes (Prog.mailLeaf true) := by
  cases u <;> simp [opStartAt]

theorem opQuarantine_mail : (opQuarantine.run u m p).changes (Prog.mailLeaf true) := by
  cases u <;> simp [opQuarantine, Prog.rootAbort, Prog.abortDecide, Prog.cutDie, Prog.quarantine, Prog.spent, Prog.quarHtu]

theorem opProbation_mail : (opProbation.run u m p).changes (Prog.mailLeaf true) := by
  cases u <;> simp [opProbation, Prog.healthy, Prog.probHtu]

theorem opLeaseRenew_mail : (opLeaseRenew.run u m p).changes (Prog.mailLeaf true) := by
  cases u <;> simp [opLeaseRenew, Prog.renewLease, Prog.leaseVta]

theorem opTreeLoad_mail : (opTreeLoad.run u m p).changes (Prog.mailLeaf true) := by
  refine fun s => ⟨by simp [Prog.emptySlot], fun _ => ?_⟩
  dsimp only
  split <;> simp

theorem opBudgetShift_mail : (opBudgetShift.run u m p).changes (Prog.mailLeaf true) := by
  cases u with
  | htu => simp [opBudgetShift]
  | vta =>
    intro s
    dsimp only
    split <;> simp [Prog.startMove]

theorem opRetire_mail : (opRetire.run u m p).changes (Prog.mailLeaf true) := by
  refine fun s => .ite (reply_mail _ _ _) ⟨?_, reply_mail _ _ _⟩
  split <;> simp [Prog.retireArray]

/-- What a command does leaves its unit with the mailboxes that are in use. -/
theorem ops_mail : ∀ op ∈ ops, (op.run u m p).changes (Prog.mailLeaf true) := by
  simp only [ops, List.forall_mem_append, List.forall_mem_cons, List.not_mem_nil, false_implies, implies_true, and_true]
  refine ⟨⟨by simp [opNop],
    by simp [opIdent],
    by simp [opFence],
    opStop_mail u m p,
    by simp [opStart],
    by simp [opConfigWrite],
    by simp [opConfigRead],
    by simp [opArmCollector],
    opDisarm_mail u m p,
    by simp [opSnapshotAt],
    opSweepFull_mail u m p,
    by simp [opReadStream],
    opAckStream_mail u m p,
    by simp [opTimeStatus],
    by simp [opPulseProgram],
    opPulseCancel_mail u m p,
    by simp [opSentinelConfig],
    by simp [opStepOpen, Prog.powerStepOpen, Prog.dumpOpen, Prog.dieArrived, Prog.nextMode, Prog.openStep],
    by simp [opStepClose],
    by simp [opDigestCompare],
    by simp [opSelftest, Prog.showLanes]⟩,
    opTreeLoad_mail u m p,
    by simp [opFeatureLoad],
    opScoreRun_mail u m p,
    by simp [opModelSwap],
    by simp [opPowerCap],
    opBudgetShift_mail u m p,
    by simp [opStagger],
    opStartAt_mail u m p,
    by simp [opTraceArm],
    by simp [opTraceTrigger],
    by simp [opTensorDump],
    by simp [opCompressFlush],
    by simp [opLogRead],
    by simp [opLogMark],
    by simp [opScrubRange],
    opRetire_mail u m p,
    by simp [opAttest, Prog.spdmAgain, Prog.spdmGo, Prog.respond],
    by simp [opPolicyLoad],
    by simp [opKeyRotate],
    opQuarantine_mail u m p,
    opProbation_mail u m p,
    opLeaseRenew_mail u m p,
    by simp [opPortHotplug, Prog.control, Prog.addEnergy, Prog.modConn, Prog.repath, Prog.repathAll, Prog.portLeaves, Prog.linkEnergy, Prog.depart,
      Prog.removePort],
    by simp [opAbortJob]⟩

/-- A command that starts. -/
theorem startCmd_mail {op : Op} (h : op ∈ ops) : (Prog.startCmd u m op p).changes (Prog.mailLeaf true) := by
  intro s
  dsimp only
  split
  · exact reply_mail _ _ _
  · simp [ops_mail u m p op h]

theorem startHeld_mail (code : Nat) : (Prog.startHeld u m code p).changes (Prog.mailLeaf true) :=
  ⟨modMb_mail _ _, (Prog.changes_opt _ _).2 fun _ ho => startCmd_mail u m p (List.mem_of_find?_eq_some ho)⟩

/-- A packet that is taken (R80). -/
theorem accept_mail (code : Nat) : (Prog.accept u m code p).changes (Prog.mailLeaf true) := by
  refine fun s => .ite (mbxErr_mail _ _) ?_
  rw [Prog.changes_seq_cons, Prog.changes_seq_cons, Prog.changes_seq_cons]
  refine ⟨(Prog.changes_cond _).2 fun _ => mbxErr_mail _ _, modMb_mail _ _, .ite (reply_mail _ _ _) ⟨trivial, ?_⟩, trivial⟩
  split
  · exact reply_mail _ _ _
  · exact modMb_mail _ _

theorem mbxWork_mail : (Prog.mbxWork u m).changes (Prog.mailLeaf true) := by
  intro s
  dsimp only
  split
  · exact startHeld_mail _ _ _ _
  · split
    · trivial
    · exact (Prog.changes_cond _).2 fun _ => ⟨modMb_mail _ _, accept_mail _ _ _ _⟩

theorem rounds_mail (n : Nat) : (Prog.rounds u n).changes (Prog.mailLeaf true) := by
  induction n with
  | zero => trivial
  | succ n ih => exact ⟨(Prog.changes_each _ _).2 fun _ _ => mbxWork_mail _ _, ih⟩

end

-- what a unit that settles leaves

/-- Mailboxes that are in use stay listed. -/
theorem Prog.changes.mbx_ne_nil {b : Bool} {q : Prog} (h : q.changes (Prog.mailLeaf b)) (w : UnitId) (s : State) (hs : (s.dev w).mbx ≠ []) :
    ((q.run s).dev w).mbx ≠ [] := by
  induction q generalizing s with
  | dev v f => cases v <;> cases w <;> first | exact hs | exact h _ hs
  | get k ih => exact ih s (h s) s hs
  | both p q ihp ihq => exact ihq h.2 _ (ihp h.1 s hs)
  | wr v => cases v <;> cases w <;> exact hs
  | clearRegs v => cases v <;> cases w <;> exact hs
  | _ => cases w <;> exact hs

/-- No page is deferred. -/
theorem Prog.changes.deferred {q : Prog} (h : q.changes (Prog.mailLeaf false)) (s : State) : (q.run s).hx.deferred = s.hx.deferred := by
  refine (h.mono (Q := Prog.htuLeaf HtuX.deferred) fun r hr => ?_).hx s
  cases r with
  | htu f => exact hr rfl
  | get => exact hr
  | both => exact hr
  | _ => trivial

/-- A unit none of whose mailboxes is in use has deferred no page as it settled. -/
theorem settle_deferred (t : State) (h : ((Prog.settle .htu).run t).h.mbx = []) : ((Prog.settle .htu).run t).hx.deferred = t.hx.deferred := by
  rw [Prog.settle, Prog.run_seq_cons, Prog.run_seq_cons, Prog.run_seq_cons, Prog.run_seq_nil, Prog.run_get] at h ⊢
  have hd : ((Prog.joinReady .htu).run ((Prog.passedOver .htu).run t)).hx.deferred = t.hx.deferred :=
    (joinReady_mail.deferred _).trans (passedOver_mail.deferred t)
  generalize (Prog.joinReady .htu).run ((Prog.passedOver .htu).run t) = r at h hd ⊢
  by_cases hr : r.h.mbx = []
  · have hb : r.backlog .htu = 0 := by simp [State.backlog, State.dev, hr]
    rw [hb]
    exact hd
  · exact absurd h ((rounds_mail .htu _).mbx_ne_nil .htu r hr)

/-- A drain that is acknowledged. -/
theorem exec_drainAck (s : State) (h : s.h.inReset = false) : exec .drainAck s = .next ((Prog.thenSettle .htu .drainAcked).run s) :=
  congrArg Host.Outcome.next (Prog.run_up (u := .htu) (p := Prog.thenSettle .htu .drainAcked) (s := s) h)

-- the refutation

/-- An HTU out of reset in brownout hold, its drain requested, and a page of the recorder but for one record staged. -/
def heldDrain : State := { State.reset with
  h := { State.reset.h with
    inReset := false
    evr := { State.reset.h.evr with
      staged := [{ typ := 0, hours := 0, cycles := 0, repeat' := 0, folded := false, deferred := true, retained := false, ext := none
                   payload := zeros 3920 }] } }
  hregs := (State.reset.wr .htu Reg.PWR_STATUS_HOLD 1).hregs
  hx := { State.reset.hx with drainReq := true } }

/-- Its DRAINED event fills the page, whose program the hold defers. -/
theorem heldDrain_defers : ((Prog.thenSettle .htu .drainAcked).run heldDrain).h.mbx = [] ∧
    ((Prog.thenSettle .htu .drainAcked).run heldDrain).hx.deferred = 1 := by decide +kernel

/-- Refutes O47: in a brownout hold the DRAINED event that fills a page of the recorder also counts a deferred flash program, so DRAIN_ACK
changes more of the HTU's own state than its two drain flags, and settling cannot make up for it. -/
theorem not_stepsOpenAndArrive : ¬ Obligations.StepsOpenAndArrive := by
  intro h
  obtain ⟨-, -, -, -, -, -, -, -, -, -, hdrain, -⟩ := h.2 heldDrain rfl
  obtain ⟨t, hrun, hx, -⟩ := hdrain rfl rfl rfl
  have hnext : (Prog.thenSettle .htu .drainAcked).run heldDrain = (Prog.settle .htu).run t := 
    Host.Outcome.next.inj ((exec_drainAck heldDrain rfl).symm.trans hrun)
  obtain ⟨hmbx, hdef⟩ := heldDrain_defers
  rw [hnext] at hmbx hdef
  have hsame := settle_deferred t hmbx
  rw [hdef, hx] at hsame
  exact absurd hsame (by decide)


end Sys2Proof.Machine

end

section

/-! # Every command is a program: O4 -/

namespace Sys2Proof.Machine

/-- No program changes the queue of commands. -/
theorem Prog.run_pending (p : Prog) (s : State) : (p.run s).pending = s.pending := by
  induction p generalizing s with
  | wr => exact State.wr_pending ..
  | clearRegs u => cases u <;> rfl
  | dev => exact State.modDev_pending ..
  | get k ih => exact ih s s
  | both p q ihp ihq => exact (ihq _).trans (ihp s)
  | _ => rfl

/-- No program gives a free value back (log 6). -/
theorem Prog.free_le_run (p : Prog) (s : State) : s.free ≤ (p.run s).free := by
  induction p generalizing s with
  | wr => exact (State.wr_free ..).ge
  | clearRegs u => cases u <;> exact le_rfl
  | dev => exact (State.modDev_free ..).ge
  | draw => exact Nat.le_succ _
  | get k ih => exact ih s s
  | both p q ihp ihq => exact (ihp s).trans (ihq _)
  | _ => exact le_rfl

/-- Every row is a program, under the check that the instances it names exist (log 5). -/
theorem exec_eq_nextIf (i : Instr) (s : State) : ∃ p : Prog, exec i s = Prog.nextIf i.wf p s := by
  cases i <;> exact ⟨_, rfl⟩

/-- Settles O4: a row is a program under the check of its instances, and no primitive change of a program touches the queue of commands or
lowers the count of free values. -/
theorem commandsAnswerAndLeaveTheQueue : Obligations.CommandsAnswerAndLeaveTheQueue := by
  refine ⟨fun i s => ?_, fun i s t h => ?_⟩ <;> obtain ⟨p, hp⟩ := exec_eq_nextIf i s
  · exact ⟨fun hw => ⟨p.run s, by rw [hp, hw, Prog.nextIf_true]⟩, fun hw => by rw [hp, hw, Prog.nextIf_false]⟩
  · rw [hp] at h
    cases hw : i.wf with
    | false => rw [hw, Prog.nextIf_false] at h; cases h
    | true =>
      rw [hw, Prog.nextIf_true] at h
      cases h
      exact ⟨p.run_pending s, p.free_le_run s⟩

end Sys2Proof.Machine

end

section

/-! # Errors that a mailbox counts: O9 -/

namespace Sys2Proof.Machine

section
variable (u : UnitId) (m : Nat) (s : State)

/-- A status bit of a mailbox that rises is seen on its interrupt line and, on a PCIe mailbox, by MSI-X (R68, R431); `was` is the state before. -/
def Prog.irqSignal (u : UnitId) (m bit : Nat) (was : State) : Prog :=
  .both (.irqEdge u m was) (.cond (u == .vta && m < 8 && (was.rd u (Reg.MBX_IRQ_EN_EN m)).testBit bit) (.msix m))

/-- NOTIFY_REPLY rises. -/
theorem run_mbxIrq_notify : (Prog.mbxIrq u m 0).run s = (Prog.irqSignal u m 0 s).run (s.wr u (Reg.MBX_IRQ_STATUS_NOTIFY_REPLY m) 1) := rfl

/-- ERROR rises. -/
theorem run_mbxIrq_error : (Prog.mbxIrq u m 1).run s = (Prog.irqSignal u m 1 s).run (s.wr u (Reg.MBX_IRQ_STATUS_ERROR m) 1) := rfl

/-- What is seen outside writes no register but MSIX_PBA. -/
theorem Prog.irqSignal_keeps (bit : Nat) (was : State) :
    (Prog.irqSignal u m bit was).keeps fun w o => w = .vta ∧ o = Reg.MSIX_PBA_PENDING.off :=
  ⟨Prog.irqEdge_keeps _ _ _, Prog.keeps_cond _ (Prog.msix_keeps m)⟩

/-- NOTIFY_REPLY has risen. -/
theorem rd_mbxIrq_notify : ((Prog.mbxIrq u m 0).run s).rd u (Reg.MBX_IRQ_STATUS_NOTIFY_REPLY m) = 1 := by
  rw [run_mbxIrq_notify, Prog.rd_keeps (Prog.irqSignal_keeps u m 0 s) _
    (by simp only [Reg.MBX_IRQ_STATUS_NOTIFY_REPLY, Reg.MSIX_PBA_PENDING]; omega),
    State.rd_wr_same _ _ _ _ (by simp [Reg.MBX_IRQ_STATUS_NOTIFY_REPLY])]
  rfl

/-- ERROR has risen. -/
theorem rd_mbxIrq_error : ((Prog.mbxIrq u m 1).run s).rd u (Reg.MBX_IRQ_STATUS_ERROR m) = 1 := by
  rw [run_mbxIrq_error, Prog.rd_keeps (Prog.irqSignal_keeps u m 1 s) _
    (by simp only [Reg.MBX_IRQ_STATUS_ERROR, Reg.MSIX_PBA_PENDING]; omega), State.rd_wr_same _ _ _ _ (by simp [Reg.MBX_IRQ_STATUS_ERROR])]
  rfl

/-- A counter of 8 bits that stands in neither register of the interrupt has counted, up to 255 (R74). -/
theorem rd_mbxErr {f : Fld} (hw : f.width = 8) (hl : f.lsb + 8 ≤ 64) (hi : f.off ≠ (Reg.MBX_IRQ_STATUS_ERROR m).off)
    (hp : f.off ≠ Reg.MSIX_PBA_PENDING.off) : ((Prog.mbxErr u m f).run s).rd u f = min 255 (s.rd u f + 1) := by
  rw [Prog.mbxErr, Prog.run_both, Prog.rd_keeps (Prog.mbxIrq_keeps u m 1) f (by tauto), Prog.run_bump,
    State.rd_wr_same _ _ _ _ (by omega), hw, satAdd]
  omega

/-- The counters of a mailbox's errors have 8 bits and stand apart from its interrupt (R74). -/
theorem errorCounter_shape {f : Fld} (hf : f ∈ [Reg.MBX_ERR_FRAMING m, Reg.MBX_ERR_OVERFLOW m, Reg.MBX_ERR_DUP_TAG m,
      Reg.MBX_ERR_EMPTY_READ m, Reg.MBX_ERR2_CLOSED m, Reg.MBX_ERR2_RSVD m]) :
    f.width = 8 ∧ f.lsb + 8 ≤ 64 ∧ f.off ≠ (Reg.MBX_IRQ_STATUS_ERROR m).off ∧ f.off ≠ Reg.MSIX_PBA_PENDING.off := by
  simp only [List.mem_cons, List.not_mem_nil, or_false] at hf
  rcases hf with rfl | rfl | rfl | rfl | rfl | rfl <;> refine ⟨rfl, ?_, ?_, ?_⟩ <;>
    simp only [Reg.MBX_ERR_FRAMING, Reg.MBX_ERR_OVERFLOW, Reg.MBX_ERR_DUP_TAG, Reg.MBX_ERR_EMPTY_READ, Reg.MBX_ERR2_CLOSED,
      Reg.MBX_ERR2_RSVD, Reg.MBX_IRQ_STATUS_ERROR, Reg.MSIX_PBA_PENDING] <;> omega

end

/-- Settles O9: the counter and the ERROR bit are read back, and the frame of `Prog.mbxErr` gives the rest. -/
theorem mailboxErrorsAreCounted : Obligations.MailboxErrorsAreCounted := by
  intro u m s _ f hf
  obtain ⟨hw, hl, hi, hp⟩ := errorCounter_shape m hf
  exact ⟨rd_mbxErr u m s hw hl hi hp, rd_mbxIrq_error u m _, fun n => State.mb_mbxErr ..,
    fun w off h1 h2 => Prog.word_keeps (Prog.mbxErr_keeps u m f) (fun h => h.elim h1 h2) s⟩

end Sys2Proof.Machine

end

section

/-! # Packets that are taken: O12, O10 and O11 -/

namespace Sys2Proof.Machine

/-- Settles O12, by the run of a command that starts. -/
theorem acceptedCommandRunsItsOpcode : Obligations.AcceptedCommandRunsItsOpcode :=
  fun _ _ _ _ _ _ hi h => exec_starts hi h

section
variable {α : Type} {s : State} {u : UnitId} {m : Nat}

/-- A mailbox interrupt leaves what neither a register write nor a word sent changes. -/
theorem Prog.fixes_mbxIrq {g : State → α} (hw : ∀ w f v, (Prog.wr w f v).fixes g) (hs : ∀ w o, (Prog.send w o).fixes g) (u : UnitId)
    (m bit : Nat) : (Prog.mbxIrq u m bit).fixes g := by
  refine Prog.fixes_get fun s => Prog.fixes_seq_cons (hw _ _ _) (Prog.fixes_seq_cons (Prog.fixes_get fun _ => Prog.fixes_cond (hs _ _))
    (Prog.fixes_seq_cons (Prog.fixes_cond (Prog.fixes_get fun _ => ?_)) Prog.fixes_seq_nil))
  exact Prog.fixes_ite (hw _ _ _) (hs _ _)

theorem Prog.fixes_mbxIrq_mb (w : UnitId) (n bit : Nat) : (Prog.mbxIrq w n bit).fixes fun s => s.mb u m :=
  Prog.fixes_mbxIrq (fun _ _ _ _ => State.mb_wr ..) (fun _ _ _ => State.mb_send ..) w n bit

/-- What a mailbox has to do: the commands that it holds and the packets that wait. -/
def State.work (u : UnitId) (m : Nat) (s : State) : List (Nat × Packet) × List (Nat × Packet) := ((s.mb u m).held, (s.mb u m).waiting)

/-- A change of the mailbox that leaves its work. -/
theorem Prog.fixes_modMb_work {f : Mbx → Mbx} (h : ∀ b, (f b).held = b.held ∧ (f b).waiting = b.waiting) :
    (Prog.modMb u m f).fixes (State.work u m) := fun s => by simp [State.work, h]

theorem Prog.fixes_send_work (w : UnitId) (o : Out) : (Prog.send w o).fixes (State.work u m) := fun s => by
  rw [State.work, State.mb_send, State.work]

/-- A reply leaves its mailbox's work, by whatever path it goes (R68, R73). -/
theorem Prog.fixes_postReply_work (o : Outst) (a : Ans) : (Prog.postReply u m o a).fixes (State.work u m) := by
  refine Prog.fixes_get fun s => Prog.fixes_ite (fun t => ?_) (Prog.fixes_ite ?_ (Prog.fixes_modMb_work fun _ => ⟨rfl, rfl⟩))
  · cases u <;> rfl
  · exact Prog.fixes_get fun _ => Prog.fixes_cond (Prog.fixes_send_work _ _)

/-- An answered command leaves its mailbox's work. -/
theorem Prog.fixes_reply_work (tag : BitVec 16) (a : Ans) : (Prog.reply u m tag a).fixes (State.work u m) := by
  refine Prog.fixes_get fun s => Prog.fixes_opt fun o => Prog.fixes_seq_cons (Prog.fixes_cond (Prog.fixes_postReply_work _ _))
    (Prog.fixes_seq_cons (Prog.fixes_modMb_work fun b => ?_) (Prog.fixes_seq_cons (Prog.fixes_cond fun t => ?_) Prog.fixes_seq_nil))
  · split <;> exact ⟨rfl, rfl⟩
  · exact congrArg (fun b : Mbx => (b.held, b.waiting)) (Prog.fixes_mbxIrq_mb u m 0 t)

/-- A mailbox whose work is done before a program that leaves it has none after. -/
theorem mbxWork_of_fixes {q : Prog} (hq : q.fixes (State.work u m)) (h : s.work u m = ([], [])) :
    (Prog.mbxWork u m).run (q.run s) = q.run s := by
  obtain ⟨hh, hw⟩ := Prod.mk.inj ((hq s).trans h)
  exact Prog.mbxWork_idle _ _ _ hh hw

variable {p : Packet} {code : Nat}

/-- A mailbox that can take a packet has no other work once the packet is taken out. -/
theorem work_fetched (h : s.canTake u m p) : (s.fetched u m).work u m = ([], []) := by
  obtain ⟨-, -, -, -, hheld, -⟩ := h
  rw [State.work, mb_fetched, hheld]

theorem work_admitted (need : Nat) : (s.admitted u m code p need).work u m = ([], []) := by
  rw [State.work, admitted_eq, mb_accepted]

/-- A packet whose tag is outstanding is counted (R77). -/
theorem accept_duplicate (h : (s.mb u m).outst.any (·.tag == p.tag) = true) :
    (Prog.accept u m code p).run (s.fetched u m) = (Prog.mbxErr u m (Reg.MBX_ERR_DUP_TAG m)).run (s.fetched u m) := by
  rw [Prog.accept, Prog.run_get, if_pos (by rw [mb_fetched]; exact h)]

/-- A packet whose SEQ is not the one expected is answered so (R78). -/
theorem accept_wrongSeq (hd : (s.mb u m).outst.any (·.tag == p.tag) = false) (hg : s.on u (Reg.MBX_STATUS_GEN m) = false)
    (hs : p.seq.toNat ≠ s.rd u (Reg.MBX_NEXT_SEQ_SEQ m)) : (Prog.accept u m code p).run (s.fetched u m) =
      (Prog.reply u m p.tag { status := stBadParam, detail := 1 }).run ((Prog.modMb u m fun b => { b with outst := b.outst ++ [outstOf code p] }).run
        ((Prog.countRsvd u m code p).run (s.fetched u m))) := by
  have hseq : (!(s.fetched u m).on u (Reg.MBX_STATUS_GEN m) && p.seq.toNat != (s.fetched u m).rd u (Reg.MBX_NEXT_SEQ_SEQ m)) = true := by
    rw [State.fetched, State.on_modMb, State.rd_modMb, hg]
    simpa using hs
  rw [Prog.accept, Prog.run_get, if_neg (by rw [mb_fetched]; simp [hd])]
  dsimp only
  rw [if_pos hseq, Prog.run_seq_cons, Prog.run_seq_cons, Prog.run_seq_cons, Prog.run_seq_nil, Prog.countRsvd, badParam]

/-- A packet that one of checks 2 to 6 refuses is answered so, and its SEQ counts (R78, R80). -/
theorem accept_refuses {a : Ans} (hheld : (s.mb u m).held = []) (hin : s.inTurn u m p) (hr : (s.fetched u m).takeFail u m code p = some a) :
    (Prog.accept u m code p).run (s.fetched u m) = (Prog.reply u m p.tag a).run (s.admitted u m code p 0) := by
  obtain ⟨hdup, hseq⟩ := hin
  have hs : ¬(!(s.fetched u m).on u (Reg.MBX_STATUS_GEN m) && p.seq.toNat != (s.fetched u m).rd u (Reg.MBX_NEXT_SEQ_SEQ m)) = true := by
    rw [State.fetched, State.on_modMb, State.rd_modMb]
    rcases hseq with h | h <;> simp [h]
  have hadm : s.admitted u m code p 0 = s.accepted u m code p fun b => { b with waiting := [], outst := b.outst ++ [outstOf code p] } := by
    rw [admitted_eq]
    exact accepted_congr _ (by simp [hheld, outstOf])
  rw [Prog.accept, Prog.run_get, if_neg (by rw [mb_fetched]; simp [hdup])]
  dsimp only
  rw [if_neg hs, hr, Prog.run_seq_cons, Prog.run_seq_cons, Prog.run_seq_cons, Prog.run_seq_nil, Prog.run_both, Prog.run_wr,
    ← Prog.countRsvd, State.fetched, State.rd_modMb, ← modMb_countRsvd, Prog.modMb_modMb, hadm, State.accepted]

/-- A packet that one of checks 7 to 10 refuses is answered so (R80). -/
theorem startCmd_refuses {op : Op} {a : Ans} (h : s.startFail u m op p = some a) :
    (Prog.startCmd u m op p).run s = (Prog.reply u m p.tag a).run s := by
  rw [Prog.startCmd, Prog.run_get, h]

end

/-- Settles O10: a duplicate is only counted, and leaves its mailbox with no more to do. -/
theorem duplicateTagIsDiscarded : Obligations.DuplicateTagIsDiscarded := by
  intro i s u m code p hi htake hdup
  rw [exec_packet hi htake, accept_duplicate hdup,
    mbxWork_of_fixes (fun t => by rw [State.work, State.mb_mbxErr, State.work]) (work_fetched htake)]

end Sys2Proof.Machine

end

section

/-! # Packets that are refused: O11 and O13 -/

namespace Sys2Proof.Machine

section
variable {s : State} {u : UnitId} {m code : Nat} {op : Op} {p : Packet}

/-- A packet that passes checks 2 to 6 and that nothing holds back comes to start (R80, R81, R85). -/
theorem exec_startCmd {i : Instr} (hi : packetOf i = some (u, m, op.code, p)) (htake : s.canTake u m p) (hin : s.inTurn u m p)
    (hfree : s.unheld u m op.code p) (hop : opOf op.code = some op) (hok : (s.fetched u m).takeFail u m op.code p = none) :
    exec i s = .next ((Prog.settle u).run ((Prog.startCmd u m op p).run (s.admitted u m op.code p 0))) := by
  obtain ⟨-, -, -, -, hheld, -⟩ := id htake
  obtain ⟨hfence, hord⟩ := hfree
  have hadm : (Prog.modMb u m fun b => { b with held := b.held.filter (·.2.tag != p.tag) }).run (s.accepted u m op.code p fun b => { b with
      waiting := [], outst := b.outst ++ [outstOf op.code p], held := b.held ++ [(op.code, p)] }) = s.admitted u m op.code p 0 := by
    rw [modMb_accepted, admitted_eq]
    exact accepted_congr _ (by simp [hheld, outstOf])
  rw [exec_packet hi htake, accept_holds op.code hin hok,
    mbxWork_starts (code := op.code) (op := op) (by simp [hheld]) hop hfence (by
      rw [on_gen_accepted, mb_accepted, hheld]
      exact alone_unblocked _ _ _ hin.1 hord), hadm]

/-- A packet that leaves its mailbox no more work but an answer is answered, and every mailbox settles. -/
theorem exec_answered {i : Instr} {t : State} {a : Ans} (hi : packetOf i = some (u, m, code, p)) (htake : s.canTake u m p)
    (ht : t.work u m = ([], [])) (h : (Prog.accept u m code p).run (s.fetched u m) = (Prog.reply u m p.tag a).run t) :
    exec i s = .next ((Prog.settle u).run ((Prog.reply u m p.tag a).run t)) := by
  rw [exec_packet hi htake, h, mbxWork_of_fixes (Prog.fixes_reply_work _ _) ht]

end

/-- Settles O11, by the check that fails: the SEQ, one of checks 2 to 6 as the packet is taken, one of checks 7 to 10 as its command starts. -/
theorem refusedPackets : Obligations.RefusedPackets := by
  refine ⟨fun i s u m code p hi htake hdup hg hs => ?_, fun i s u m code p a hi htake hin hr => ?_,
    fun i s u m op p a hi htake hin hfree hop hok hr => ?_⟩
  · refine exec_answered hi htake ?_ (accept_wrongSeq hdup hg hs)
    exact (Prog.fixes_modMb_work (f := fun b => { b with outst := b.outst ++ [outstOf code p] }) (fun _ => ⟨rfl, rfl⟩) _).trans
      ((congrArg (fun b : Mbx => (b.held, b.waiting)) (mb_countRsvd code)).trans (work_fetched htake))
  · obtain ⟨-, -, -, -, hheld, -⟩ := id htake
    exact exec_answered hi htake (work_admitted 0) (accept_refuses hheld hin hr)
  · rw [exec_startCmd hi htake hin hfree hop hok, startCmd_refuses hr]

-- the order of the checks

section
variable {s : State} {u : UnitId} {m code : Nat} {op : Op} {p : Packet}

/-- Checks 2 and 3 are passed: the opcode is known on the unit and to the mailbox's framing, and PLEN is one that it accepts (R80). -/
def State.formOk (s : State) (u : UnitId) (m : Nat) (op : Op) (p : Packet) : Prop :=
  op.onUnit u = true ∧ (s.on u (Reg.MBX_STATUS_GEN m) = false ∨ op.v1 = true) ∧
    p.params.length % 8 = 0 ∧ p.params.length ≤ 4096 ∧ op.plen p.params.length = true

/-- Such a packet is judged by what check 4 and those after it say. -/
theorem State.formOk.passes (hf : s.formOk u m op p) : (!op.onUnit u) = false ∧ (s.on u (Reg.MBX_STATUS_GEN m) && !op.v1) = false ∧
    ¬(p.params.length % 8 ≠ 0 ∨ 4096 < p.params.length ∨ (!op.plen p.params.length) = true) := by
  obtain ⟨hu, hg, h8, hl, hp⟩ := hf
  refine ⟨by simp [hu], ?_, by simp [h8, hl, hp]⟩
  rcases hg with h | h <;> simp [h]

/-- Check 4 refuses it where its unit is not ready for the opcode. -/
theorem takeFail_notReady (hop : opOf code = some op) (hf : s.formOk u m op p) (hr : s.opReady u op p = false) :
    s.takeFail u m code p = some { status := stNotReady } := by
  obtain ⟨hu, hg, hl⟩ := hf.passes
  simp only [State.takeFail, hop, hu, hg, if_neg hl, hr]
  rfl

/-- Where the unit is ready, check 5 comes next. -/
theorem takeFail_role {a : Ans} (hop : opOf code = some op) (hf : s.formOk u m op p) (hr : s.opReady u op p = true)
    (ha : s.roleFail u m op p = some a) : s.takeFail u m code p = some a := by
  obtain ⟨hu, hg, hl⟩ := hf.passes
  simp only [State.takeFail, hop, hu, hg, if_neg hl, hr, ha]
  rfl

/-- Where that is passed, the target. -/
theorem takeFail_target (hop : opOf code = some op) (hf : s.formOk u m op p) (hr : s.opReady u op p = true)
    (ha : s.roleFail u m op p = none) (ht : (op.classes.contains (targetClass p.target)
      && validTarget u (targetClass p.target) (targetInst p.target)) = false) : s.takeFail u m code p = some (badParam 3) := by
  obtain ⟨hu, hg, hl⟩ := hf.passes
  simp only [State.takeFail, hop, hu, hg, if_neg hl, hr, ha, ht]
  rfl

/-- A role code that is not defined (R75). -/
theorem roleFail_undefined (h : p.roleN = 0 ∨ 6 < p.roleN) : s.roleFail u m op p = some { status := stDenied, detail := 4 } := by
  simp [State.roleFail, firstBad, h]

/-- A partition that the unit does not hold (R37). -/
theorem roleFail_partition (h1 : 1 ≤ p.roleN) (h6 : p.roleN ≤ 6) (h : s.holds u p.part = false) :
    s.roleFail u m op p = some { status := stDenied } := by
  have hrole : ¬(p.roleN = 0 ∨ 6 < p.roleN) := by omega
  simp [State.roleFail, firstBad, hrole, h]

/-- A role that the mailbox is not granted (R115). -/
theorem roleFail_grant (h1 : 1 ≤ p.roleN) (h6 : p.roleN ≤ 6) (h : s.granted u m p.roleN op.code = false) :
    s.roleFail u m op p = some { status := stDenied } := by
  have hrole : ¬(p.roleN = 0 ∨ 6 < p.roleN) := by omega
  simp [State.roleFail, firstBad, hrole, h]

/-- The opcode table lists an opcode under its code (R96). -/
theorem code_of_opOf (h : opOf code = some op) : op.code = code := by
  simpa using List.find?_some h

end

/-- Settles O13: each answer is that of the first check of `State.takeFail` that fails. -/
theorem checksComeInOrder : Obligations.ChecksComeInOrder := by
  intro s u m code p
  refine ⟨fun hop => by simp [State.takeFail, hop], fun op hop => ⟨fun hu => by simp [State.takeFail, hop, hu],
    fun hu hg hv => by simp [State.takeFail, hop, hu, hg, hv], fun hu hg => ⟨fun hl => ?_, fun h8 hl hp => ?_⟩⟩⟩
  · have hl' : p.params.length % 8 ≠ 0 ∨ 4096 < p.params.length ∨ (!op.plen p.params.length) = true := by simpa using hl
    have hgen : (s.on u (Reg.MBX_STATUS_GEN m) && !op.v1) = false := by rcases hg with h | h <;> simp [h]
    simp only [State.takeFail, hop, hu, hgen, if_pos hl']
    rfl
  · have hf : s.formOk u m op p := ⟨hu, hg, h8, hl, hp⟩
    refine ⟨takeFail_notReady hop hf, fun hr => ⟨fun h => takeFail_role hop hf hr (roleFail_undefined h),
      fun h1 h6 h => takeFail_role hop hf hr (roleFail_partition h1 h6 h), fun h1 h6 _ h => takeFail_role hop hf hr (roleFail_grant h1 h6 ?_),
      takeFail_target hop hf hr⟩⟩
    rwa [code_of_opOf hop]

end Sys2Proof.Machine

end

section

/-! # Fences: O14 -/

namespace Sys2Proof.Machine

section
variable {s : State} {u : UnitId} {m : Nat} {p : Packet}

/-- A fence that alone is held waits for its row (R85). -/
theorem mbxWork_fence {code : Nat} (hh : (s.mb u m).held = [(code, p)]) (hw : (s.mb u m).waiting = []) (hf : isFence code p = true) :
    (Prog.mbxWork u m).run s = s := by
  simp [Prog.mbxWork, hh, hw, hf]

/-- The fence's effects are covered, and it leaves its mailbox's held commands. -/
def Mbx.release (b : Mbx) (p : Packet) : Mbx :=
  { b with effects := b.effects.filter fun e => !covers p.target e.2, held := b.held.filter (·.2.tag != p.tag) }

variable {lost : List (BitVec 16)} {h : Nat × Packet}

/-- The fence that may complete. -/
def State.readyFence (s : State) (u : UnitId) (m : Nat) : Option (Nat × Packet) :=
  (s.mb u m).held.find? fun e => isFence e.1 e.2 && (s.mb u m).unblocked (s.on u (Reg.MBX_STATUS_GEN m)) e.2 && (s.mb u m).fenceDone e.2

/-- A fence that answers (R85, R86). -/
theorem fenceComplete_answers (hr : s.readyFence u m = some h) (ha : h.1 = 0x03 ∨ (s.mb u m).lostOf h.2 lost ≠ []) :
    (Prog.fenceComplete u m lost).run s = (Prog.settle u).run ((Prog.reply u m h.2.tag (fenceAnswer ((s.mb u m).lostOf h.2 lost))).run
      ((Prog.modMb u m (·.release h.2)).run s)) := by
  rw [State.readyFence] at hr
  rw [Prog.fenceComplete, Prog.run_get]
  dsimp only
  rw [hr, Prog.run_opt_some, Prog.run_seq_cons, Prog.run_seq_cons, Prog.run_seq_cons, Prog.run_seq_nil, if_pos ha, Prog.run_both, Prog.modMb_modMb]
  rfl

/-- A command with FENCE_BEFORE that lost no effect starts (R86). -/
theorem fenceComplete_starts {op : Op} (hr : s.readyFence u m = some h) (hc : h.1 ≠ 0x03) (hl : (s.mb u m).lostOf h.2 lost = [])
    (hop : opOf h.1 = some op) : (Prog.fenceComplete u m lost).run s =
      (Prog.settle u).run ((Prog.startCmd u m op h.2).run ((Prog.modMb u m (·.release h.2)).run s)) := by
  rw [State.readyFence] at hr
  rw [Prog.fenceComplete, Prog.run_get]
  dsimp only
  rw [hr, Prog.run_opt_some, Prog.run_seq_cons, Prog.run_seq_cons, Prog.run_seq_cons, Prog.run_seq_nil, if_neg (by simp [hc, hl]), Prog.startHeld,
    Prog.run_both, hop, Prog.run_opt_some, Prog.modMb_modMb]
  rfl

/-- The row FENCE_COMPLETE in a unit out of reset. -/
theorem exec_fenceComplete (hm : m < mbxCount u) (hup : (s.dev u).inReset = false) :
    exec (.fenceComplete u m lost) s = .next ((Prog.fenceComplete u m lost).run s) := by
  change Prog.nextIf (decide (m < mbxCount u)) (.up u (.fenceComplete u m lost)) s = _
  rw [decide_eq_true hm, Prog.nextIf_true, Prog.run_up _ _ _ hup]

end

/-- Settles O14: a FENCE that is taken is held, and the row of a fence that may complete answers it or starts its command. -/
theorem fencesHoldAndComplete : Obligations.FencesHoldAndComplete := by
  refine ⟨fun s u m p htake hin hok => ?_, fun s u m lost h hm hup hr => ⟨fun hc hl => ?_, fun t l hl => ?_, fun hc hl op hop => ?_⟩⟩
  · obtain ⟨-, -, -, -, hheld, -⟩ := id htake
    rw [exec_packet (i := .fence u m p) rfl htake, accept_holds 0x03 hin hok,
      mbxWork_fence (p := p) (code := 0x03) (by simp [hheld]) (by simp) rfl, admitted_eq, modMb_accepted]
    exact congrArg (fun t => Host.Outcome.next ((Prog.settle u).run t)) (accepted_congr _ (by simp [hheld, outstOf]))
  · rw [exec_fenceComplete hm hup, fenceComplete_answers hr (.inl hc), hl]
    rfl
  · rw [exec_fenceComplete hm hup, fenceComplete_answers hr (.inr (by simp [hl])), hl]
    rfl
  · rw [exec_fenceComplete hm hup, fenceComplete_starts hr hc hl hop]
    rfl

end Sys2Proof.Machine

end

section

/-! # General commands: O15 -/

namespace Sys2Proof.Machine

section
variable (s : State) (u : UnitId) (m : Nat) (p : Packet)

/-- START_FUNCTION runs a STOPPED function and leaves a RUNNING one (R91). -/
theorem start_run : (opStart.run u m p).run s =
    (if (s.fn u p.target.toNat).st = .stopped then (Prog.startFn u p.target.toNat p.roleN).run s else s).okay u m p := by
  rw [opStart, Prog.run_get, Prog.run_both, Prog.run_cond, State.okay]
  simp only [beq_iff_eq]

/-- STOP_FUNCTION drains a RUNNING function; another is STOPPED at once (R91). -/
theorem stop_run : (opStop.run u m p).run s =
    if (s.fn u p.target.toNat).st = .running then (Prog.beginDrain u p.target.toNat).run ((Prog.setFn u p.target.toNat fun f =>
      { f with st := .draining, stopper := some (m, p.tag), limit := arg p 0 4 }).run s)
    else ((Prog.cond (p.target.toNat / 4096 == 3) (.showSlot (p.target.toNat % 4096))).run
      ((Prog.setFn u p.target.toNat fun f => { f with st := .stopped }).run s)).okay u m p := by
  rw [opStop, Prog.run_get]
  dsimp only
  cases h : (s.fn u p.target.toNat).st <;> rfl

variable (i n : Nat)

/-- An entry of CONFIG_WRITE that does not fail is written, and the next follows (R94). -/
theorem writeEntries_ok (h : s.entryFail u m p (arg p (16 * i) 4) (arg p (16 * i + 4) 1) (arg p (16 * i + 8) 8) = none) :
    (Prog.writeEntries u m p i (n + 1)).run s = (Prog.writeEntries u m p (i + 1) n).run ((Prog.writeReg u (.entry m) (arg p (16 * i) 4)
      (arg p (16 * i + 4) 1 == 8) (BitVec.ofNat 64 (arg p (16 * i + 8) 8))).run s) := by
  rw [Prog.writeEntries, Prog.run_get]
  dsimp only
  rw [h, Prog.run_both]

/-- One that fails without a DENIED record ends the command with its index (R94). -/
theorem writeEntries_fails {st : Nat}
    (h : s.entryFail u m p (arg p (16 * i) 4) (arg p (16 * i + 4) 1) (arg p (16 * i + 8) 8) = some (st, 0)) :
    (Prog.writeEntries u m p i (n + 1)).run s = (Prog.reply u m p.tag { status := st, detail := i }).run s := by
  rw [Prog.writeEntries, Prog.run_get]
  dsimp only
  rw [h]
  rfl

end

/-- Settles O15: each command has its effect from the state in which it begins, and CONFIG_WRITE and CONFIG_READ take their entries in order. -/
theorem generalCommandsComplete : Obligations.GeneralCommandsComplete := by
  refine ⟨fun s u m p => ⟨answers_of_run rfl fun _ => rfl, answers_of_run rfl fun _ => rfl, answers_of_run rfl fun b => start_run b u m p,
    answers_of_run rfl fun b => stop_run b u m p, answers_of_run rfl fun _ => rfl, answers_of_run rfl fun _ => rfl⟩,
    fun s u m i n p out => ⟨rfl, writeEntries_ok s u m p i n, fun _ => writeEntries_fails s u m p i n, rfl, fun t ht => ?_⟩⟩
  subst ht
  rfl

end Sys2Proof.Machine

end

section

/-! # Words, commits and replies of a mailbox: O7 and O8 -/

namespace Sys2Proof.Machine

section
variable {s : State} {u : UnitId} {m : Nat} (a : Agent)

/-- A row of a mailbox whose registers answer (R59, R68). -/
theorem nextIf_ready {p : Prog} (hm : m < mbxCount u) (hb : s.blockReady u 0x1000 = true) :
    Prog.nextIf (decide (m < mbxCount u)) (.ready u 0x1000 p) s = .next (p.run s) := by
  rw [nextIf_of hm, Prog.next, Prog.ready, Prog.run_get, hb, Prog.run_cond_true]

/-- The row MBX_REQ_WRITE. -/
theorem exec_mbxReqWrite (w : Word) (hm : m < mbxCount u) (hb : s.blockReady u 0x1000 = true) :
    exec (.mbxReqWrite u m a w) s = .next ((Prog.reqWrite u m a w).run ((Prog.dropLow u a).run s)) :=
  nextIf_ready hm hb

/-- The row MBX_DOORBELL. -/
theorem exec_mbxDoorbell (hm : m < mbxCount u) (hb : s.blockReady u 0x1000 = true) :
    exec (.mbxDoorbell u m a) s = .next ((Prog.settle u).run ((Prog.doorbell u m a).run ((Prog.dropLow u a).run s))) :=
  nextIf_ready hm hb

/-- The row MBX_RSP_READ. -/
theorem exec_mbxRspRead (hm : m < mbxCount u) (hb : s.blockReady u 0x1000 = true) :
    exec (.mbxRspRead u m a) s = .next ((Prog.rspRead u m a).run s) :=
  nextIf_ready hm hb

-- words

variable {a}

/-- A word of the mailbox's agent joins those of its packet, or marks it lost (R70). -/
theorem reqWrite_agent (w : Word) (ha : mbxAgent u m = some (agentActs u a)) (ho : s.on u (Reg.MBX_STATUS_OPEN m) = true) :
    (Prog.reqWrite u m a w).run s = (Prog.modMb u m fun b =>
      if s.reqFree u m = 0 then { b with spilled := true } else { b with words := b.words ++ [w] }).run s := by
  rw [Prog.reqWrite, Prog.run_get, ha, ho, beq_self_eq_true, Bool.and_self, Prog.run_cond_true]
  split <;> rfl

/-- A word of another agent, or for a closed mailbox, is not stored (R74). -/
theorem reqWrite_other (w : Word) (h : ¬(mbxAgent u m = some (agentActs u a) ∧ s.on u (Reg.MBX_STATUS_OPEN m) = true)) :
    (Prog.reqWrite u m a w).run s = s := by
  rw [Prog.reqWrite, Prog.run_get, show (mbxAgent u m == some (agentActs u a) && s.on u (Reg.MBX_STATUS_OPEN m)) = false by simpa using h,
    Prog.run_cond_false]

-- commits

/-- The mailboxes that a session binds. -/
theorem binds_iff : binds u m = true ↔ u = .vta ∧ (m < 8 ∨ m = 9) := by
  cases u <;> simp [binds]

/-- Another agent's commit changes nothing. -/
theorem doorbell_other (ha : mbxAgent u m ≠ some (agentActs u a)) : (Prog.doorbell u m a).run s = s := by
  rw [Prog.doorbell, Prog.run_get, show (mbxAgent u m == some (agentActs u a)) = false by simpa using ha, Prog.run_cond_false]

/-- The words of a commit are taken out of their mailbox. -/
def State.emptied (s : State) (u : UnitId) (m : Nat) : State := (Prog.modMb u m fun b => { b with words := [], spilled := false }).run s

/-- What a mailbox makes of the words of a commit: a packet that waits, or one framed badly, which is counted (R69). -/
def Prog.commitWords (s : State) (u : UnitId) (m : Nat) (words : List Word) : Prog := match s.framed u m words with
  | some p => .modMb u m fun b => { b with waiting := b.waiting ++ [p] }
  | none => .mbxErr u m (Reg.MBX_ERR_FRAMING m)

section
variable (ha : mbxAgent u m = some (agentActs u a))
include ha

/-- A packet in a closed mailbox is counted (R74). -/
theorem doorbell_closed (ho : s.on u (Reg.MBX_STATUS_OPEN m) = false) :
    (Prog.doorbell u m a).run s = (Prog.mbxErr u m (Reg.MBX_ERR2_CLOSED m)).run (s.emptied u m) := by
  simp [Prog.doorbell, ha, ho, State.emptied]

variable (ho : s.on u (Reg.MBX_STATUS_OPEN m) = true)
include ho

/-- One that lost a word is counted (R70). -/
theorem doorbell_spilled (hs : (s.mb u m).spilled = true) :
    (Prog.doorbell u m a).run s = (Prog.mbxErr u m (Reg.MBX_ERR_OVERFLOW m)).run (s.emptied u m) := by
  simp [Prog.doorbell, ha, ho, hs, State.emptied]

variable (hs : (s.mb u m).spilled = false)
include hs

/-- A secured message that does not verify ends its session (R113). -/
theorem doorbell_unbinds (hbound : (s.mb u m).bound = true) (hbinds : binds u m = true)
    (hw : Config.unwrap (s.mb u m).sessNo (s.mb u m).keyGen (ofWords (s.mb u m).words) = none) :
    (Prog.doorbell u m a).run s = (Prog.unbind u m).run (s.emptied u m) := by
  simp [Prog.doorbell, ha, ho, hs, hbound, hbinds, hw, State.emptied]

/-- The words, or those that a secured message wraps, are taken for a packet (R69, R113). -/
theorem doorbell_takes {ws : List Word} (hws : (if (s.mb u m).bound ∧ u = .vta ∧ (m < 8 ∨ m = 9) then
      (Config.unwrap (s.mb u m).sessNo (s.mb u m).keyGen (ofWords (s.mb u m).words)).map toWords
    else some (s.mb u m).words) = some ws) :
    (Prog.doorbell u m a).run s = (Prog.commitWords s u m ws).run (s.emptied u m) := by
  have hb : ((s.mb u m).bound && binds u m) = true ↔ (s.mb u m).bound = true ∧ u = .vta ∧ (m < 8 ∨ m = 9) := by
    rw [Bool.and_eq_true, binds_iff]
  split at hws
  · next h =>
    obtain ⟨plain, hplain, rfl⟩ := Option.map_eq_some_iff.1 hws
    simp only [Prog.doorbell, Prog.run_get, ha, beq_self_eq_true, Prog.run_cond_true, Prog.run_both, ho, hs, Bool.not_true, Bool.false_eq_true,
      if_false, if_pos (hb.2 h), hplain]
    rfl
  · next h =>
    obtain rfl := Option.some.inj hws
    simp only [Prog.doorbell, Prog.run_get, ha, beq_self_eq_true, Prog.run_cond_true, Prog.run_both, ho, hs, Bool.not_true, Bool.false_eq_true,
      if_false, if_neg (mt hb.1 h)]
    rfl

end

end

/-- Settles O7: a word by its agent and the room for it, a commit by the first reason for which its packet vanishes. -/
theorem requestWordsAndDoorbell : Obligations.RequestWordsAndDoorbell := by
  constructor
  · intro u m a w s₀ s hm hb
    rw [exec_mbxReqWrite a w hm ((blockReady_dropLow ..).symm.trans hb)]
    exact ⟨fun h => by rw [reqWrite_other w h], fun ha ho => by rw [reqWrite_agent w ha ho]⟩
  · intro u m a s₀ s hm hb read emptied
    rw [exec_mbxDoorbell a hm ((blockReady_dropLow ..).symm.trans hb)]
    refine ⟨fun ha => by rw [doorbell_other ha], fun ha => ⟨fun ho => ?_, fun ho hs => ?_, fun ws ho hs hws => ⟨fun hf => ?_, fun q hf => ?_⟩,
      fun ho hs hbound hu hmb hw => ?_⟩⟩
    · rw [doorbell_closed ha ho, State.emptied]
    · rw [doorbell_spilled ha ho hs, State.emptied]
    · rw [doorbell_takes ha ho hs hws, Prog.commitWords, show s.framed u m ws = none from hf, State.emptied]
    · rw [doorbell_takes ha ho hs hws, Prog.commitWords, show s.framed u m ws = some q from hf, State.emptied]
    · rw [doorbell_unbinds ha ho hs hbound (binds_iff.2 ⟨hu, hmb⟩) hw, State.emptied]

section
variable {s : State} {u : UnitId} {m : Nat} {a : Agent}

-- replies that are read

/-- Another agent reads all ones (R74). -/
theorem rspRead_other (ha : mbxAgent u m ≠ some (agentActs u a)) :
    (Prog.rspRead u m a).run s = s.modDev u fun d => { d with bus := BitVec.allOnes 64 } := by
  simp [Prog.rspRead, ha]

/-- A read of an empty reply queue is counted (R74). -/
theorem rspRead_empty (ha : mbxAgent u m = some (agentActs u a)) (hr : (s.mb u m).replies = []) : (Prog.rspRead u m a).run s =
    (Prog.mbxErr u m (Reg.MBX_ERR_EMPTY_READ m)).run (s.modDev u fun d => { d with bus := BitVec.allOnes 64 }) := by
  simp [Prog.rspRead, ha, hr]

/-- The next word leaves the queue (R73). -/
theorem rspRead_word {w : Word} {ws : List Word} {n : Nat} {t : List (List Word × Nat)} (ha : mbxAgent u m = some (agentActs u a))
    (hr : (s.mb u m).replies = (w :: ws, n) :: t) : (Prog.rspRead u m a).run s =
      (Prog.modMb u m fun b => { b with replies := if ws = [] then t else (ws, n) :: t }).run (s.modDev u fun d => { d with bus := w }) := by
  simp [Prog.rspRead, ha, hr]

-- replies that are written

variable {o : Outst} {r : Ans}

/-- The words of a reply: its v2 form, or on a mailbox with v1 framing the 32-byte form (R76, R97). -/
def State.replyWords (s : State) (u : UnitId) (m : Nat) (o : Outst) (r : Ans) : List Word :=
  toWords (if s.on u (Reg.MBX_STATUS_GEN m) then replyV1 o.opcode o.tag r else replyBytes o.opcode o.tag r)

/-- A reply of a mailbox that its registers serve joins the visible ones (R73). -/
theorem postReply_run (hp : peerMbx u m = false) (o : Outst) : (Prog.postReply u m o r).run s =
    (Prog.modMb u m fun b => { b with replies := b.replies ++ [(s.replyWords u m o r, o.need)] }).run s := by
  have hh : ¬(u = .htu ∧ m = 2) := by rintro ⟨rfl, rfl⟩; cases hp
  have hv : ¬(u = .vta ∧ m = 9) := by rintro ⟨rfl, rfl⟩; cases hp
  rw [Prog.postReply, Prog.run_get, if_neg hh, if_neg hv]
  rfl

/-- The mailbox once a command has its final reply (R73, R79). -/
def Mbx.finish (b : Mbx) (o : Outst) (words : List Word) : Mbx :=
  { b with replies := b.replies ++ [(words, o.need)], outst := b.outst.filter (·.tag != o.tag) }

variable (hp : peerMbx u m = false) (hf : (s.mb u m).outst.find? (·.tag == o.tag) = some o) (hd : o.discard = false)
include hp hf hd

/-- A final reply joins the visible ones, ends its command, and notifies where that is asked (R79, R87). -/
theorem reply_final (hr : r.status ≠ stAccepted) : (Prog.reply u m o.tag r).run s =
    (Prog.cond (o.flags.getLsbD 2) (.mbxIrq u m 0)).run ((Prog.modMb u m (·.finish o (s.replyWords u m o r))).run s) := by
  have hfin : (r.status != stAccepted) = true := by simpa using hr
  rw [Prog.reply, Prog.run_get, hf, Prog.run_opt_some]
  simp only [hfin, hd, Bool.not_false, Bool.true_and, if_true, Prog.run_seq_cons, Prog.run_seq_nil, Prog.run_cond_true, postReply_run hp,
    Prog.modMb_modMb]
  rfl

/-- ACCEPTED joins them and marks its command (R79, R82). -/
theorem reply_accepted (hg : s.on u (Reg.MBX_STATUS_GEN m) = false) : (Prog.reply u m o.tag { status := stAccepted }).run s =
    (Prog.modMb u m fun b => { b with
      replies := b.replies ++ [(toWords (replyBytes o.opcode o.tag { status := stAccepted }), 0)]
      outst := b.outst.map fun x => if x.tag == o.tag then { x with first := true } else x }).run s := by
  rw [Prog.reply, Prog.run_get, hf, Prog.run_opt_some]
  simp only [bne_self_eq_false, hd, Bool.not_false, Bool.false_and, Bool.false_eq_true, if_false, Prog.run_seq_cons, Prog.run_seq_nil,
    Prog.run_cond_true, Prog.run_cond_false, postReply_run hp, Prog.modMb_modMb, State.replyWords, hg]

/-- It leaves what no change of its mailbox, no register write and no word sent changes. -/
theorem reply_final_fixes {α : Type} {g : State → α} (hr : r.status ≠ stAccepted) (hm : ∀ f, (Prog.modMb u m f).fixes g)
    (hw : ∀ w f v, (Prog.wr w f v).fixes g) (hs : ∀ w o, (Prog.send w o).fixes g) : g ((Prog.reply u m o.tag r).run s) = g s := by
  rw [reply_final hp hf hd hr]
  exact (Prog.fixes_cond (Prog.fixes_mbxIrq hw hs u m 0) _).trans (hm _ s)

/-- Its mailbox has it. -/
theorem mb_reply_final (hr : r.status ≠ stAccepted) :
    ((Prog.reply u m o.tag r).run s).mb u m = (s.mb u m).finish o (s.replyWords u m o r) := by
  rw [reply_final hp hf hd hr]
  exact (Prog.fixes_cond (Prog.fixes_mbxIrq_mb u m 0) _).trans (State.mb_modMb ..)

end

/-- Settles O8: a read by what the queue holds, a final reply by its run and by what each part of that leaves, and ACCEPTED. -/
theorem repliesAreWrittenAndRead : Obligations.RepliesAreWrittenAndRead := by
  refine ⟨fun u m a s hm hb => ⟨fun ha => ?_, fun ha => ⟨fun hr => ?_, fun w ws n t hr => ?_⟩⟩, fun s u m o r _ hp hf hd hr => ?_,
    fun s u m o _ hp hf hd hg => reply_accepted hp hf hd hg⟩
  · rw [exec_mbxRspRead a hm hb, rspRead_other ha]
  · rw [exec_mbxRspRead a hm hb, rspRead_empty ha hr]
  · rw [exec_mbxRspRead a hm hb, rspRead_word ha hr]
  · dsimp only
    rw [mb_reply_final hp hf hd hr]
    have hparts := reply_final_fixes (g := fun t => (t.hx, t.vx, t.ddr, t.entity)) hp hf hd hr (fun _ _ => by simp [Prog.modMb])
      (fun _ _ _ _ => by simp) (fun _ _ _ => by simp)
    simp only [Prod.mk.injEq] at hparts
    obtain ⟨hhx, hvx, hddr, hent⟩ := hparts
    refine ⟨rfl, rfl, rfl, rfl, rfl, fun hn => ?_, fun hn => ?_, fun n hn => ?_, hhx, hvx, hddr, hent, fun w off h1 h2 =>
      Prog.word_keeps (Prog.reply_keeps u m o.tag r) (fun h => h.elim h1 h2) s⟩
    · rw [reply_final hp hf hd hr, hn, Prog.run_cond_true, rd_mbxIrq_notify]
    · rw [reply_final hp hf hd hr, hn, Prog.run_cond_false, State.rd_modMb]
    · exact reply_final_fixes (g := (·.mb u n)) hp hf hd hr (fun _ _ => State.mb_modMb_other _ _ _ _ _ _ (.inr hn)) (fun _ _ _ _ => State.mb_wr ..)
        fun _ _ _ => State.mb_send ..

end Sys2Proof.Machine

end

section

/-! # A Bracken image that faults: O32 -/

namespace Sys2Proof.Machine

section
variable {u w : UnitId} {g : Nat}

/-- A change of another part of a unit leaves its Bracken images. -/
theorem Prog.fixes_dev_brk {f : Dev → Dev} (h : ∀ d, (f d).brks = d.brks) : (Prog.dev w f).fixes (State.brk · u g) := fun s => by
  cases u <;> cases w <;> simp [State.brk, State.modDev, h]

theorem Prog.fixes_wr_brk (f : Fld) (v : Nat) : (Prog.wr w f v).fixes (State.brk · u g) := fun s => by
  simp [State.brk]

/-- An event leaves the Bracken images (R414 to R416). -/
theorem Prog.fixes_event_brk (typ : Nat) (pl : List Byte) : (Prog.event w typ pl).fixes (State.brk · u g) :=
  (Prog.event_changes (P := Prog.fixes (State.brk · u g)) (fun f hf => Prog.fixes_dev_brk fun d => by obtain ⟨v, b, e⟩ := hf d; rw [e])
    (fun _ => by cases u <;> rfl) (fun _ => Prog.fixes_wr_brk _ _) (fun _ => Prog.fixes_wr_brk _ _) typ pl).fixes fun _ h => h

/-- A measurement leaves the Bracken images (R110). -/
theorem Prog.fixes_measure_brk (i : Nat) (v : BitVec 384) : (Prog.measure w i v).fixes (State.brk · u g) :=
  Prog.fixes_get fun _ => Prog.fixes_cond (Prog.fixes_both (Prog.fixes_dev_brk fun _ => rfl) (Prog.fixes_cond (Prog.fixes_event_brk _ _)))

/-- An image of a unit that changes leaves the others (R104, R105). -/
theorem Prog.fixes_modBrk_brk {k : Nat} (h : g ≠ k) (f : Bracken → Bracken) : (Prog.modBrk u k f).fixes (State.brk · u g) := by
  have himage : (Prog.dev u fun d => { d with brks := Sparse.mod {} d.brks k f }).fixes (State.brk · u g) := fun s => by
    simp [State.brk, Sparse.get_mod_other _ _ _ h]
  have hopen : (Prog.openMbx u (brackenMbx u)).fixes (State.brk · u g) :=
    Prog.fixes_seq_cons (Prog.fixes_wr_brk _ _) (Prog.fixes_seq_cons (Prog.fixes_wr_brk _ _) (Prog.fixes_dev_brk fun _ => rfl))
  exact Prog.fixes_seq_cons himage (Prog.fixes_seq_cons
    (Prog.fixes_get fun _ => Prog.fixes_ite (Prog.fixes_cond hopen) (Prog.fixes_wr_brk _ _))
    (Prog.fixes_cond (Prog.fixes_get fun _ => Prog.fixes_cond (Prog.fixes_wr_brk _ _))))

/-- An image that faulted twice does not start again before a reset (R105). -/
theorem startBrackens_faultedTwice (b : BootRun) (s : State) (h : 2 ≤ (s.brk u g).faults) :
    ((Prog.startBrackens u b).run s).brk u g = s.brk u g := by
  unfold Prog.startBrackens
  rw [Prog.run_both]
  refine each_invariant (inv := fun t => t.brk u g = s.brk u g) _ (fun ⟨i, k⟩ _ t ht => ?_) _ (Prog.fixes_measure_brk _ _ s)
  rw [Prog.run_get]
  split
  · exact (Prog.fixes_event_brk _ _ t).trans ht
  · split
    · exact (Prog.fixes_event_brk _ _ t).trans ht
    · by_cases hk : g = k
      · subst hk
        rw [decide_eq_false (by rw [ht]; omega), Prog.run_cond_false, ht]
      · exact (Prog.fixes_cond (Prog.fixes_modBrk_brk hk _) t).trans ht

end

section
variable {u : UnitId} {g : Nat} {s : State}

/-- The row of a fault (R105). -/
theorem exec_brackenFault (hg : g < brackenCount u) (hr : (s.dev u).inReset = false) (hup : s.gorseUp u = true) :
    exec (.brackenFault u g) s = .next ((Prog.settle u).run ((Prog.brackenFault u g).run s)) :=
  ((nextIf_of hg _ s).trans (next_thenSettle _ hr)).trans (by rw [gorse_up s u _ hup])

/-- An image that does not run has nothing to fault (R105). -/
theorem brackenFault_stopped (h : (s.brk u g).running = false) : (Prog.brackenFault u g).run s = s := by
  rw [Prog.brackenFault, Prog.run_get, h, Prog.run_cond_false]

/-- One that runs: its commands, its collectors, then the image itself (R105). -/
theorem brackenFault_running (h : (s.brk u g).running = true) : (Prog.brackenFault u g).run s =
    (Prog.modBrk u g fun b => { b with running := b.faults == 0, faults := b.faults + 1 }).run
      ((Prog.each ((s.dev u).colls.filter fun e => e.2.mbx == brackenMbx u && !e.2.gorse) fun e => .faultColl u e.1).run
        ((Prog.abortMbx u (brackenMbx u)).run s)) := by
  rw [Prog.brackenFault, Prog.run_get, h, Prog.run_cond_true, Prog.run_seq_cons, Prog.run_seq_cons, Prog.run_seq_cons, Prog.run_seq_nil]

end

/-- Settles O32: a fault by whether the image runs, and a start-up by the invariant that the image stays as it is. -/
theorem brackenFaultsOnce : Obligations.BrackenFaultsOnce := by
  refine fun u g s hg hr hup => ⟨rfl, fun h => ?_, fun h => ?_, fun b h => startBrackens_faultedTwice b s h, fun _ => rfl⟩
  · rw [exec_brackenFault hg hr hup, brackenFault_stopped h]
  · rw [exec_brackenFault hg hr hup, brackenFault_running h]

end Sys2Proof.Machine

end

section

/-! # A Gorse pair that stops: O33 -/

namespace Sys2Proof.Machine

variable {u : UnitId}

-- what a mismatch stops of either unit

/-- What a mailbox shows and holds of its commands and its session. -/
def State.mbxUse (u : UnitId) (m : Nat) (s : State) : Nat × List Outst × List (Nat × Packet) × List Word × Bool :=
  (s.rd u (Reg.MBX_STATUS_OPEN m), (s.mb u m).outst, (s.mb u m).held, (s.mb u m).words, (s.mb u m).bound)

/-- A mailbox dropped is closed and empty (R106). -/
theorem mbxUse_dropMbx (m : Nat) (s : State) : ((Prog.dropMbx u m).run s).mbxUse u m = (0, [], [], [], false) := by
  simp [Prog.dropMbx, State.mbxUse, State.rd_wr_same, Reg.MBX_STATUS_OPEN]

/-- The others are left. -/
theorem dropMbx_fixes_mbxUse {m n : Nat} (h : m ≠ n) : (Prog.dropMbx u n).fixes (State.mbxUse u m) := fun s => by
  have hopen : Fld.apart (Reg.MBX_STATUS_OPEN m) (Reg.MBX_STATUS_OPEN n) := .inl (by simp only [Reg.MBX_STATUS_OPEN]; omega)
  simp only [Prog.dropMbx, State.mbxUse, Prog.run_both, Prog.run_wr, State.rd_modMb, State.rd_wr_other _ _ _ _ _ (.inr hopen),
    State.mb_modMb_other _ _ _ _ _ _ (.inr h), State.mb_wr]

theorem dropMbxs_keeps {l : List Nat} : (Prog.each l (Prog.dropMbx u)).keeps fun _ o => o % 256 = 0x18 :=
  Prog.keeps_each fun m => ⟨show (0x1018 + 256 * m) % 256 = 0x18 by omega, trivial⟩

/-- The part of a lockstep mismatch that both units have: the counts and keys, the mailboxes, the recorder's flag, sessions and policy (R106). -/
def Prog.gorseStops (u : UnitId) (n : Nat) : Prog := .seq [
  .wr u Reg.SEC_STATE_MISMATCHES n, .wr u Reg.SEC_STATE_RSK_READY 0, .wr u Reg.SEC_STATE_POLICY_IN_FORCE 0,
  .each (List.range (mbxCount u)) (.dropMbx u),
  .evr u fun v => { v with retLock := true },
  .dev u fun d => { d with spdm := [], pol := { d.pol with asm := none } }]

/-- It writes the word of the security state and those of the mailboxes. -/
theorem gorseStops_keeps (n : Nat) : (Prog.gorseStops u n).keeps fun _ o => o = 0x80000 ∨ o % 256 = 0x18 := by
  simp only [Prog.gorseStops, Prog.evr, Prog.keeps_seq_cons, Prog.keeps_seq_nil, Prog.keeps_wr, Prog.keeps_dev, and_true]
  exact ⟨.inl rfl, .inl rfl, .inl rfl, Prog.keeps_mono dropMbxs_keeps fun _ _ => .inr⟩

/-- What else it leaves of its unit (R106). -/
theorem gorseStops_leaves (n : Nat) (s : State) :
    ((Prog.gorseStops u n).run s).rd u Reg.SEC_STATE_MISMATCHES = n % 256 ∧ ((Prog.gorseStops u n).run s).rd u Reg.SEC_STATE_RSK_READY = 0 ∧
      (∀ m < mbxCount u, ((Prog.gorseStops u n).run s).mbxUse u m = (0, [], [], [], false)) ∧
      (((Prog.gorseStops u n).run s).dev u).pol.asm = none ∧ (((Prog.gorseStops u n).run s).dev u).evr.retLock = true := by
  obtain ⟨-, hm⟩ := each_reaches (inv := fun _ => True) (read := State.mbxUse u) (f := Prog.dropMbx u) (goal := fun _ => (0, [], [], [], false))
    (List.range (mbxCount u)) (fun _ _ _ _ => trivial) (fun m _ s _ => mbxUse_dropMbx m s) (fun _ _ _ _ h => dropMbx_fixes_mbxUse h)
    (((s.wr u Reg.SEC_STATE_MISMATCHES n).wr u Reg.SEC_STATE_RSK_READY 0).wr u Reg.SEC_STATE_POLICY_IN_FORCE 0) trivial
  have hk (g : Fld) (hg : g.off = 0x80000) (k : State) : ((Prog.each (List.range (mbxCount u)) (Prog.dropMbx u)).run k).rd u g = k.rd u g :=
    Prog.rd_keeps dropMbxs_keeps g (by omega) k
  simp only [Prog.gorseStops, Prog.evr, Prog.run_seq_cons, Prog.run_seq_nil, Prog.run_wr, Prog.run_dev, State.modDev_rd, State.modDev_dev]
  refine ⟨?_, ?_, fun m hlt => ?_, trivial, trivial⟩
  · rw [hk _ rfl, State.rd_wr_other _ _ _ _ _ (.inr (by decide)), State.rd_wr_other _ _ _ _ _ (.inr (by decide)),
      State.rd_wr_same _ _ _ _ (by decide)]
    rfl
  · rw [hk _ rfl, State.rd_wr_other _ _ _ _ _ (.inr (by decide)), State.rd_wr_same _ _ _ _ (by decide)]
    rfl
  · exact Eq.trans (by simp [State.mbxUse, State.mb]) (hm m (List.mem_range.2 hlt))

/-- It leaves the memories. -/
theorem gorseStops_memories (n : Nat) : (Prog.gorseStops u n).fixes fun s => (s.ddr, s.entity) := by
  have hw (f : Fld) (v : Nat) : (Prog.wr u f v).fixes fun s => (s.ddr, s.entity) := fun s => by simp
  have hd (f : Dev → Dev) : (Prog.dev u f).fixes fun s => (s.ddr, s.entity) := fun s => by simp
  exact Prog.fixes_seq_cons (hw _ _) (Prog.fixes_seq_cons (hw _ _) (Prog.fixes_seq_cons (hw _ _) (Prog.fixes_seq_cons
    (Prog.fixes_each fun _ _ => Prog.fixes_both (hw _ _) (hd _)) (Prog.fixes_seq_cons (hd _) (Prog.fixes_seq_cons (hd _) Prog.fixes_seq_nil)))))

-- what it stops of each unit alone

/-- The part that is each unit's own: its status, and what follows it (R43, R106). -/
def Prog.unitStops (was : State) (n : Nat) : UnitId → Prog
  | .htu => .seq [
      .wr .htu Reg.HTU_STATUS_GORSE_UP 0, .wr .htu Reg.HTU_STATUS_RECORDER_OPEN 0, .wr .htu Reg.HTU_STATUS_BOUNDARY_LIVE 0,
      .wr .htu Reg.HTU_STATUS_MBX0_OPEN 0, .wr .htu Reg.HTU_STATUS_POLICY 0,
      .htu fun x => { x with
        fGauge := [], vGauge := [], hs := none, seqQ := [], settling := none, drainReq := false, drainAcked := false
        stepClean := true, stepCleanValid := false },
      .irqEdge .htu 0 was,
      .cond (n == 3) (.wr .htu Reg.HTU_STATUS_BOOT_FAIL 1)]
  | .vta => .seq [
      .vtaStatus Reg.VTA_STATUS_GORSE_UP 0, .vtaStatus Reg.VTA_STATUS_RECORDER_OPEN 0, .vtaStatus Reg.VTA_STATUS_PCIE_OPEN 0,
      .vtaStatus Reg.VTA_STATUS_POLICY 0,
      .cond (n == 3) (.both (.vtaStatus Reg.VTA_STATUS_BOOT_FAIL 1) (.vta fun x => { x with alert := true }))]

/-- A mismatch of a pair that runs: what both units stop, then what this one does. -/
theorem lockstep_run {s : State} (h : s.gorseUp u = true) : (Prog.lockstep u).run s =
    (Prog.unitStops s (s.rd u Reg.SEC_STATE_MISMATCHES + 1) u).run ((Prog.gorseStops u (s.rd u Reg.SEC_STATE_MISMATCHES + 1)).run s) := by
  rw [Prog.lockstep, Prog.run_get, h, Prog.run_cond_true]
  cases u <;> rfl

/-- A change of the status word or of the pending MSI-X writes, of what is sent, or of a part that one unit alone has. -/
def Prog.stopLeaf : Prog → Prop
  | .wr _ f _ => f.off = 0 ∨ f.off = 0x3F01000
  | .dev _ f => ∀ d, ∃ o, f d = { d with out := o }
  | .htu _ | .vta _ => True
  | _ => False

@[simp] theorem stopLeaf_wr (w : UnitId) (f : Fld) (v : Nat) : Prog.stopLeaf (.wr w f v) ↔ f.off = 0 ∨ f.off = 0x3F01000 := Iff.rfl

theorem send_stops (w : UnitId) (o : Out) : (Prog.send w o).changes Prog.stopLeaf := fun _ => ⟨_, rfl⟩

theorem vtaStatus_stops {f : Fld} (hf : f.off = 0) (v : Nat) : (Prog.vtaStatus f v).changes Prog.stopLeaf := by
  simp [Prog.vtaStatus, Prog.msix, send_stops, hf, Reg.MSIX_PBA_PENDING]

theorem unitStops_changes (was : State) (n : Nat) : (Prog.unitStops was n u).changes Prog.stopLeaf := by
  cases u with
  | htu =>
    have hirq : (Prog.irqEdge .htu 0 was).changes Prog.stopLeaf := fun _ => (Prog.changes_cond _).2 fun _ => send_stops _ _
    simp only [Prog.unitStops, Prog.changes_seq_cons, Prog.changes_seq_nil, Prog.changes_cond, Prog.changes_wr, Prog.changes_htu, stopLeaf_wr]
    exact ⟨.inl rfl, .inl rfl, .inl rfl, .inl rfl, .inl rfl, trivial, hirq, fun _ => .inl rfl, trivial⟩
  | vta =>
    simp only [Prog.unitStops, Prog.changes_seq_cons, Prog.changes_seq_nil, Prog.changes_cond, Prog.changes_both, Prog.changes_vta]
    exact ⟨vtaStatus_stops rfl _, vtaStatus_stops rfl _, vtaStatus_stops rfl _, vtaStatus_stops rfl _,
      fun _ => ⟨vtaStatus_stops rfl _, trivial⟩, trivial⟩

/-- It leaves every field of another word. -/
theorem unitStops_rd (was : State) (n : Nat) {w : UnitId} {g : Fld} (h0 : g.off ≠ 0) (hx : g.off ≠ 0x3F01000) :
    (Prog.unitStops was n u).fixes fun s => s.rd w g := by
  refine ((unitStops_changes was n).mono (Q := Prog.sparing w g) fun q hq => ?_).rd
  cases q with
  | wr v f => exact fun _ => .inl fun e => hq.elim (fun h => h0 (e.trans h)) fun h => hx (e.trans h)
  | dev | htu | vta => trivial
  | _ => exact absurd hq id

/-- It leaves the mailboxes, the policy and the recorder of a unit, and the memories. -/
theorem unitStops_leaves (was : State) (n : Nat) (w : UnitId) :
    (Prog.unitStops was n u).fixes fun s => ((s.dev w).mbx, (s.dev w).pol, (s.dev w).evr, s.ddr, s.entity) := by
  refine (unitStops_changes was n).fixes fun q hq s => ?_
  cases q with
  | dev v f =>
    obtain ⟨o, e⟩ := hq (s.dev v)
    cases v <;> cases w <;> simp_all [State.modDev]
  | wr v f => simp
  | htu | vta => cases w <;> rfl
  | _ => exact absurd hq id

-- the status of each unit

/-- What the status of a unit shows of its Gorse pair once it has stopped, after `n` mismatches (R106). -/
structure State.pairStopped (u : UnitId) (n : Nat) (s t : State) : Prop where
  gorseUp : t.gorseUp u = false
  recorderOpen : t.recorderOpen u = false
  policy : t.policy u = false
  bootFail : t.bootFail u = if n = 3 then 1 else s.bootFail u

/-- Each field is read through the writes after its own; the last one, of BOOT_FAIL, comes with the third mismatch (R106). -/
theorem unitStops_htu (was : State) (n : Nat) (s : State) : s.pairStopped .htu n ((Prog.unitStops was n .htu).run s) := by
  obtain ⟨k, hrun, hrd⟩ : ∃ k : State,
      (Prog.unitStops was n .htu).run s = (Prog.cond (n == 3) (.wr .htu Reg.HTU_STATUS_BOOT_FAIL 1)).run k ∧
      ∀ g, k.rd .htu g = (((((s.wr .htu Reg.HTU_STATUS_GORSE_UP 0).wr .htu Reg.HTU_STATUS_RECORDER_OPEN 0).wr .htu
        Reg.HTU_STATUS_BOUNDARY_LIVE 0).wr .htu Reg.HTU_STATUS_MBX0_OPEN 0).wr .htu Reg.HTU_STATUS_POLICY 0).rd .htu g :=
    ⟨_, rfl, fun g => (rd_irqEdge ..).trans (State.rd_hx ..)⟩
  rw [hrun]
  by_cases hn : n = 3
  all_goals
    constructor <;> simp (disch := decide) [State.gorseUp, State.recorderOpen, State.policy, State.bootFail, State.on, hrd, Prog.run_cond, hn,
      State.rd_wr_other, State.rd_wr_same]

/-- A status field that takes its value leaves the others (R431). -/
theorem vtaStatus_other (s : State) {f g : Fld} (v : Nat) (hg : g.early .vta = true) (ha : g.apart f) :
    ((Prog.vtaStatus f v).run s).rd .vta g = s.rd .vta g :=
  (vtaStatus_status f v).statusRd s hg fun _ h => List.mem_singleton.1 h ▸ ha

theorem unitStops_vta (was : State) (n : Nat) (s : State) : s.pairStopped .vta n ((Prog.unitStops was n .vta).run s) := by
  by_cases hn : n = 3
  all_goals
    constructor <;> simp (disch := decide) [Prog.unitStops, State.gorseUp, State.recorderOpen, State.policy, State.bootFail, State.on, Prog.run_cond,
      hn, vtaStatus_same, vtaStatus_other]

theorem unitStops_status (was : State) (n : Nat) (s : State) : s.pairStopped u n ((Prog.unitStops was n u).run s) := by
  cases u with
  | htu => exact unitStops_htu was n s
  | vta => exact unitStops_vta was n s

/-- A pair that is down has no mismatch (R106). -/
theorem lockstep_down {s : State} (h : s.gorseUp u = false) : (Prog.lockstep u).run s = s := by
  rw [Prog.lockstep, Prog.run_get, h, Prog.run_cond_false]

/-- Settles O33: what both units stop, what each shows of it, and what neither touches. -/
theorem lockstepMismatchStopsGorse : Obligations.LockstepMismatchStopsGorse := by
  intro u s hr
  have hexec : exec (.lockstepMismatch u) s = .next ((Prog.lockstep u).run s) := next_up _ hr
  refine ⟨fun h => hexec.trans (congrArg _ (lockstep_down h)), fun h => ⟨_, hexec.trans (congrArg _ (lockstep_run h)), ?_⟩⟩
  generalize s.rd u Reg.SEC_STATE_MISMATCHES + 1 = n
  obtain ⟨hcount, hkey, hmbx, hasm, hret⟩ := gorseStops_leaves (u := u) n s
  have hmem := gorseStops_memories (u := u) n s
  have hboot : ((Prog.gorseStops u n).run s).bootFail u = s.bootFail u := by
    cases u <;> exact Prog.rd_keeps (gorseStops_keeps n) _ (by decide) s
  generalize (Prog.gorseStops u n).run s = k at hcount hkey hmbx hasm hret hmem hboot ⊢
  obtain ⟨hgorse, hrec, hpolicy, hfail⟩ := unitStops_status (u := u) s n k
  have hrd (g : Fld) (h0 : g.off ≠ 0) (hx : g.off ≠ 0x3F01000) : ((Prog.unitStops s n u).run k).rd u g = k.rd u g := unitStops_rd s n h0 hx k
  have hleft := unitStops_leaves (u := u) s n u k
  generalize (Prog.unitStops s n u).run k = t at hgorse hrec hpolicy hfail hrd hleft ⊢
  simp only [Prod.mk.injEq] at hmem hleft
  obtain ⟨hbox, hpol, hevr, hddr, hent⟩ := hleft
  have huse (m : Nat) (hm : m < mbxCount u) : t.mbxUse u m = (0, [], [], [], false) := by
    have hopen : t.rd u (Reg.MBX_STATUS_OPEN m) = k.rd u (Reg.MBX_STATUS_OPEN m) :=
      hrd _ (by simp only [Reg.MBX_STATUS_OPEN]; omega) (by simp only [Reg.MBX_STATUS_OPEN]; cases u <;> simp only [mbxCount] at hm <;> omega)
    rw [← hmbx m hm, State.mbxUse, State.mbxUse, hopen, State.mb, State.mb, hbox]
  refine ⟨hgorse, hrec, hpolicy, (hrd _ (by decide) (by decide)).trans hcount, (hrd _ (by decide) (by decide)).trans hkey,
    fun m hm => by simpa only [State.mbxUse, Prod.mk.injEq] using huse m hm, (congrArg Pol.asm hpol).trans hasm,
    (congrArg Evr.retLock hevr).trans hret, fun h3 => ?_, fun h3 => ?_, hddr.trans hmem.1, hent.trans hmem.2⟩
  · rw [hfail, if_pos h3]
  · rw [hfail, if_neg h3, hboot]

end Sys2Proof.Machine

end

section

/-! # SPDM sessions and peers: O34 -/

namespace Sys2Proof.Machine

section
variable {u : UnitId} {c step tries n m : Nat} {s : State}

/-- A row of Gorse at a unit out of reset whose Gorse pair runs. -/
theorem next_gorse (p : Prog) (hr : (s.dev u).inReset = false) (hup : s.gorseUp u = true) :
    Prog.next (.up u (.gorse u p)) s = .next (p.run s) :=
  (next_up _ hr).trans (congrArg _ (gorse_up s u p hup))

-- the timeouts of a session and of a requester

theorem exec_spdmHeartbeatTimeout (hm : m < 10) (hr : s.v.inReset = false) (hup : s.gorseUp .vta = true) :
    exec (.spdmHeartbeatTimeout m) s = .next ((Prog.heartbeatLost m).run s) :=
  (nextIf_of hm _ s).trans (next_gorse (u := .vta) _ hr hup)

theorem exec_spdmRetryTimeout (hr : (s.dev u).inReset = false) (hup : s.gorseUp u = true) :
    exec (.spdmRetryTimeout u c) s = .next ((Prog.spdmTimeout u c).run s) :=
  next_gorse _ hr hup

/-- A heartbeat that stops ends a session that is open (R113). -/
theorem heartbeatLost_run : (Prog.heartbeatLost m).run s =
    if (s.mb .vta m).bound = true ∧ s.beatLost m = true then (Prog.unbind .vta m).run s else s := by
  rw [Prog.heartbeatLost, Prog.run_get, Prog.run_cond]
  simp only [Bool.and_eq_true]

/-- A requester with no exchange under way starts one towards a unit below (R114). -/
theorem spdmTimeout_none (h : s.spdmAt u c = none) : (Prog.spdmTimeout u c).run s =
    if u = .vta ∧ 64 ≤ c then (Prog.spdmGo u c 0).run s else s := by
  simp only [Prog.spdmTimeout, Prog.run_get, h, Prog.run_cond, Bool.and_eq_true, beq_iff_eq, decide_eq_true_eq]

/-- A sequence that is complete has no response to wait for (R114). -/
theorem spdmTimeout_complete (h : s.spdmAt u c = some (step, tries, n)) (hl : spdmLast c ≤ step) : (Prog.spdmTimeout u c).run s = s := by
  simp only [Prog.spdmTimeout, Prog.run_get, h, decide_eq_false (Nat.not_lt.2 hl), Prog.run_cond_false]

/-- A request without a response: by how often it was sent again (R114). -/
theorem spdmTimeout_waiting (h : s.spdmAt u c = some (step, tries, n)) (hl : step < spdmLast c) : (Prog.spdmTimeout u c).run s =
    if tries < 3 then (Prog.spdmAgain u c step n).run (s.modDev u fun d => { d with spdm := Sparse.put d.spdm c (step, tries + 1, n) })
    else if tries = 3 then s.modDev u fun d => { d with spdm := Sparse.put d.spdm c (0, 4, n) }
    else (Prog.spdmGo u c 0).run s := by
  simp only [Prog.spdmTimeout, Prog.run_get, h, decide_eq_true hl, Prog.run_cond_true]
  split
  · rfl
  · split <;> rfl

end

-- the peer's commands

section
variable {k : Nat} {opcode : BitVec 8} {p : Packet} {s : State}

/-- The answer to a peer's command leaves on VC1 (R114). -/
def Prog.peerReply (k : Nat) (opcode : BitVec 8) (p : Packet) (a : Ans) : Prog := .sendPkt .vta k 1 (replyBytes opcode.toNat p.tag a)

theorem exec_peerAttest (hk : k < 64) (hr : s.v.inReset = false) (hup : s.gorseUp .vta = true) :
    exec (.peerAttest k opcode p) s = .next ((Prog.peerAttest k opcode p).run s) :=
  (nextIf_of hk _ s).trans (next_gorse (u := .vta) _ hr hup)

/-- A command of another role than PEER, or another command than the two, is DENIED (R114). -/
theorem peerAttest_denied (h : p.roleN ≠ rolePeer ∨ opcode ≠ 0x80 ∧ opcode ≠ 0x92) :
    (Prog.peerAttest k opcode p).run s = (Prog.peerReply k opcode p { status := stDenied }).run s := by
  rw [Prog.peerAttest, Prog.run_get]
  by_cases hrole : p.roleN = rolePeer
  · obtain ⟨h80, h92⟩ := h.resolve_left (not_not.2 hrole)
    simp only [hrole, ne_eq, not_true_eq_false, if_false, h80, h92, Prog.peerReply]
  · simp only [ne_eq, hrole, not_false_eq_true, if_true, Prog.peerReply]

/-- ATTEST is answered as the responder answers its request (R111, R112). -/
theorem peerAttest_attest (hrole : p.roleN = rolePeer) (hc : fieldAt p.params 1 1 ≠ spdmChallenge) : (Prog.peerAttest k 0x80 p).run s =
    (Prog.peerReply k 0x80 p { status := stOk, result := (s.spdmAnswer .vta s.v.spdmNo p.params).length
                               data := s.spdmAnswer .vta s.v.spdmNo p.params }).run
      (s.modDev .vta fun d => { d with spdmNo := d.spdmNo + 1 }) := by
  have hc' : (fieldAt p.params 1 1 == spdmChallenge) = false := beq_false_of_ne hc
  simp only [Prog.peerAttest, Prog.run_get, hrole, ne_eq, not_true_eq_false, if_false, if_true, hc', Prog.run_seq_cons, Prog.run_seq_nil,
    Prog.run_cond_false]
  rfl

/-- LEASE_RENEW that passes its checks has its effect (R308, R311). -/
theorem peerAttest_lease (hrole : p.roleN = rolePeer) (hok : opLeaseRenew.check s .vta 9 p = none) :
    (Prog.peerAttest k 0x92 p).run s = (Prog.leaseVta p (Prog.peerReply k 0x92 p)).run s := by
  have h80 : (0x92 : BitVec 8) ≠ 0x80 := by decide
  simp only [Prog.peerAttest, Prog.run_get, hrole, ne_eq, not_true_eq_false, if_false, h80, if_true, hok]
  rfl

end

/-- Settles O34: the timeouts by the session and by the request that waits, the peer's commands by their role and opcode. -/
theorem spdmSessionsAndPeers : Obligations.SpdmSessionsAndPeers := by
  refine ⟨⟨fun m s hm hr hup => ?_, fun u c s hr hup => ?_⟩, fun k opcode p s hk hr hup => ?_⟩
  · rw [exec_spdmHeartbeatTimeout hm hr hup, heartbeatLost_run]
  · rw [exec_spdmRetryTimeout hr hup]
    refine ⟨fun h => congrArg _ (spdmTimeout_none h), fun step tries n h => ⟨fun hl => congrArg _ (spdmTimeout_complete h hl),
      fun hl ht => ?_, fun hl ht => ?_, fun hl ht => ?_⟩⟩
    · rw [spdmTimeout_waiting h hl, if_pos ht]
    · rw [spdmTimeout_waiting h hl, if_neg (by omega), if_pos ht]
    · rw [spdmTimeout_waiting h hl, if_neg (by omega), if_neg (by omega)]
  · rw [exec_peerAttest hk hr hup]
    refine ⟨fun h => congrArg _ (peerAttest_denied (.inl h)), fun _ h80 h92 => congrArg _ (peerAttest_denied (.inr ⟨h80, h92⟩)),
      fun hrole h80 hc => ?_, fun hrole h92 hok => ?_⟩
    · subst h80
      exact congrArg _ (peerAttest_attest hrole hc)
    · subst h92
      exact congrArg _ (peerAttest_lease hrole hok)

end Sys2Proof.Machine

end

section

/-! # Functions that drain: O35 -/

namespace Sys2Proof.Machine

variable {u : UnitId} {fid : Nat} {s : State}

theorem exec_functionDrained (hr : (s.dev u).inReset = false) :
    exec (.functionDrained u fid) s = .next ((Prog.settle u).run ((Prog.functionDrained u fid).run s)) :=
  next_thenSettle _ hr

theorem exec_drainLimitExpiry (hr : (s.dev u).inReset = false) :
    exec (.drainLimitExpiry u fid) s = .next ((Prog.settle u).run ((Prog.drainLimit u fid).run s)) :=
  next_thenSettle _ hr

/-- A function that does not drain, or has work left, is left alone (R91). -/
theorem functionDrained_none (h : (s.fn u fid).st ≠ .draining ∨ s.workDone u fid = false) : (Prog.functionDrained u fid).run s = s := by
  have hc : ((s.fn u fid).st == .draining && s.workDone u fid) = false := by
    rcases h with h | h <;> simp [h]
  rw [Prog.functionDrained, Prog.run_get, hc, Prog.run_cond_false]

/-- One whose work is done ends its drain; the trace and the ports have more to do (R91). -/
theorem functionDrained_done (hd : (s.fn u fid).st = .draining) (hw : s.workDone u fid = true) (h4 : fid / 4096 ≠ 4) (h6 : fid / 4096 ≠ 6) :
    (Prog.functionDrained u fid).run s = (Prog.drained u fid 0).run s := by
  rw [Prog.functionDrained, Prog.run_get, hd, hw, BEq.rfl, Bool.and_self, Prog.run_cond_true]
  split
  · contradiction
  · contradiction
  · rfl

/-- The end of a drain of a function that is no collector and no model slot (R91, R125). -/
theorem drained_run (h1 : fid / 4096 ≠ 1) (h3 : fid / 4096 ≠ 3) : (Prog.drained u fid 0).run s =
    (Prog.answer u (s.fn u fid).stopper { status := stOk }).run
      ((Prog.cond (u == .htu && fid == fidPower) (.both (.each groups fun g => .wr .htu (Reg.PWR_GRP_CAP_IDX g) 15) .sequence)).run
        ((Prog.opt (s.fnStream u fid) fun sid => .both (.flushLoss u sid) (.closeChain u sid)).run
          ((Prog.setFn u fid fun f => { f with st := .stopped, stopper := none, disarm := false }).run s))) := by
  simp only [Prog.drained, Prog.run_get, beq_false_of_ne h1, beq_false_of_ne h3, Bool.false_and, Prog.run_seq_cons, Prog.run_seq_nil,
    Prog.run_cond_false]

/-- The limit of a function that does not drain, or drains without one, does not expire (R91). -/
theorem drainLimit_none (h : (s.fn u fid).st ≠ .draining ∨ (s.fn u fid).limit = 0) : (Prog.drainLimit u fid).run s = s := by
  have hc : ((s.fn u fid).st == .draining && (s.fn u fid).limit != 0) = false := by
    rcases h with h | h <;> simp [h]
  rw [Prog.drainLimit, Prog.run_get, hc, Prog.run_cond_false]

section
variable (hd : (s.fn u fid).st = .draining) (hl : (s.fn u fid).limit ≠ 0)
include hd hl

/-- A limit that expires once the work is done ends the drain (R91). -/
theorem drainLimit_done (hw : s.workDone u fid = true) : (Prog.drainLimit u fid).run s = (Prog.functionDrained u fid).run s := by
  rw [Prog.drainLimit, Prog.run_get, hd, BEq.rfl, bne_iff_ne.2 hl, Bool.and_self, Prog.run_cond_true, if_pos hw]

/-- A collector's work that is left is discarded (R91, R184). -/
theorem drainLimit_collector (hw : s.workDone u fid = false) (h1 : fid / 4096 = 1) :
    (Prog.drainLimit u fid).run s = (Prog.discardColl u (fid % 4096) (.drained u fid)).run s := by
  rw [Prog.drainLimit, Prog.run_get, hd, BEq.rfl, bne_iff_ne.2 hl, Bool.and_self, Prog.run_cond_true, if_neg (by simp [hw]), h1]
  rfl

end

/-- Settles O35: each row by whether the function drains, what it has left, and its class. -/
theorem drainedFunctionsStop : Obligations.DrainedFunctionsStop := by
  intro u fid s hr
  refine ⟨fun h => ?_, fun hd hw h4 h6 => ?_, drained_run, fun h => ?_, fun hd hl hw => ?_, fun hd hl hw h1 => ?_⟩
  · rw [exec_functionDrained hr, functionDrained_none h]
  · rw [exec_functionDrained hr, functionDrained_done hd hw h4 h6]
  · rw [exec_drainLimitExpiry hr, drainLimit_none h]
  · rw [exec_drainLimitExpiry hr, exec_functionDrained hr, drainLimit_done hd hl hw]
  · rw [exec_drainLimitExpiry hr, drainLimit_collector hd hl hw h1]

end Sys2Proof.Machine

end

section

/-! # Time commands and reset values: O17 and O6 -/

namespace Sys2Proof.Machine

section
variable {u : UnitId} {b : State} (m : Nat) (p : Packet)

/-- PULSE_CANCEL of an idle generator (R159). -/
theorem pulseCancel_idle (hg : Sparse.find (b.dev u).gens (arg p 0 1) = none) : (opPulseCancel.run u m p).run b = b.okay u m p := by
  rw [opPulseCancel, Prog.run_get]
  dsimp only
  rw [hg]
  rfl

variable {gen : Gen} (hg : Sparse.find (b.dev u).gens (arg p 0 1) = some gen)
include hg

/-- PULSE_CANCEL before the tick of the next firing (R159). -/
theorem pulseCancel_early (hd : b.genDue u (arg p 0 1) gen = false) : (opPulseCancel.run u m p).run b =
    ((Prog.idleGen u (arg p 0 1)).run ((Prog.answer u (gen.tag.map (gen.mbx, ·)) { status := stAborted }).run b)).okay u m p := by
  rw [opPulseCancel, Prog.run_get]
  dsimp only
  rw [hg]
  dsimp only
  rw [hd, Prog.run_seq_cons, Prog.run_cond_false, Prog.run_seq_cons, Prog.run_get, hg]
  rfl

/-- PULSE_CANCEL in the tick of the next firing, which happens first (R159). -/
theorem pulseCancel_due (hd : b.genDue u (arg p 0 1) gen = true) : (opPulseCancel.run u m p).run b =
    ((Prog.opt (Sparse.find (((Prog.pulseFiring u (arg p 0 1)).run b).dev u).gens (arg p 0 1)) fun gen => .both
      (.answer u (gen.tag.map (gen.mbx, ·)) { status := stAborted }) (.idleGen u (arg p 0 1))).run
        ((Prog.pulseFiring u (arg p 0 1)).run b)).okay u m p 1 := by
  rw [opPulseCancel, Prog.run_get]
  dsimp only
  rw [hg]
  dsimp only
  rw [hd]
  rfl

end

/-- Settles O17: each command has its effect from the state in which it begins. -/
theorem timeCommandsComplete : Obligations.TimeCommandsComplete := by
  refine fun _ u m p => ⟨answers_of_run rfl fun _ => rfl, answers_of_run rfl fun _ => rfl, answers_of_run rfl fun b => ?_⟩
  cases hg : Sparse.find (b.dev u).gens (arg p 0 1) with
  | none => exact pulseCancel_idle m p hg
  | some gen =>
    cases hd : b.genDue u (arg p 0 1) gen with
    | false => exact (pulseCancel_early m p hg hd).trans (if_neg (by simp [hd])).symm
    | true => exact (pulseCancel_due m p hg hd).trans (if_pos hd).symm

/-- A register that nothing has written reads its reset value (R15). -/
theorem rd_reset (u : UnitId) (f : Fld) : State.reset.rd u f = f.getW (Reg.resetWord u f.off) := by cases u <;> rfl

/-- Settles O6: each value is a field of its word in the reset table. -/
theorem resetValuesOfTheManual : Obligations.ResetValuesOfTheManual := by
  simp only [Obligations.ResetValuesOfTheManual, rd_reset]
  refine ⟨fun u => ?_, ?_⟩
  · cases u <;> decide +kernel
  · decide +kernel

end Sys2Proof.Machine

end

section

/-! # The counter of fleet time: O60 -/

namespace Sys2Proof.Machine

/-- Where the counter stands still, a tick does nothing but show the compression engines that are at work (R131, R365). -/
theorem exec_timeDomainTick_gated {s : State} {u : UnitId} (hr : (s.dev u).inReset = false) (hg : (s.dev u).gated = true) :
    exec (.timeDomainTick u) s = .next ((Prog.cond ((s.dev u).engines != []) (.showEngines u)).run s) := by
  have htick : (Prog.tick u).run s = s := by rw [Prog.tick, Prog.run_get, hg]; rfl
  refine (next_up _ hr).trans (congrArg _ ?_)
  rw [Prog.run_seq_cons, htick, Prog.run_seq_cons, Prog.run_get, bne_self_eq_false, Prog.run_cond_false, Prog.run_seq_cons, Prog.run_get,
    Prog.run_seq_nil]

/-- Showing the engines drops those whose unit is done. -/
theorem engines_showEngines (u : UnitId) (s : State) : (((Prog.showEngines u).run s).dev u).engines = (s.dev u).busyEngines := by
  simp [Prog.showEngines]

/-- A die whose clock stopped right after a planned switch: the 64 ticks of the gap passed the end of a compression engine's unit, which no
tick has shown since. -/
def stoppedAfterSwitch : State := { State.reset with h := { inReset := false, gated := true, ticks := 64, engines := [10] } }

/-- Refutes O60: a tick of a stopped counter is said to change nothing, and it drops an engine whose unit is done. -/
theorem not_theCounterAndItsSources : ¬ Obligations.TheCounterAndItsSources := by
  intro h
  have hstays := (h .htu stoppedAfterSwitch rfl).1 rfl
  rw [exec_timeDomainTick_gated rfl rfl] at hstays
  injection hstays with hstays
  have hengines := engines_showEngines .htu stoppedAfterSwitch
  rw [show (Prog.showEngines .htu).run stoppedAfterSwitch = stoppedAfterSwitch from hstays] at hengines
  exact absurd hengines (by decide)

end Sys2Proof.Machine

end

section

/-! # The reference of the VTA: O36 -/

namespace Sys2Proof.Machine

-- changes of the VTA alone

/-- A change of the registers of the VTA, of its common part or of its own part. -/
def Prog.vtaLeaf : Prog → Prop
  | .wr w _ _ | .clearRegs w _ | .dev w _ => w = .vta
  | .vta _ => True
  | _ => False

/-- What such changes leave: the HTU, the DDR5 and the entity table. -/
def State.besideVta (s : State) := (s.hregs, s.h, s.hx, s.ddr, s.entity)

section
variable {p : Prog}

@[simp] theorem vtaLeaf_wr (w : UnitId) (f : Fld) (v : Nat) : Prog.vtaLeaf (.wr w f v) ↔ w = .vta := Iff.rfl
@[simp] theorem vtaLeaf_dev (w : UnitId) (f : Dev → Dev) : Prog.vtaLeaf (.dev w f) ↔ w = .vta := Iff.rfl
@[simp] theorem vtaLeaf_vta (f : VtaX → VtaX) : Prog.vtaLeaf (.vta f) := trivial

theorem Prog.changes.besideVta (h : p.changes Prog.vtaLeaf) : p.fixes State.besideVta := by
  refine h.fixes fun q hq s => ?_
  cases q with
  | wr w => cases w with
    | htu => exact absurd hq nofun
    | vta => rfl
  | clearRegs w => cases w with
    | htu => exact absurd hq nofun
    | vta => rfl
  | dev w => cases w with
    | htu => exact absurd hq nofun
    | vta => rfl
  | vta => rfl
  | _ => exact absurd hq id

theorem msix_vtaLeaf (n : Nat) : (Prog.msix n).changes Prog.vtaLeaf := by simp [Prog.msix, Prog.send]

theorem vtaStatus_vtaLeaf (f : Fld) (v : Nat) : (Prog.vtaStatus f v).changes Prog.vtaLeaf := by simp [Prog.vtaStatus, msix_vtaLeaf]

theorem commitEv_vtaLeaf (e : EvRec) : (Prog.commitEv .vta e).changes Prog.vtaLeaf := by
  simp [Prog.commitEv, Prog.programPage, Prog.refill, Prog.evr, Prog.bump, Prog.bumpBy]

theorem event_vtaLeaf (typ : Nat) (pl : List Byte) : (Prog.event .vta typ pl).changes Prog.vtaLeaf := by
  refine ⟨by simp [Prog.foldEnd, Prog.evr, commitEv_vtaLeaf], fun s => (Prog.changes_ite _).2 ⟨fun _ => by simp [Prog.evr], fun _ => ?_⟩⟩
  split <;> simp [Prog.evr, commitEv_vtaLeaf]

end

-- the reference clock

/-- The fields that a loss or a return of the source of time writes (R153). -/
def sourceFields : List Fld :=
  [Reg.TIM_STATUS_TIMEV, Reg.TIM_STATUS_LOCK, Reg.TIM_STATUS_SRC, Reg.TIM_STATUS_HOLD, Reg.TIM_STATUS_SAFE, Reg.TIM_STATUS_LOSSES]

section
variable {g : Fld} (h : ∀ f ∈ sourceFields, g.apart f)
include h

/-- A loss of the source leaves other fields (R153). -/
theorem rd_timeSourceLost (s : State) : ((Prog.timeSourceLost .vta).run s).rd .vta g = s.rd .vta g := by
  simp only [sourceFields, List.forall_mem_cons] at h
  obtain ⟨hvalid, hlock, -, -, hsafe, hlosses, -⟩ := h
  refine Prog.changes.rd ?_ s
  simp [Prog.timeSourceLost, Prog.sourceLoss, Prog.timeLost, Prog.bump, Prog.bumpBy, hvalid, hlock, hsafe, hlosses]

/-- A return of the source leaves other fields (R153). -/
theorem rd_sourceReturn (s : State) : ((Prog.sourceReturn .vta).run s).rd .vta g = s.rd .vta g := by
  simp only [sourceFields, List.forall_mem_cons] at h
  obtain ⟨hvalid, hlock, hsrc, hhold, hsafe, -⟩ := h
  refine Prog.changes.rd ?_ s
  simp [Prog.sourceReturn, Prog.enterFree, Prog.timeValid, Prog.modServo, hvalid, hlock, hsrc, hhold, hsafe]

end


variable {s : State}

/-- A loss of the reference that is known, or one that is not, changes nothing more (R425). -/
theorem referenceLoss_run (h : s.v.inReset = false) : Prog.referenceLoss.run s =
    if s.on .vta Reg.VTA_CLK_REF_LOST = true then s else (Prog.timeSourceLost .vta).run ((((Prog.msix 8).run
      (s.wr .vta Reg.VTA_CLK_REF_LOST 1)).wr .vta Reg.VTA_CLK_PLL_RDY (s.rd .vta Reg.VTA_CLK_PLL_RDY / 2 * 2)).wr .vta
        Reg.TIM_STATUS_PLL_A_RDY 0) := by
  rw [Prog.referenceLoss, Prog.run_up s .vta _ h, Prog.run_get]
  cases s.on .vta Reg.VTA_CLK_REF_LOST <;> rfl

theorem referenceLoss_vtaLeaf : Prog.referenceLoss.changes Prog.vtaLeaf := by
  simp [Prog.referenceLoss, Prog.up, Prog.timeSourceLost, Prog.sourceLoss, Prog.timeLost, Prog.bump, Prog.bumpBy, msix_vtaLeaf]

/-- An MSI-X write leaves the registers of other words (R431). -/
theorem rd_msix (s : State) (n : Nat) {g : Fld} (h : g.off ≠ 0x3F01000) : ((Prog.msix n).run s).rd .vta g = s.rd .vta g :=
  Prog.rd_keeps (Prog.msix_keeps n) g (fun hg => h hg.2) s

/-- What a loss of the reference shows (R153, R425). -/
theorem referenceLoss_shows (h : s.v.inReset = false) (hr : s.on .vta Reg.VTA_CLK_REF_LOST = false) :
    let t := Prog.referenceLoss.run s
    t.rd .vta Reg.VTA_CLK_REF_LOST = 1 ∧ t.rd .vta Reg.VTA_CLK_PLL_RDY % 2 = 0 ∧ t.rd .vta Reg.TIM_STATUS_PLL_A_RDY = 0 := by
  dsimp only
  rw [referenceLoss_run h, if_neg (by simp [hr]), rd_timeSourceLost (by decide), rd_timeSourceLost (by decide),
    rd_timeSourceLost (by decide)]
  refine ⟨?_, ?_, State.rd_wr_same _ _ _ _ (by decide)⟩
  · rw [State.rd_wr_other _ _ _ _ _ (by decide), State.rd_wr_other _ _ _ _ _ (by decide), rd_msix _ _ (by decide),
      State.rd_wr_same _ _ _ _ (by decide)]
    rfl
  · rw [State.rd_wr_other _ _ _ _ _ (by decide), State.rd_wr_same _ _ _ _ (by decide)]
    rw [show 2 ^ Reg.VTA_CLK_PLL_RDY.width = 1024 from rfl]
    omega

/-- What REF_LOST records before the unit is reset (R425). -/
def Prog.refLostRecords (s : State) : Prog := .both (.cond (s.gorseUp .vta) (.event .vta 0x0010 (zeros 8)))
  (.cond (s.recorderOpen .vta) (.dev .vta (Dev.programOpen .vta)))

/-- A reference that has been lost for 10 ms: the records, and a reset that is held with ALERT_N asserted (R425). -/
theorem refLost_run (h : s.v.inReset = false) (hr : s.on .vta Reg.VTA_CLK_REF_LOST = true) :
    let b := (Prog.refLostRecords s).run s
    Prog.refLost.run s = (Prog.vta fun x => { x with alert := true }).run ((Prog.vtaReset false).run
      { b with vx := { b.vx with selfRef := s.on .vta Reg.VTA_STATUS_DDR_READY, refHeld := true } }) := by
  rw [Prog.refLost, Prog.run_up s .vta _ h, Prog.run_get, hr]
  rfl

/-- What it leaves. -/
theorem refLost_leaves (h : s.v.inReset = false) (hr : s.on .vta Reg.VTA_CLK_REF_LOST = true) :
    let t := Prog.refLost.run s
    t.v.inReset = true ∧ t.vx.refHeld = true ∧ t.vx.alert = true ∧ t.vx.selfRef = s.on .vta Reg.VTA_STATUS_DDR_READY ∧ t.ddr = s.ddr ∧
      t.entity = [] ∧ t.hregs = s.hregs ∧ t.h = s.h ∧ t.hx = s.hx := by
  have hb : ((Prog.refLostRecords s).run s).besideVta = s.besideVta :=
    Prog.changes.besideVta (by simp [Prog.refLostRecords, event_vtaLeaf]) s
  dsimp only
  rw [refLost_run h hr, vtaReset_run]
  generalize (Prog.refLostRecords s).run s = b at hb ⊢
  simp only [State.besideVta, Prod.mk.injEq] at hb
  obtain ⟨hregs, hh, hhx, hddr, -⟩ := hb
  exact ⟨rfl, rfl, rfl, Bool.and_true _, hddr, rfl, hregs, hh, hhx⟩

/-- The reference returns to a unit that runs: its first PLL locks (R153, R425). -/
theorem referenceReturn_shows (hh : s.vx.refHeld = false) (h : s.v.inReset = false) (hr : s.on .vta Reg.VTA_CLK_REF_LOST = true) :
    let t := Prog.referenceReturn.run s
    t.rd .vta Reg.VTA_CLK_REF_LOST = 0 ∧ t.rd .vta Reg.VTA_CLK_PLL_RDY % 2 = 1 ∧ t.rd .vta Reg.TIM_STATUS_PLL_A_RDY = 1 := by
  have hrun : Prog.referenceReturn.run s = (Prog.sourceReturn .vta).run (((s.wr .vta Reg.VTA_CLK_REF_LOST 0).wr .vta Reg.VTA_CLK_PLL_RDY
      (s.rd .vta Reg.VTA_CLK_PLL_RDY / 2 * 2 + 1)).wr .vta Reg.TIM_STATUS_PLL_A_RDY 1) := by
    rw [Prog.referenceReturn, Prog.run_get, if_neg (by simp [hh]), Prog.run_up s .vta _ h, hr, Prog.run_cond_true]
    rfl
  dsimp only
  rw [hrun, rd_sourceReturn (by decide), rd_sourceReturn (by decide), rd_sourceReturn (by decide)]
  refine ⟨?_, ?_, State.rd_wr_same _ _ _ _ (by decide)⟩
  · rw [State.rd_wr_other _ _ _ _ _ (by decide), State.rd_wr_other _ _ _ _ _ (by decide), State.rd_wr_same _ _ _ _ (by decide)]
    rfl
  · rw [State.rd_wr_other _ _ _ _ _ (by decide), State.rd_wr_same _ _ _ _ (by decide)]
    rw [show 2 ^ Reg.VTA_CLK_PLL_RDY.width = 1024 from rfl]
    omega

end Sys2Proof.Machine

end

section

/-! # The PCIe link of the VTA: O36 -/

namespace Sys2Proof.Machine

variable (s : State)

-- register words that return to their reset values

/-- Register words reset one after another: each reads its reset value, every other word what it read (R15). -/
theorem word_resetEach (u : UnitId) (l : List Nat) (f : Nat → Nat) (off : Nat) :
    ((Prog.each l fun i => .resetAt u (f i)).run s).word u off = if off ∈ l.map f then Reg.resetWord u off else s.word u off := by
  induction l generalizing s with
  | nil => rfl
  | cons a l ih =>
    rw [Prog.run_each_cons, ih, Prog.resetAt, Prog.run_wr]
    by_cases ha : off = f a
    · subst ha
      simp [State.word_wr_whole]
    · rw [State.word_wr_other _ _ _ _ (.inr ha)]
      simp [ha]

theorem resetAt_vtaLeaf (off : Nat) : (Prog.resetAt .vta off).changes Prog.vtaLeaf := rfl

theorem mb_resetAt (off m : Nat) : ((Prog.resetAt .vta off).run s).mb .vta m = s.mb .vta m := State.mb_wr ..

theorem mb_resetEach (l : List Nat) (f : Nat → Nat) (m : Nat) : ((Prog.each l fun i => .resetAt .vta (f i)).run s).mb .vta m = s.mb .vta m :=
  Prog.fixes_each (g := fun s => s.mb .vta m) (fun i _ t => mb_resetAt t (f i) m) s

-- one mailbox

/-- A mailbox whose PCIe link has gone: nothing waits in it, and the commands outstanding will not be answered (R432). -/
def Mbx.disconnect (b : Mbx) : Mbx :=
  { b with
    words := [], spilled := false, waiting := [], replies := [], keyEx := false, bound := false
    outst := b.outst.map fun o => { o with discard := true } }

theorem Mbx.disconnect_disconnect (b : Mbx) : b.disconnect.disconnect = b.disconnect := by simp [Mbx.disconnect]

/-- The PCIe link of one mailbox goes: it is emptied, and its registers are reset (R432). -/
def Prog.disconnect (m : Nat) : Prog :=
  .both (.modMb .vta m Mbx.disconnect) (.each (List.range 8) fun i => .resetAt .vta (0x1000 + 256 * m + 8 * i))

theorem mb_disconnect (m : Nat) : ((Prog.disconnect m).run s).mb .vta m = (s.mb .vta m).disconnect := by
  rw [Prog.disconnect, Prog.run_both, mb_resetEach, State.mb_modMb]

theorem mb_disconnect_other {m n : Nat} (h : n ≠ m) : ((Prog.disconnect m).run s).mb .vta n = s.mb .vta n := by
  rw [Prog.disconnect, Prog.run_both, mb_resetEach, State.mb_modMb_other _ _ _ _ _ _ (.inr h)]

theorem open_disconnect {m : Nat} (hm : m < 8) : ((Prog.disconnect m).run s).rd .vta (Reg.MBX_STATUS_OPEN m) = 0 := by
  have hreset : ∀ m < 8, (Reg.MBX_STATUS_OPEN m).getW (Reg.resetWord .vta (Reg.MBX_STATUS_OPEN m).off) = 0 := by decide +kernel
  rw [State.rd, Prog.disconnect, Prog.run_both, word_resetEach, if_pos (List.mem_map.2 ⟨3, by decide, by simp [Reg.MBX_STATUS_OPEN]; omega⟩)]
  exact hreset m hm

theorem open_disconnect_other {m n : Nat} (h : n ≠ m) :
    ((Prog.disconnect m).run s).rd .vta (Reg.MBX_STATUS_OPEN n) = s.rd .vta (Reg.MBX_STATUS_OPEN n) := by
  rw [State.rd, Prog.disconnect, Prog.run_both, word_resetEach, if_neg ?_]
  · exact State.rd_modMb s .vta .vta m _ _
  · simp only [List.mem_map, List.mem_range, Reg.MBX_STATUS_OPEN]
    omega

-- all of them

/-- What mailbox `m` holds, and whether it is open. -/
def State.linked (m : Nat) (s : State) : Mbx × Nat := (s.mb .vta m, s.rd .vta (Reg.MBX_STATUS_OPEN m))

/-- Mailboxes 0 to 7 go with the link. -/
theorem linked_disconnectAll {m : Nat} (hm : m < 8) :
    ((Prog.each (List.range 8) .disconnect).run s).linked m = ((s.mb .vta m).disconnect, 0) := by
  refine (each_reaches (read := State.linked) (goal := fun m => ((s.mb .vta m).disconnect, 0))
    (inv := fun t => ∀ n, (t.mb .vta n).disconnect = (s.mb .vta n).disconnect) (List.range 8) (fun k _ t ht n => ?_) (fun k hk t ht => ?_)
    (fun k _ c _ hne t => ?_) s fun _ => rfl).2 m (List.mem_range.2 hm)
  · by_cases hn : n = k
    · rw [hn, mb_disconnect, Mbx.disconnect_disconnect, ht]
    · rw [mb_disconnect_other _ hn, ht]
  · exact Prod.ext ((mb_disconnect t k).trans (ht k)) (open_disconnect t (List.mem_range.1 hk))
  · exact Prod.ext (mb_disconnect_other t hne) (open_disconnect_other t hne)

theorem mb_disconnectAll {m : Nat} (hm : 8 ≤ m) : ((Prog.each (List.range 8) .disconnect).run s).mb .vta m = s.mb .vta m :=
  Prog.fixes_each (g := fun s => s.mb .vta m) (fun k hk t => mb_disconnect_other t (by have := List.mem_range.1 hk; omega)) s

theorem vx_disconnectAll : ((Prog.each (List.range 8) .disconnect).run s).vx = s.vx :=
  Prog.vtaKeeps.run (g := id) (by simp [Prog.disconnect, Prog.modMb, Prog.resetAt]) s

theorem disconnectAll_vtaLeaf : (Prog.each (List.range 8) .disconnect).changes Prog.vtaLeaf := by
  simp [Prog.disconnect, Prog.modMb, resetAt_vtaLeaf]

/-- The interrupt table and the halves held for the PCIe host are reset with the controller, and the link shows closed (R427, R432). -/
def Prog.resetPcie : Prog := .seq [
  .each (List.range 64) fun i => .resetAt .vta (0x3F00000 + 8 * i),
  .resetAt .vta Reg.MSIX_PBA_PENDING.off,
  .dev .vta fun d => { d with
    hiLatch := d.hiLatch.filter fun e => e.1 != .pcie, loHeld := d.loHeld.filter fun e => e.1 != .pcie },
  .vta fun x => { x with pcieUp := false },
  .vtaStatus Reg.VTA_STATUS_PCIE_OPEN 0]

/-- A link-down: the mailboxes, then the controller (R432). -/
theorem pcieDown_run (h : s.v.inReset = false) :
    Prog.pcieDown.run s = Prog.resetPcie.run ((Prog.each (List.range 8) .disconnect).run s) := by
  rw [Prog.pcieDown, Prog.run_up s .vta _ h]
  rfl

theorem resetPcie_vtaLeaf : Prog.resetPcie.changes Prog.vtaLeaf := by
  simp [Prog.resetPcie, resetAt_vtaLeaf, vtaStatus_vtaLeaf]

theorem resetPcie_status : Prog.resetPcie.changes (Prog.statusLeaf [Reg.VTA_STATUS_PCIE_OPEN]) := by
  have hpast (off : Nat) (h : 0x3F00000 ≤ off) : (Prog.resetAt .vta off).changes (Prog.statusLeaf [Reg.VTA_STATUS_PCIE_OPEN]) := fun _ =>
    .inr (pastBoot_of (show 0x1818 ≤ off by omega) (show off ≠ 0x80000 by omega))
  simp [Prog.resetPcie, hpast, vtaStatus_status, Reg.MSIX_PBA_PENDING]

theorem mb_vtaStatus (f : Fld) (v m : Nat) : ((Prog.vtaStatus f v).run s).mb .vta m = s.mb .vta m := by
  rw [Prog.vtaStatus, Prog.run_get, Prog.run_cond]
  split
  · rw [Prog.run_both, State.mb_msix, Prog.run_wr, State.mb_wr]
  · rfl

theorem mb_resetPcie (m : Nat) : (Prog.resetPcie.run s).mb .vta m = s.mb .vta m :=
  Prog.fixes_seq_cons (g := fun s => s.mb .vta m) (fun t => mb_resetEach t _ _ m) (Prog.fixes_seq_cons (fun t => mb_resetAt t _ m)
    (Prog.fixes_seq_cons (fun _ => rfl) (Prog.fixes_seq_cons (fun _ => rfl) (Prog.fixes_seq_cons (fun t => mb_vtaStatus t _ _ m)
      Prog.fixes_seq_nil)))) s

theorem vx_resetPcie : (Prog.resetPcie.run s).vx = { s.vx with pcieUp := false } := by
  rw [Prog.resetPcie, Prog.run_seq_cons, Prog.run_seq_cons, Prog.run_seq_cons, Prog.run_seq_cons, Prog.run_seq_cons, Prog.run_seq_nil,
    vtaStatus_vx]
  have hvx : ((Prog.each (List.range 64) fun i => .resetAt .vta (0x3F00000 + 8 * i)).run s).vx = s.vx :=
    Prog.vtaKeeps.run (g := id) (by simp [Prog.resetAt]) s
  rw [Prog.run_vta, Prog.run_dev, Prog.resetAt, Prog.run_wr, State.modDev_vx, State.wr_vx, hvx]

theorem pcieOpen_resetPcie : (Prog.resetPcie.run s).rd .vta Reg.VTA_STATUS_PCIE_OPEN = 0 := by
  rw [Prog.resetPcie, Prog.run_seq_cons, Prog.run_seq_cons, Prog.run_seq_cons, Prog.run_seq_cons, Prog.run_seq_cons, Prog.run_seq_nil,
    vtaStatus_same _ (by decide) rfl (by decide)]

/-- What a link-down leaves of the mailboxes and of the rest (R427, R432). -/
theorem pcieDown_leaves (h : s.v.inReset = false) :
    let t := Prog.pcieDown.run s
    t.vx = { s.vx with pcieUp := false } ∧ t.on .vta Reg.VTA_STATUS_PCIE_OPEN = false ∧
      (∀ m < 8, t.rd .vta (Reg.MBX_STATUS_OPEN m) = 0 ∧ t.mb .vta m = (s.mb .vta m).disconnect) ∧
      (∀ m, 8 ≤ m → t.mb .vta m = s.mb .vta m) ∧ t.besideVta = s.besideVta := by
  dsimp only
  rw [pcieDown_run s h]
  refine ⟨?_, ?_, fun m hm => ?_, fun m hm => ?_, ?_⟩
  · rw [vx_resetPcie, vx_disconnectAll]
  · rw [State.on, pcieOpen_resetPcie, bne_self_eq_false]
  · have hlinked := linked_disconnectAll s hm
    rw [State.linked, Prod.mk.injEq, and_comm] at hlinked
    rw [mb_resetPcie, resetPcie_status.statusRd _ (early_of (show 0x1018 + 256 * m < 0x1818 by omega))
      (List.forall_mem_singleton.2 (.inl (show 0x1018 + 256 * m ≠ 0 by omega)))]
    exact hlinked
  · rw [mb_resetPcie, mb_disconnectAll s hm]
  · rw [resetPcie_vtaLeaf.besideVta, disconnectAll_vtaLeaf.besideVta]

-- the link comes up

/-- A link that comes up opens its mailboxes where the unit has started that far (R428, R432). -/
theorem pcieLinkUp_run (h : s.v.inReset = false) : Prog.pcieLinkUp.run s =
    (Prog.cond (s.gorseUp .vta && s.recorderOpen .vta && s.on .vta Reg.SEC_STATE_UDS_LOCK
      && [0, 5, 7].contains (s.rd .vta Reg.VTA_STATUS_BOOT_FAIL)) .openPcie).run ((Prog.vta fun x => { x with pcieUp := true }).run s) := by
  rw [Prog.pcieLinkUp, Prog.run_up s .vta _ h]
  rfl

theorem openPcie_vtaLeaf : Prog.openPcie.changes Prog.vtaLeaf := by
  simp [Prog.openPcie, Prog.openMbx, Prog.modMb, vtaStatus_vtaLeaf]

/-- What a link-up leaves (R432). -/
theorem pcieLinkUp_leaves (h : s.v.inReset = false) :
    let t := Prog.pcieLinkUp.run s
    t.vx.pcieUp = true ∧ t.besideVta = s.besideVta := by
  dsimp only
  rw [pcieLinkUp_run s h, Prog.run_cond]
  split
  · exact ⟨congrArg VtaX.pcieUp (openPcie_leaves _).2.1, openPcie_vtaLeaf.besideVta _⟩
  · exact ⟨rfl, rfl⟩

theorem exec_pcieLinkDown (h : s.v.inReset = false) : exec .pcieLinkDown s = .next (Prog.pcieDown.run s) := next_up _ h

theorem exec_pcieLinkUp (h : s.v.inReset = false) : exec .pcieLinkUp s = .next (Prog.pcieLinkUp.run s) := next_up _ h

/-- Settles O36: the reference by whether its loss is known, the link by what each mailbox holds after it. -/
theorem referenceAndPcieEvents : Obligations.ReferenceAndPcieEvents := by
  refine ⟨fun s => ⟨fun h hr => ?_, fun h hr => ⟨_, rfl, ?_⟩, fun h hr => ?_, fun h hr => ⟨_, rfl, refLost_leaves h hr⟩, fun hh => ?_,
    fun hh h hr => ⟨_, rfl, referenceReturn_shows hh h hr⟩⟩,
    fun s h => ⟨rfl, ⟨_, exec_pcieLinkDown s h, ?_⟩, ⟨_, exec_pcieLinkUp s h, ?_⟩⟩⟩
  · exact next_of ((referenceLoss_run h).trans (if_pos hr))
  · have hb := referenceLoss_vtaLeaf.besideVta s
    simp only [State.besideVta, Prod.mk.injEq] at hb
    obtain ⟨hregs, hh, hhx, hddr, -⟩ := hb
    obtain ⟨hlost, hpll, hready⟩ := referenceLoss_shows h hr
    exact ⟨hlost, hpll, hready, hregs, hh, hhx, hddr⟩
  · refine next_of ?_
    rw [Prog.refLost, Prog.run_up s .vta _ h, Prog.run_get, hr, Prog.run_cond_false]
  · refine next_of ?_
    rw [Prog.referenceReturn, Prog.run_get, if_pos hh]
    rfl
  · obtain ⟨hvx, hopen, hmbx, hother, hb⟩ := pcieDown_leaves s h
    simp only [State.besideVta, Prod.mk.injEq] at hb
    obtain ⟨hregs, hh, -, hddr, hentity⟩ := hb
    refine ⟨hvx, hopen, fun m hm => ?_, hother, hddr, hentity, hh, hregs⟩
    obtain ⟨hclosed, hmb⟩ := hmbx m hm
    rw [hmb]
    exact ⟨hclosed, rfl, rfl, rfl, rfl, rfl⟩
  · obtain ⟨hup, hb⟩ := pcieLinkUp_leaves s h
    simp only [State.besideVta, Prod.mk.injEq] at hb
    obtain ⟨hregs, hh, -, hddr, -⟩ := hb
    refine ⟨hup, hddr, hh, hregs, fun hg hrec huds hboot => ?_⟩
    rw [pcieLinkUp_run s h, hg, hrec, huds, hboot]
    obtain ⟨hopen, -, hmbx⟩ := openPcie_leaves ((Prog.vta fun x => { x with pcieUp := true }).run s)
    rw [show (true && true && true && [0, 5, 7].contains 0) = true from rfl, Prog.run_cond_true]
    exact ⟨bne_iff_ne.2 (by rw [hopen]; decide), fun m hm => Prod.ext_iff.1 (hmbx m hm)⟩

end Sys2Proof.Machine

end

section

/-! # Time messages on a Furrow port: O59 -/

namespace Sys2Proof.Machine

section
variable (s : State) (u : UnitId) (k : Nat)

-- servos

@[simp] theorem servo_modServo (f : Servo → Servo) : ((Prog.modServo u k f).run s).servo u k = f (s.servo u k) := by
  simp [Prog.modServo, State.servo]

@[simp] theorem servo_wr (w : UnitId) (f : Fld) (v : Nat) : (s.wr w f v).servo u k = s.servo u k := by simp [State.servo]
@[simp] theorem rd_modServo (w : UnitId) (g : Fld) (f : Servo → Servo) : ((Prog.modServo u k f).run s).rd w g = s.rd w g :=
  State.modDev_rd ..
@[simp] theorem on_modServo (w : UnitId) (g : Fld) (f : Servo → Servo) : ((Prog.modServo u k f).run s).on w g = s.on w g :=
  State.modDev_on ..
@[simp] theorem hregs_modServo (f : Servo → Servo) : ((Prog.modServo u k f).run s).hregs = s.hregs := State.modDev_hregs ..

-- SYNC

/-- What a SYNC says of the master's time and of its own arrival (R138, R142). -/
def Servo.synced (m : TimeMsg) (t2 : Nat) (v : Servo) : Servo :=
  { v with t1 := m.ts, t2 := t2, sync := true, mTimev := m.timev, mInc := m.inc }

/-- The exchanges before a SYNC with TIMEV = 0 count no more (R142). -/
def Servo.discounted (v : Servo) : Servo := { v with good := 0, bad := 0 }

variable {k} (m : TimeMsg) (t2 : Nat)

/-- A master takes no SYNC (R136). -/
theorem syncRx_vta : (Prog.syncRx .vta k m t2).run s = s := rfl

/-- A SYNC on a port that does not set the time is stamped (R138). -/
theorem syncRx_passive (h : s.timePort .htu ≠ some k) : (Prog.syncRx .htu k m t2).run s = (Prog.modServo .htu k (·.synced m t2)).run s := by
  rw [Prog.syncRx, Prog.run_get, beq_false_of_ne h]
  rfl

/-- A SYNC with TIMEV = 1 on the active port shows the master's holdover (R142). -/
theorem syncRx_valid (h : s.timePort .htu = some k) (hv : m.timev = true) : (Prog.syncRx .htu k m t2).run s =
    ((Prog.modServo .htu k (·.synced m t2)).run s).wr .htu Reg.TIM_STATUS_UP_HOLD m.hold.toNat := by
  rw [Prog.syncRx, Prog.run_get, h, BEq.rfl]
  simp only [Servo.synced, hv]
  rfl

/-- One with TIMEV = 0 clears TIMEV and LOCK too (R142). -/
theorem syncRx_invalid (h : s.timePort .htu = some k) (hv : m.timev = false) : (Prog.syncRx .htu k m t2).run s =
    ((Prog.modServo .htu k Servo.discounted).run ((((Prog.modServo .htu k (·.synced m t2)).run s).wr .htu Reg.TIM_STATUS_TIMEV 0).wr .htu
      Reg.TIM_STATUS_LOCK 0)).wr .htu Reg.TIM_STATUS_UP_HOLD m.hold.toNat := by
  rw [Prog.syncRx, Prog.run_get, h, BEq.rfl]
  simp only [Servo.synced, hv]
  rfl

/-- What the HTU keeps of a SYNC, and the flags of its active port (R138, R142). -/
theorem syncRx_shows :
    let t := (Prog.syncRx .htu k m t2).run s
    t.servo .htu k = { s.servo .htu k with
      t1 := m.ts, t2, sync := true, mTimev := m.timev, mInc := m.inc
      good := if s.timePort .htu = some k ∧ m.timev = false then 0 else (s.servo .htu k).good
      bad := if s.timePort .htu = some k ∧ m.timev = false then 0 else (s.servo .htu k).bad } ∧
    (s.timePort .htu ≠ some k → t.hregs = s.hregs) ∧
    (s.timePort .htu = some k → t.rd .htu Reg.TIM_STATUS_UP_HOLD = m.hold.toNat ∧
      (m.timev = false → t.timev .htu = false ∧ t.on .htu Reg.TIM_STATUS_LOCK = false) ∧
      (m.timev = true → t.timev .htu = s.timev .htu ∧ t.on .htu Reg.TIM_STATUS_LOCK = s.on .htu Reg.TIM_STATUS_LOCK)) := by
  have hhold : m.hold.toNat % 2 ^ Reg.TIM_STATUS_UP_HOLD.width = m.hold.toNat := by cases m.hold <;> rfl
  dsimp only
  by_cases h : s.timePort .htu = some k
  · cases hv : m.timev with
    | false =>
      rw [syncRx_invalid s m t2 h hv]
      refine ⟨?_, fun hn => absurd h hn, fun _ => ⟨?_, fun _ => ⟨?_, ?_⟩, nofun⟩⟩
      · simp [h, Servo.synced, Servo.discounted, hv]
      · rw [State.rd_wr_same _ _ _ _ (by decide), hhold]
      · simp (disch := decide) [State.timev, State.on, State.rd_wr_other, State.rd_wr_same]
      · simp (disch := decide) [State.on, State.rd_wr_other, State.rd_wr_same]
    | true =>
      rw [syncRx_valid s m t2 h hv]
      refine ⟨?_, fun hn => absurd h hn, fun _ => ⟨?_, nofun, fun _ => ⟨?_, ?_⟩⟩⟩
      · simp [Servo.synced, hv]
      · rw [State.rd_wr_same _ _ _ _ (by decide), hhold]
      · simp (disch := decide) [State.timev, State.on, State.rd_wr_other]
      · simp (disch := decide) [State.on, State.rd_wr_other]
  · rw [syncRx_passive s m t2 h]
    refine ⟨?_, fun _ => by simp, fun hn => absurd hn h⟩
    simp [h, Servo.synced]

end

-- the rows

section
variable {s : State} {u : UnitId} {k : Nat} (m : TimeMsg) (hk : k < portCount u) (hr : (s.dev u).inReset = false)
include hk hr

theorem exec_sync (sub : Nat) : exec (.sync u k m sub) s = .next ((Prog.syncRx u k m (s.stampAt u sub)).run s) :=
  next_port (.get fun s => .syncRx u k m (s.stampAt u sub)) hk hr

theorem exec_dlyReq (sub : Nat) : exec (.dlyReq u k m sub) s = .next ((Prog.dlyReqRx u k m (s.stampAt u sub)).run s) :=
  next_port (.get fun s => .dlyReqRx u k m (s.stampAt u sub)) hk hr

theorem exec_dlyResp : exec (.dlyResp u k m) s = .next ((Prog.settle u).run ((Prog.dlyRespRx u k m).run s)) :=
  next_port (.thenSettle u (.dlyRespRx u k m)) hk hr

theorem exec_exchangeInterval : exec (.exchangeInterval u k) s = .next ((Prog.exchangeTick u k).run s) :=
  next_port (.exchangeTick u k) hk hr

end

section
variable (s : State) {u : UnitId} {k : Nat} (m : TimeMsg)

/-- A DLY_REQ reaches a port that is no master (R136). -/
theorem dlyReqRx_slave (t4 : Nat) (h : isMaster u k = false) : (Prog.dlyReqRx u k m t4).run s = s := by
  rw [Prog.dlyReqRx, Prog.run_get, h, Prog.run_cond_false]

/-- A master answers it (R137, R138). -/
theorem dlyReqRx_master (t4 : Nat) (h : isMaster u k = true) : (Prog.dlyReqRx u k m t4).run s =
    (Prog.modPort u k fun p => { p with time := p.time ++ [timeBytes 3 (s.timeFlags u) m.seq t4 0] }).run s := by
  rw [Prog.dlyReqRx, Prog.run_get, h, Prog.run_cond_true]
  rfl

/-- A DLY_RESP that was not asked for, or that no SYNC came before, is discarded (R138, R139). -/
theorem dlyRespRx_discarded (h : u = .vta ∨ (s.servo u k).t3 = none ∨ (s.servo u k).sync = false) : (Prog.dlyRespRx u k m).run s = s := by
  rw [Prog.dlyRespRx, Prog.run_get]
  cases u with
  | vta => rfl
  | htu =>
    rw [show isSlave .htu = true from rfl, Prog.run_cond_true]
    cases ht : (s.servo .htu k).t3 with
    | none => rfl
    | some t3 =>
      have hs : (s.servo .htu k).sync = false := by simpa [ht] using h
      dsimp only
      rw [hs, Bool.and_false, Prog.run_cond_false]

variable {q t3 : Nat} (ht : (s.servo .htu k).t3 = some (q, t3))
include ht

/-- One whose SEQ is another's is discarded (R138). -/
theorem dlyRespRx_otherSeq (hq : q ≠ m.seq) : (Prog.dlyRespRx .htu k m).run s = s := by
  rw [Prog.dlyRespRx, Prog.run_get, show isSlave .htu = true from rfl, Prog.run_cond_true, ht]
  dsimp only
  rw [beq_false_of_ne hq, Bool.false_and, Prog.run_cond_false]

/-- One that was asked for completes the exchange (R139). -/
theorem dlyRespRx_completes (hs : (s.servo .htu k).sync = true) (hq : q = m.seq) : (Prog.dlyRespRx .htu k m).run s =
    (Prog.exchange .htu k t3 m.ts (s.asym k) (s.exchInterval .htu k)).run s := by
  rw [Prog.dlyRespRx, Prog.run_get, show isSlave .htu = true from rfl, Prog.run_cond_true, ht]
  dsimp only
  rw [hs, hq, BEq.rfl, Bool.and_self, Prog.run_cond_true]

end

-- the exchange interval

section
variable (s : State) (u : UnitId) (k : Nat)

/-- A port that is not UP has no exchanges (R136). -/
theorem exchangeTick_down (h : s.rd u (Reg.FUR_PORT_STATE k) ≠ portUp) : (Prog.exchangeTick u k).run s = s := by
  rw [Prog.exchangeTick, Prog.run_get, beq_false_of_ne (show s.rd u (Reg.FUR_PORT_STATE k) ≠ 3 from h), Prog.run_cond_false]

/-- An UP port sends what it is to send, and its servo counts the interval (R136, R141). -/
theorem exchangeTick_up (h : s.rd u (Reg.FUR_PORT_STATE k) = portUp) :
    let t := (Prog.exchangeTick u k).run s
    (t.servo u k).missed = (s.servo u k).missed + 1 ∧ (t.servo u k).sinceV = (s.servo u k).sinceV + 1 ∧
      (t.servo u k).seqOut = ((s.servo u k).seqOut + 1) % 65536 ∧
      (t.port u k).time = (s.port u k).time
        ++ (if isMaster u k then [timeBytes 1 (s.timeFlags u) (s.servo u k).seqOut 0 (s.rd u Reg.TIM_INC_INC)] else [])
        ++ (if isSlave u then [timeBytes 2 (s.timeFlags u) (s.servo u k).seqOut 0 0] else []) ∧
      t.hregs = s.hregs ∧ t.vregs = s.vregs := by
  have hup : (s.rd u (Reg.FUR_PORT_STATE k) == 3) = true := beq_iff_eq.2 h
  dsimp only
  rw [Prog.exchangeTick, Prog.run_get, hup, Prog.run_cond_true]
  cases isMaster u k <;> cases isSlave u <;> simp [Prog.sendTime, Prog.modPort, Prog.modServo, State.servo, State.port]

end

end Sys2Proof.Machine

end

section

/-! # What a step of fleet time leaves alone: O59

A forward step completes the instants that it passes over, and a pulse generator among them answers its command. The statement ranges over
every state, and so over generators that name a mailbox which the unit does not have: the interrupt bit of mailbox 16 would lie in TIM_DELAY.
Such an answer is the one that settling gives an entry passed over, so that a state before it, with such an entry, settles alike. -/

namespace Sys2Proof.Machine

section
variable {α : Type} {l : List (Nat × α)} {j k : Nat} {a b : α}

/-- Values put under two numbers, in either order. -/
theorem Sparse.put_comm (l : List (Nat × α)) (a b : α) (h : j ≠ k) : Sparse.put (Sparse.put l j a) k b = Sparse.put (Sparse.put l k b) j a := by
  induction l with
  | nil => grind [Sparse.put]
  | cons e t ih => grind [Sparse.put]

/-- A value that stands in its place stands there when another number is taken out. -/
theorem Sparse.put_del_of_put (hl : Sparse.put l k a = l) (h : j ≠ k) : Sparse.put (Sparse.del l j) k a = Sparse.del l j := by
  induction l with
  | nil => cases hl
  | cons e t ih =>
    obtain ⟨i, w⟩ := e
    simp only [Sparse.put] at hl
    split_ifs at hl with hlt heq
    · exact absurd (congrArg List.length hl) (by simp)
    · subst heq
      obtain rfl : a = w := by simpa using hl
      simp [Sparse.del, Sparse.put, h.symm]
    · have ht := ih (by simpa using hl)
      by_cases hi : i = j
      · simpa [Sparse.del, hi] using ht
      · simpa [Sparse.del, hi, Sparse.put, hlt, heq] using ht

/-- It stands there when another number takes a value. -/
theorem Sparse.put_set_of_put [DecidableEq α] (d : α) (hl : Sparse.put l k a = l) (h : j ≠ k) (b : α) :
    Sparse.put (Sparse.set d l j b) k a = Sparse.set d l j b := by
  unfold Sparse.set
  split
  · exact Sparse.put_del_of_put hl h
  · rw [Sparse.put_comm _ _ _ h, hl]

end

-- the clock

/-- The counter of a unit, what has set it, and what may set it next. -/
def Dev.clock (d : Dev) := (d.cnt, d.sw, d.stepped, d.timeSet, d.servos)

/-- The same of the HTU, with the status of fleet time and INC. -/
def State.clock (s : State) := (s.word .htu 0x2000, s.word .htu 0x2018, s.h.clock)

/-- A change beside the clock of the HTU. -/
def Prog.clockLeaf : Prog → Prop
  | .wr w f _ => w = .htu → f.off ≠ 0x2000 ∧ f.off ≠ 0x2018
  | .dev w f => w = .htu → ∀ d, (f d).clock = d.clock
  | .clearRegs _ _ | .get _ | .both _ _ => False
  | _ => True

@[simp] theorem clockLeaf_wr (w : UnitId) (f : Fld) (v : Nat) :
    Prog.clockLeaf (.wr w f v) ↔ (w = .htu → f.off ≠ 0x2000 ∧ f.off ≠ 0x2018) := Iff.rfl
@[simp] theorem clockLeaf_dev (w : UnitId) (f : Dev → Dev) : Prog.clockLeaf (.dev w f) ↔ (w = .htu → ∀ d, (f d).clock = d.clock) := Iff.rfl

theorem Prog.changes.clock {p : Prog} (h : p.changes Prog.clockLeaf) : p.fixes State.clock := by
  refine h.fixes fun q hq s => ?_
  cases q with
  | wr w f v =>
    have hword (off : Nat) (ho : w = .htu → f.off ≠ off) : (s.wr w f v).word .htu off = s.word .htu off := by
      apply State.word_wr_other
      by_cases hw : w = .htu
      · exact .inr (ho hw).symm
      · exact .inl (Ne.symm hw)
    rw [State.clock, Prog.run_wr, hword _ fun hw => (hq hw).1, hword _ fun hw => (hq hw).2, State.wr_h]
    rfl
  | dev w f =>
    cases w with
    | htu => exact congrArg (fun c => (s.word .htu 0x2000, s.word .htu 0x2018, c)) (hq rfl s.h)
    | vta => rfl
  | clearRegs => exact absurd hq id
  | get => exact absurd hq id
  | both => exact absurd hq id
  | _ => rfl

/-- A reply on a mailbox leaves the clock (R73, R87). -/
theorem reply_clock (m : Nat) (tag : BitVec 16) (a : Ans) : (Prog.reply .htu m tag a).changes Prog.clockLeaf := by
  have h0 : 0x1020 + 256 * m ≠ 0x2000 := by omega
  have h1 : 0x1020 + 256 * m ≠ 0x2018 := by omega
  simp [Prog.reply, Prog.postReply, Prog.sendPkt, Prog.modMb, Prog.mbxIrq, Prog.irqEdge, Prog.send, Reg.MBX_IRQ_STATUS_NOTIFY_REPLY,
    Dev.clock, h0, h1]

theorem answer_clock (c : Option (Nat × BitVec 16)) (a : Ans) : (Prog.answer .htu c a).changes Prog.clockLeaf := by
  simp [Prog.answer, reply_clock]

-- generators and their schedule

/-- A change of the HTU's generators or of its schedule: the registers past 0x2200, and neither the clock nor a mailbox. -/
def Prog.pulseLeaf : Prog → Prop
  | .wr w f _ => w = .htu ∧ 0x2200 ≤ f.off
  | .dev w f => w = .htu ∧ ∀ d, (f d).clock = d.clock ∧ (f d).mbx = d.mbx
  | _ => False

@[simp] theorem pulseLeaf_wr (w : UnitId) (f : Fld) (v : Nat) : Prog.pulseLeaf (.wr w f v) ↔ w = .htu ∧ 0x2200 ≤ f.off := Iff.rfl
@[simp] theorem pulseLeaf_dev (w : UnitId) (f : Dev → Dev) :
    Prog.pulseLeaf (.dev w f) ↔ w = .htu ∧ ∀ d, (f d).clock = d.clock ∧ (f d).mbx = d.mbx := Iff.rfl

/-- Such changes leave the clock. -/
theorem Prog.changes.pulseClock {p : Prog} (h : p.changes Prog.pulseLeaf) : p.changes Prog.clockLeaf := by
  refine h.mono fun q hq => ?_
  cases q with
  | wr w f v => exact fun _ => by have := hq.2; omega
  | dev w f => exact fun _ d => (hq.2 d).1
  | _ => exact absurd hq id

theorem schedule_pulse (e : Sched) : (Prog.schedule .htu e).changes Prog.pulseLeaf := ⟨rfl, fun _ => ⟨rfl, rfl⟩⟩

theorem unschedule_pulse (e : Sched) : (Prog.unschedule .htu e).changes Prog.pulseLeaf := ⟨rfl, fun _ => ⟨rfl, rfl⟩⟩

/-- A generator goes on to its next firing, or ends (R158). -/
theorem advanceGen_pulse (g n : Nat) : (Prog.advanceGen .htu g n).changes Prog.pulseLeaf := by
  have hcount : 0x2200 ≤ (Reg.TIM_PULSE_COUNT g).off := Nat.le_add_right ..
  have hstate : 0x2200 ≤ (Reg.TIM_PULSE_STATE g).off := Nat.le_add_right ..
  have hnext : 0x2200 ≤ (Reg.TIM_PULSE_NEXT g).off := Nat.le_add_right_of_le (by decide)
  simp [Prog.advanceGen, Prog.idleGen, Prog.dropSnap, Prog.armSnap, schedule_pulse, unschedule_pulse, Dev.clock, hcount, hstate, hnext]

/-- Its skipped firings are counted (R158). -/
theorem countSkipped_pulse (g n : Nat) : (Prog.count .htu (Reg.TIM_PULSE_SKIPPED g) n).changes Prog.pulseLeaf :=
  fun _ => ⟨rfl, Nat.le_add_right_of_le (by decide)⟩

/-- What a step passes over: entries of the comparators, and then firings of the generators (R143). -/
theorem passOver_run (s : State) (lo hi : Nat) : ∃ (p : Prog) (l : List Nat), p.changes Prog.pulseLeaf ∧
    (Prog.passOver .htu lo hi).run s = (Prog.each l fun g => .skipFirings .htu g hi).run (p.run s) := by
  rw [Prog.passOver, Prog.run_get, Prog.run_seq_cons, Prog.run_seq_cons, Prog.run_seq_nil]
  refine ⟨_, _, (Prog.changes_each _ _).2 fun e _ => ?_, rfl⟩
  obtain ⟨t, kind, cmd⟩ := e
  cases kind <;> simp [schedule_pulse, unschedule_pulse, Dev.clock]

/-- The firings of a generator that a step passes over: counted, answered, and over (R151, R158). -/
theorem skipFirings_run (s : State) (g hi : Nat) : (Prog.skipFirings .htu g hi).run s = s ∨
    ∃ (gen : Gen) (n : Nat), (Prog.skipFirings .htu g hi).run s = (Prog.advanceGen .htu g n).run
      ((Prog.answer .htu (gen.tag.map (gen.mbx, ·)) { status := stDeadline }).run ((Prog.count .htu (Reg.TIM_PULSE_SKIPPED g) n).run s)) := by
  rw [Prog.skipFirings, Prog.run_get]
  cases Sparse.find (s.dev .htu).gens g with
  | none => exact .inl rfl
  | some gen =>
    rw [Prog.run_opt_some, Prog.run_cond]
    split
    · exact .inr ⟨gen, _, rfl⟩
    · exact .inl rfl

/-- A step passes over instants without a change of the clock. -/
theorem passOver_clock (s : State) (lo hi : Nat) : ((Prog.passOver .htu lo hi).run s).clock = s.clock := by
  obtain ⟨p, l, hp, hrun⟩ := passOver_run s lo hi
  rw [hrun, Prog.fixes_each (g := State.clock) (fun g _ t => ?_), hp.pulseClock.clock]
  rcases skipFirings_run t g hi with h | ⟨gen, n, h⟩
  · rw [h]
  · rw [h, (advanceGen_pulse g n).pulseClock.clock, (answer_clock _ _).clock, (countSkipped_pulse g n).pulseClock.clock]

-- answers to a mailbox that the unit does not have

/-- The interrupt bit that a mailbox with number 16 would have lies in TIM_DELAY. -/
def notify16 : Fld := Reg.MBX_IRQ_STATUS_NOTIFY_REPLY 16

/-- That bit, once raised. -/
theorem setW_notify16_idem (w : Word) : notify16.setW (notify16.setW w 1) 1 = notify16.setW w 1 := by
  refine BitVec.eq_of_getLsbD_eq fun i hi => ?_
  simp only [Fld.getLsbD_setW _ _ _ i hi]
  split_ifs <;> rfl

/-- The word with that bit is none that the list leaves out. -/
theorem setW_notify16_ne (w : Word) : notify16.setW w 1 ≠ Reg.resetWord .htu notify16.off := by
  intro h
  have hbit := congrArg (·.getLsbD 32) h
  rw [Fld.getLsbD_setW _ _ _ 32 (by decide), show (Reg.resetWord .htu notify16.off).getLsbD 32 = false by decide +kernel] at hbit
  cases hbit

/-- The state after a reply to mailbox 16 has raised that bit in the word that held `w`: the reply to `o` is the latest of the mailbox, and
register words and mailboxes stand in their places. -/
structure State.Noted (w : Word) (t : State) (o : Outst) (old : List (List Word × Nat)) : Prop where
  word : t.word .htu notify16.off = notify16.setW w 1
  regs : Sparse.put t.hregs notify16.off (notify16.setW w 1) = t.hregs
  mbx : Sparse.put t.h.mbx 16 (t.mb .htu 16) = t.h.mbx
  replies : (t.mb .htu 16).replies = old ++ [(t.replyWords .htu 16 o { status := stDeadline }, o.need)]
  ended : ∀ x ∈ (t.mb .htu 16).outst, x.tag ≠ o.tag
  kept : o.discard = false
  notifies : o.flags.getLsbD 2 = true

/-- The word of TIM_OFFSET and TIM_DELAY is as it was, but for the bit of mailbox 16. -/
def State.shownOrNoted (w : Word) (t : State) : Prop := t.word .htu notify16.off = w ∨ ∃ o old, t.Noted w o old

/-- A change that leaves that word and what mailbox 16 holds. -/
def Prog.besideLeaf : Prog → Prop
  | .wr w f _ => w = .htu → f.off ≠ (Reg.MBX_STATUS_GEN 16).off ∧ f.off ≠ notify16.off
  | .dev w f => w = .htu → ∀ d, Sparse.get {} (f d).mbx 16 = Sparse.get {} d.mbx 16 ∧
      ∀ b, Sparse.put d.mbx 16 b = d.mbx → Sparse.put (f d).mbx 16 b = (f d).mbx
  | _ => False

@[simp] theorem besideLeaf_wr (w : UnitId) (f : Fld) (v : Nat) :
    Prog.besideLeaf (.wr w f v) ↔ (w = .htu → f.off ≠ (Reg.MBX_STATUS_GEN 16).off ∧ f.off ≠ notify16.off) := Iff.rfl
@[simp] theorem besideLeaf_dev (w : UnitId) (f : Dev → Dev) : Prog.besideLeaf (.dev w f) ↔ (w = .htu → ∀ d,
    Sparse.get {} (f d).mbx 16 = Sparse.get {} d.mbx 16 ∧ ∀ b, Sparse.put d.mbx 16 b = d.mbx → Sparse.put (f d).mbx 16 b = (f d).mbx) := Iff.rfl

section
variable {w : Word} {t : State} {o : Outst} {old : List (List Word × Nat)}

/-- Words of a reply to mailbox 16 depend on the word with its framing alone. -/
theorem replyWords_wr (f : Fld) (v : Nat) (h : f.off ≠ (Reg.MBX_STATUS_GEN 16).off) (r : Ans) :
    (t.wr .htu f v).replyWords .htu 16 o r = t.replyWords .htu 16 o r := by
  rw [State.replyWords, State.replyWords, State.on, State.on, State.rd_wr_other _ _ _ _ _ (.inr (.inl h.symm))]

/-- Such a change keeps it so. -/
theorem State.Noted.leaf (h : t.Noted w o old) {q : Prog} (hq : q.besideLeaf) : (q.run t).Noted w o old := by
  cases q with
  | wr v f x =>
    cases v with
    | vta => exact ⟨h.word, h.regs, h.mbx, h.replies, h.ended, h.kept, h.notifies⟩
    | htu =>
      obtain ⟨h18, h20⟩ := hq rfl
      refine ⟨(State.word_wr_other _ _ _ _ (.inr h20.symm)).trans h.word, Sparse.put_set_of_put _ h.regs h20 _, h.mbx, ?_, h.ended, h.kept,
        h.notifies⟩
      rw [Prog.run_wr, replyWords_wr f x h18]
      exact h.replies
  | dev v f =>
    cases v with
    | vta => exact ⟨h.word, h.regs, h.mbx, h.replies, h.ended, h.kept, h.notifies⟩
    | htu =>
      obtain ⟨hmb, hput⟩ := hq rfl t.h
      have hmb' : ((Prog.dev .htu f).run t).mb .htu 16 = t.mb .htu 16 := hmb
      exact ⟨h.word, h.regs, by rw [hmb']; exact hput _ h.mbx, by rw [hmb']; exact h.replies, by rw [hmb']; exact h.ended, h.kept, h.notifies⟩
  | _ => exact absurd hq id

theorem State.shownOrNoted.leaf (h : t.shownOrNoted w) {q : Prog} (hq : q.besideLeaf) : (q.run t).shownOrNoted w := by
  rcases h with h | ⟨o, old, h⟩
  · refine .inl (Eq.trans ?_ h)
    cases q with
    | wr v f x =>
      refine State.word_wr_other _ _ _ _ ?_
      by_cases hv : v = .htu
      · exact .inr (hq hv).2.symm
      · exact .inl (Ne.symm hv)
    | dev v f => exact State.modDev_word ..
    | _ => exact absurd hq id
  · exact .inr ⟨o, old, h.leaf hq⟩

theorem Prog.changes.shownOrNoted {p : Prog} (hp : p.changes Prog.besideLeaf) (h : t.shownOrNoted w) : (p.run t).shownOrNoted w := by
  induction p generalizing t with
  | skip => exact h
  | get k ih => exact ih t (hp t) h
  | both p q ihp ihq => exact ihq hp.2 (ihp hp.1 h)
  | _ => exact h.leaf hp

/-- Generators and their schedule lie beside it. -/
theorem Prog.changes.beside {p : Prog} (h : p.changes Prog.pulseLeaf) : p.changes Prog.besideLeaf := by
  refine h.mono fun q hq => ?_
  cases q with
  | wr w f v =>
    have h18 : (Reg.MBX_STATUS_GEN 16).off < 0x2200 := by decide
    have h20 : notify16.off < 0x2200 := by decide
    exact fun _ => ⟨fun h => absurd hq.2 (by omega), fun h => absurd hq.2 (by omega)⟩
  | dev w f =>
    intro _ d
    rw [(hq.2 d).2]
    exact ⟨rfl, fun _ h => h⟩
  | _ => exact absurd hq id

-- what a reply does to it

/-- A change of another mailbox lies beside it. -/
theorem modMb_beside {m : Nat} (hm : m ≠ 16) (f : Mbx → Mbx) : (Prog.modMb .htu m f).changes Prog.besideLeaf :=
  fun _ _ => ⟨Sparse.get_mod_other _ _ _ hm.symm, fun _ h => (Sparse.put_comm _ _ _ hm).trans (by rw [h]; rfl)⟩

/-- A reply to another mailbox keeps it so. -/
theorem reply_beside {m : Nat} (hm : m ≠ 16) (tag : BitVec 16) (a : Ans) : (Prog.reply .htu m tag a).changes Prog.besideLeaf := by
  have h18 : 0x1020 + 256 * m ≠ (Reg.MBX_STATUS_GEN 16).off := by show _ ≠ 0x2018; omega
  have h20 : 0x1020 + 256 * m ≠ notify16.off := by show _ ≠ 0x2020; omega
  simp [Prog.reply, Prog.postReply, Prog.sendPkt, modMb_beside hm, Prog.mbxIrq, Prog.irqEdge, Prog.send, Reg.MBX_IRQ_STATUS_NOTIFY_REPLY,
    h18, h20]

/-- The same mailbox loses a command that is to be discarded. -/
theorem State.shownOrNoted.ended (h : t.shownOrNoted w) (p : Outst → Bool) :
    ((Prog.modMb .htu 16 fun b => { b with outst := b.outst.filter p }).run t).shownOrNoted w := by
  rcases h with h | ⟨o, old, h⟩
  · exact .inl h
  · refine .inr ⟨o, old, h.word, h.regs, ?_, ?_, fun x hx => ?_, h.kept, h.notifies⟩
    · rw [State.mb_modMb]
      exact Sparse.put_put ..
    · rw [State.mb_modMb]
      exact h.replies
    · rw [State.mb_modMb] at hx
      exact h.ended x (List.mem_filter.1 hx).1

/-- Its interrupt has no line (R68). -/
theorem mbxIrq_16 : (Prog.mbxIrq .htu 16 0).run t = t.wr .htu notify16 1 := by
  simp [Prog.mbxIrq, Prog.irqEdge, State.irqLine, irqMbx, notify16]

/-- The word with the bit raised, or raised again. -/
theorem State.shownOrNoted.raised (h : t.shownOrNoted w) : notify16.setW (t.word .htu notify16.off) 1 = notify16.setW w 1 := by
  rcases h with h | ⟨o, old, h⟩
  · rw [h]
  · rw [h.word, setW_notify16_idem]

/-- A reply to mailbox 16 is noted. -/
theorem State.shownOrNoted.finish (h : t.shownOrNoted w) (ho : (t.mb .htu 16).outst.find? (·.tag == o.tag) = some o) (hd : o.discard = false) :
    ((Prog.reply .htu 16 o.tag { status := stDeadline }).run t).shownOrNoted w := by
  rw [reply_final rfl ho hd (by decide)]
  have hended (x) (hx : x ∈ ((t.mb .htu 16).outst.filter (·.tag != o.tag))) : x.tag ≠ o.tag := by simpa using (List.mem_filter.1 hx).2
  cases hn : o.flags.getLsbD 2 with
  | true =>
    rw [Prog.run_cond_true, mbxIrq_16]
    have hw := h.raised
    have hregs : (t.wr .htu notify16 1).hregs = Sparse.put t.hregs notify16.off (notify16.setW w 1) := by
      rw [← hw]
      exact if_neg (setW_notify16_ne _)
    refine .inr ⟨o, (t.mb .htu 16).replies, (State.word_wr_same ..).trans hw, ?_, ?_, ?_, ?_, hd, hn⟩
    · exact (congrArg (Sparse.put · _ _) hregs).trans ((Sparse.put_put ..).trans hregs.symm)
    · rw [State.mb_wr, State.mb_modMb]
      exact Sparse.put_put ..
    · rw [State.mb_wr, State.mb_modMb, replyWords_wr _ _ (by decide)]
      rfl
    · rw [State.mb_wr, State.mb_modMb]
      exact hended
  | false =>
    rw [Prog.run_cond_false]
    rcases h with h | ⟨o₁, old, h⟩
    · exact .inl h
    · refine .inr ⟨{ o with flags := 4 }, (t.mb .htu 16).replies, h.word, h.regs, ?_, ?_, ?_, hd, (by decide : (4 : BitVec 8).getLsbD 2 = true)⟩
      · rw [State.mb_modMb]
        exact Sparse.put_put ..
      · rw [State.mb_modMb]
        rfl
      · rw [State.mb_modMb]
        exact hended

/-- So a reply to any mailbox keeps it so. -/
theorem reply_shownOrNoted (h : t.shownOrNoted w) (m : Nat) (tag : BitVec 16) :
    ((Prog.reply .htu m tag { status := stDeadline }).run t).shownOrNoted w := by
  by_cases hm : m = 16
  · subst hm
    cases ho : (t.mb .htu 16).outst.find? (·.tag == tag) with
    | none => rwa [Prog.reply, Prog.run_get, ho, Prog.run_opt_none]
    | some o =>
      obtain rfl : o.tag = tag := by simpa using List.find?_some ho
      cases hd : o.discard with
      | false => exact h.finish ho hd
      | true =>
        rw [Prog.reply, Prog.run_get, ho, Prog.run_opt_some, hd]
        simp only [Bool.not_true, Bool.and_false, Bool.false_and, Prog.run_seq_cons, Prog.run_seq_nil, Prog.run_cond_false]
        exact h.ended _
  · exact (reply_beside hm tag _).shownOrNoted h

/-- A step passes over instants and keeps it so. -/
theorem passOver_shownOrNoted (h : t.shownOrNoted w) (lo hi : Nat) : ((Prog.passOver .htu lo hi).run t).shownOrNoted w := by
  obtain ⟨p, l, hp, hrun⟩ := passOver_run t lo hi
  rw [hrun]
  refine each_invariant (inv := State.shownOrNoted w) l (fun g _ t ht => ?_) _ (hp.beside.shownOrNoted h)
  rcases skipFirings_run t g hi with h | ⟨gen, n, h⟩
  · rwa [h]
  · rw [h]
    refine (advanceGen_pulse g n).beside.shownOrNoted ?_
    have hc := (countSkipped_pulse g n).beside.shownOrNoted ht
    cases gen.tag with
    | none => exact hc
    | some tag => exact reply_shownOrNoted hc gen.mbx tag

-- a state before it

/-- The state before the reply that is noted: its command is outstanding and waits to be answered. -/
def State.unnoted (w : Word) (t : State) (o : Outst) (old : List (List Word × Nat)) : State :=
  { t with
    hregs := Sparse.put t.hregs notify16.off w
    h := { t.h with
      mbx := Sparse.put t.h.mbx 16 { t.mb .htu 16 with replies := old, outst := o :: (t.mb .htu 16).outst }
      passed := { t := 0, kind := .step 0, cmd := some (16, o.tag) } :: t.h.passed } }

/-- Replying to its command gives the noted state again. -/
theorem State.Noted.reply_unnoted (h : t.Noted w o old) (p : List Sched) :
    (Prog.reply .htu 16 o.tag { status := stDeadline }).run ((t.unnoted w o old).modDev .htu fun d => { d with passed := p }) =
      t.modDev .htu fun d => { d with passed := p } := by
  set b := (t.unnoted w o old).modDev .htu fun d => { d with passed := p } with hb
  have hmb : b.mb .htu 16 = { t.mb .htu 16 with replies := old, outst := o :: (t.mb .htu 16).outst } := Sparse.get_put_same ..
  have hword : b.word .htu notify16.off = w := by simp [hb, State.unnoted, State.word, State.regs]
  have hgen : b.replyWords .htu 16 o { status := stDeadline } = t.replyWords .htu 16 o { status := stDeadline } := by
    have hoff : b.word .htu (Reg.MBX_STATUS_GEN 16).off = t.word .htu (Reg.MBX_STATUS_GEN 16).off := Sparse.get_put_other _ _ _ (by decide)
    rw [State.replyWords, State.on, State.rd, hoff]
    rfl
  have hfind : (b.mb .htu 16).outst.find? (·.tag == o.tag) = some o := by simp [hmb]
  have hout : (t.mb .htu 16).outst.filter (·.tag != o.tag) = (t.mb .htu 16).outst :=
    List.filter_eq_self.2 fun x hx => by simpa using h.ended x hx
  have hfin : (b.mb .htu 16).finish o (t.replyWords .htu 16 o { status := stDeadline }) = t.mb .htu 16 := by
    simp [hmb, Mbx.finish, hout, ← h.replies]
  have hmbx : Sparse.mod {} b.h.mbx 16 (·.finish o (t.replyWords .htu 16 o { status := stDeadline })) = t.h.mbx := by
    rw [Sparse.mod, show Sparse.get {} b.h.mbx 16 = b.mb .htu 16 from rfl, hfin, hb]
    exact (Sparse.put_put ..).trans h.mbx
  have hregs : Sparse.set (Reg.resetWord .htu notify16.off) b.hregs notify16.off (notify16.setW (b.word .htu notify16.off) 1) = t.hregs := by
    rw [hword, Sparse.set, if_neg (setW_notify16_ne w), hb]
    exact (Sparse.put_put ..).trans h.regs
  rw [reply_final rfl hfind h.kept (by decide), h.notifies, Prog.run_cond_true, mbxIrq_16, hgen]
  calc
    _ = { b with hregs := t.hregs, h := { b.h with mbx := t.h.mbx } } := by rw [← hregs, ← hmbx]; rfl
    _ = t.modDev .htu fun d => { d with passed := p } := rfl

/-- The answer to an entry passed over notes it again. -/
theorem State.Noted.passedOver (h : t.Noted w o old) : (Prog.passedOver .htu).run (t.unnoted w o old) = (Prog.passedOver .htu).run t := by
  rw [Prog.passedOver, Prog.run_get, Prog.run_get, Prog.run_both, Prog.run_both, Prog.run_dev, Prog.run_dev, ← h.reply_unnoted []]
  rfl

/-- A state with the word as it was, which settles as this one does and shows the same of the clock. -/
theorem State.shownOrNoted.settles (h : t.shownOrNoted w) :
    ∃ t' : State, (Prog.settle .htu).run t' = (Prog.settle .htu).run t ∧ t'.word .htu notify16.off = w ∧ t'.clock = t.clock := by
  rcases h with h | ⟨o, old, h⟩
  · exact ⟨t, rfl, h, rfl⟩
  · refine ⟨t.unnoted w o old, ?_, by simp [State.unnoted, State.word, State.regs], ?_⟩
    · simp only [Prog.settle, Prog.run_seq_cons, h.passedOver]
    · have hword (off : Nat) (ho : off ≠ notify16.off) : (t.unnoted w o old).word .htu off = t.word .htu off :=
        Sparse.get_put_other _ _ _ ho
      rw [State.clock, hword _ (by decide), hword _ (by decide)]
      rfl

end

end Sys2Proof.Machine

end

section

/-! # A complete exchange on the active port of the HTU: O59 -/

namespace Sys2Proof.Machine

/-- A servo once its exchange is complete (R139). -/
def Servo.complete (timev : Bool) (v : Servo) : Servo :=
  { v with t3 := none, sync := false, missed := 0, sinceV := if timev then 0 else v.sinceV }

/-- The HTU once a complete exchange has shown offset `n` and its delay, SRC, and the end of holdover and of a switch (R139, R147, R150). -/
def State.measured (s : State) (k : Nat) (n delay : Int) : State :=
  (((((Prog.modServo .htu k (·.complete (s.servo .htu k).mTimev)).run s).wr .htu Reg.TIM_OFFSET_OFFSET (ofSigned 32 (divOpen n 131072))).wr .htu
    Reg.TIM_DELAY_DELAY (ofSigned 32 delay)).wr .htu Reg.TIM_STATUS_HOLD 0).wr .htu Reg.TIM_STATUS_SRC (srcCode .htu k)
    |>.modDev .htu fun d => { d with sw := none }

/-- The HTU as a step by −`n` leaves it before it passes over instants (R140). -/
def State.steppedBy (s : State) (k : Nat) (n : Int) : State :=
  (Prog.modServo .htu k fun v => { v with good := 0, bad := 0, stepped := true, corr := (0, 1), lastOff := 0 }).run
    (((Prog.cond (s.h.timeSet) (.bump .htu Reg.TIM_STATUS_STEPS)).run ((Prog.timeLost .htu).run s)).modDev .htu
      fun d => { d with cnt := d.cnt + BitVec.ofInt 96 (divOpen (-n * 16384) 5), stepped := true })

/-- The HTU's time is set. -/
def State.timeIsSet (s : State) : State := s.modDev .htu fun d => { d with timeSet := true }

/-- The new INC of a slew (R140). -/
def slewInc (n : Int) (i base : Nat) : Nat :=
  clampInc (base + divNearest (base * (limit50 (-n) (20 * 65536 * i)).1) (limit50 (-n) (20 * 65536 * i)).2)

section
variable {s : State} {k t3 t4 i : Nat} {asym : Int}

/-- On a port that does not set the time the exchange ends in its servo (R139). -/
theorem exchange_passive (h : s.timePort .htu ≠ some k) :
    (Prog.exchange .htu k t3 t4 asym i).run s = (Prog.modServo .htu k (·.complete (s.servo .htu k).mTimev)).run s := by
  rw [Prog.exchange, Prog.run_get, beq_false_of_ne h, Prog.run_seq_cons, Prog.run_seq_cons, Prog.run_seq_nil, Prog.run_cond_false]
  rfl

variable (h : s.timePort .htu = some k)
  {n delay : Int} (hn : n = 10 * (((s.servo .htu k).t2 - (s.servo .htu k).t1 : Int) - (t4 - t3)) - 65536 * asym)
  (hdelay : delay = divOpen ((((s.servo .htu k).t2 - (s.servo .htu k).t1 : Int) + (t4 - t3)) * 5) 65536)
include h hn hdelay

/-- An offset past the threshold: a step, where the master's time is valid (R140, R156). -/
theorem exchange_far (hfar : s.rd .htu Reg.TIM_CTL_STEP_THRESH * 1000 * 20 * 65536 < n.natAbs) :
    (Prog.exchange .htu k t3 t4 asym i).run s = (Prog.lockRule .htu k).run
      ((Prog.cond (s.servo .htu k).mTimev (.both (.step .htu k n) (.dev .htu fun d => { d with timeSet := true }))).run (s.measured k n delay)) := by
  subst hn hdelay
  rw [Prog.exchange, Prog.run_get, h, BEq.rfl]
  dsimp only
  rw [if_pos hfar]
  rfl

/-- An offset within the threshold: a new INC (R140). -/
theorem exchange_near (hnear : n.natAbs ≤ s.rd .htu Reg.TIM_CTL_STEP_THRESH * 1000 * 20 * 65536) :
    (Prog.exchange .htu k t3 t4 asym i).run s = (Prog.lockRule .htu k).run
      ((Prog.slew .htu k n i (s.servo .htu k).mInc).run (s.measured k n delay).timeIsSet) := by
  subst hn hdelay
  rw [Prog.exchange, Prog.run_get, h, BEq.rfl]
  dsimp only
  rw [if_neg hnear.not_gt]
  rfl

end

section
variable (s : State) (k : Nat) (n : Int)

/-- A step of the HTU: the instants between pass (R140, R143). -/
theorem step_run : (Prog.step .htu k n).run s =
    (Prog.cond (s.ns16 .htu < (s.steppedBy k n).ns16 .htu) (.passOver .htu (s.ns16 .htu) ((s.steppedBy k n).ns16 .htu))).run (s.steppedBy k n) := rfl

/-- A step shows what it leaves before it passes over instants, but for a bit that an answer raises (R143). -/
theorem step_beside : ((Prog.step .htu k n).run s).clock = (s.steppedBy k n).clock ∧
    ((Prog.step .htu k n).run s).shownOrNoted ((s.steppedBy k n).word .htu notify16.off) := by
  rw [step_run, Prog.run_cond]
  split
  · exact ⟨passOver_clock .., passOver_shownOrNoted (.inl rfl) ..⟩
  · exact ⟨rfl, .inl rfl⟩

/-- While no run of good or bad exchanges is long enough, LOCK and TIMEV stay (R141). -/
theorem lockRule_idle (hb : (s.servo .htu k).bad < 2) (hg : (s.servo .htu k).good < 8) : (Prog.lockRule .htu k).run s = s := by
  rw [Prog.lockRule, Prog.run_get]
  dsimp only
  rw [decide_eq_false hb.not_ge, decide_eq_false hg.not_ge]
  rfl

end

-- what the exchange shows

/-- The threshold of a step (R140, R164). -/
def State.stepThreshold (s : State) : Nat := s.rd .htu Reg.TIM_CTL_STEP_THRESH * 1000 * 20 * 65536

/-- What a complete exchange on the active port shows (R139, R140, R147, R156), in the words of O59. -/
def State.Exchanged (s : State) (k i : Nat) (n delay : Int) (t : State) : Prop :=
  t.rd .htu Reg.TIM_STATUS_HOLD = 0 ∧ t.rd .htu Reg.TIM_STATUS_SRC = srcCode .htu k ∧
  t.rd .htu Reg.TIM_OFFSET_OFFSET = ofSigned 32 (divOpen n 131072) ∧ t.rd .htu Reg.TIM_DELAY_DELAY = ofSigned 32 delay ∧ t.h.sw = none ∧
  (s.stepThreshold < n.natAbs → t.rd .htu Reg.TIM_INC_INC = s.rd .htu Reg.TIM_INC_INC ∧
    ((s.servo .htu k).mTimev = true → t.h.stepped = true ∧ t.on .htu Reg.TIM_STATUS_LOCK = false ∧ t.timev .htu = false ∧
      t.h.cnt = s.h.cnt + BitVec.ofInt 96 (divOpen (-n * 16384) 5)) ∧
    ((s.servo .htu k).mTimev = false → t.h.cnt = s.h.cnt)) ∧
  (n.natAbs ≤ s.stepThreshold → t.h.cnt = s.h.cnt ∧ t.h.timeSet = true ∧ t.rd .htu Reg.TIM_INC_INC = slewInc n i (s.servo .htu k).mInc)

section
variable {s t t' : State} {k i : Nat} {n delay : Int}

/-- The clock and the words of its registers say all of it. -/
theorem State.Exchanged.congr (h : s.Exchanged k i n delay t) (hc : t'.clock = t.clock)
    (hw : t'.word .htu notify16.off = t.word .htu notify16.off) : s.Exchanged k i n delay t' := by
  simp only [State.clock, Dev.clock, Prod.mk.injEq] at hc
  obtain ⟨h0, h18, hcnt, hsw, hst, hts, -⟩ := hc
  have hrd (f : Fld) (hf : f.off = 0x2000 ∨ f.off = 0x2018 ∨ f.off = notify16.off) : t'.rd .htu f = t.rd .htu f := by
    rw [State.rd, State.rd]
    rcases hf with hf | hf | hf <;> simp only [hf, h0, h18, hw]
  simp (disch := decide) only [State.Exchanged, State.timev, State.on, hrd, hcnt, hsw, hst, hts] at h ⊢
  exact h

/-- The rule of LOCK writes LOCK, TIMEV and SAFE alone (R141). -/
theorem rd_lockRule (g : Fld) (hl : g.apart Reg.TIM_STATUS_LOCK) (ht : g.apart Reg.TIM_STATUS_TIMEV) (hs : g.apart Reg.TIM_STATUS_SAFE) :
    ((Prog.lockRule .htu k).run t).rd .htu g = t.rd .htu g :=
  (show (Prog.lockRule .htu k).changes (Prog.sparing .htu g) by simp [Prog.lockRule, Prog.timeValid, hl, ht, hs]).rd t

/-- It leaves the counter, and what has set it (R141). -/
theorem lockRule_clock : ((Prog.lockRule .htu k).run t).h.clock = t.h.clock := by
  refine Prog.changes.fixes (P := fun q => q.fixes fun s => s.h.clock) ?_ (fun _ h => h) t
  have hwr (f : Fld) (v : Nat) : (Prog.wr .htu f v).fixes fun s => s.h.clock := fun s => congrArg Dev.clock (State.wr_h ..)
  have hdev (n : Nat) : (Prog.dev .htu fun d => { d with validSince := n }).fixes fun s => s.h.clock := fun _ => rfl
  simp [Prog.lockRule, Prog.timeValid, hwr, hdev]

theorem ofSigned_lt (m : Nat) (x : Int) : ofSigned m x < 2 ^ m := by
  rw [ofSigned]
  have hpos : (0 : Int) < (2 ^ m : Nat) := by positivity
  have hnonneg := Int.emod_nonneg x hpos.ne'
  have hlt := Int.emod_lt_of_pos x hpos
  omega

theorem clampInc_lt (v : Int) : clampInc v < 2 ^ 40 := by
  simp only [clampInc, incNominal]
  omega

variable (s n delay)

/-- What the measured state shows. -/
theorem measured_shows (hk : k < 2) :
    let b := s.measured k n delay
    b.rd .htu Reg.TIM_STATUS_HOLD = 0 ∧ b.rd .htu Reg.TIM_STATUS_SRC = srcCode .htu k ∧
    b.rd .htu Reg.TIM_OFFSET_OFFSET = ofSigned 32 (divOpen n 131072) ∧ b.rd .htu Reg.TIM_DELAY_DELAY = ofSigned 32 delay ∧ b.h.sw = none ∧
    b.rd .htu Reg.TIM_INC_INC = s.rd .htu Reg.TIM_INC_INC ∧ b.h.cnt = s.h.cnt := by
  have hsrc : srcCode .htu k % 2 ^ Reg.TIM_STATUS_SRC.width = srcCode .htu k := Nat.mod_eq_of_lt (show k + 1 < 8 by omega)
  have hlt (x : Int) : ofSigned 32 x < 4294967296 := ofSigned_lt 32 x
  have ho : Reg.TIM_OFFSET_OFFSET.width = 32 := rfl
  have hd : Reg.TIM_DELAY_DELAY.width = 32 := rfl
  simp (disch := decide) [State.measured, State.rd_wr_other, State.rd_wr_same, hsrc, hlt, ho, hd, Prog.modServo]

variable {s n delay} (hk : k < 2)
include hk

/-- An exchange near enough to slew. -/
theorem exchanged_near (hnear : n.natAbs ≤ s.stepThreshold) : s.Exchanged k i n delay
    ((Prog.lockRule .htu k).run ((Prog.slew .htu k n i (s.servo .htu k).mInc).run (s.measured k n delay).timeIsSet)) := by
  obtain ⟨hhold, hsrc, hoff, hdel, hsw, -, hcnt⟩ := measured_shows s n delay hk
  set b := s.measured k n delay
  have hclock := lockRule_clock (t := (Prog.slew .htu k n i (s.servo .htu k).mInc).run b.timeIsSet) (k := k)
  simp only [Dev.clock, Prod.mk.injEq] at hclock
  obtain ⟨hcnt', hsw', -, hset', -⟩ := hclock
  have hinc : slewInc n i (s.servo .htu k).mInc % 2 ^ Reg.TIM_INC_INC.width = slewInc n i (s.servo .htu k).mInc := Nat.mod_eq_of_lt (clampInc_lt _)
  have hrun : (Prog.slew .htu k n i (s.servo .htu k).mInc).run b.timeIsSet =
      (Prog.modServo .htu k _).run (b.timeIsSet.wr .htu Reg.TIM_INC_INC (slewInc n i (s.servo .htu k).mInc)) := rfl
  rw [hrun] at hcnt' hsw' hset' ⊢
  refine ⟨?_, ?_, ?_, ?_, hsw'.trans ?_, fun h => absurd hnear h.not_ge, fun _ => ⟨hcnt'.trans ?_, hset'.trans ?_, ?_⟩⟩ <;>
    simp (disch := decide) [rd_lockRule, State.rd_wr_other, State.rd_wr_same, State.timeIsSet, Prog.modServo, *]

/-- An exchange too far off, with a master whose time is not valid (R156). -/
theorem exchanged_unset (hv : (s.servo .htu k).mTimev = false) (hfar : s.stepThreshold < n.natAbs) :
    s.Exchanged k i n delay ((Prog.lockRule .htu k).run (s.measured k n delay)) := by
  obtain ⟨hhold, hsrc, hoff, hdel, hsw, hinc, hcnt⟩ := measured_shows s n delay hk
  have hclock := lockRule_clock (t := s.measured k n delay) (k := k)
  simp only [Dev.clock, Prod.mk.injEq] at hclock
  obtain ⟨hcnt', hsw', -⟩ := hclock
  have hrd (g : Fld) (hl : g.apart Reg.TIM_STATUS_LOCK) (ht : g.apart Reg.TIM_STATUS_TIMEV) (hs : g.apart Reg.TIM_STATUS_SAFE) :=
    rd_lockRule (t := s.measured k n delay) (k := k) g hl ht hs
  exact ⟨(hrd _ (by decide) (by decide) (by decide)).trans hhold, (hrd _ (by decide) (by decide) (by decide)).trans hsrc,
    (hrd _ (by decide) (by decide) (by decide)).trans hoff, (hrd _ (by decide) (by decide) (by decide)).trans hdel, hsw'.trans hsw,
    fun _ => ⟨(hrd _ (by decide) (by decide) (by decide)).trans hinc, fun h => absurd h (by simp [hv]), fun _ => hcnt'.trans hcnt⟩,
    fun h => absurd hfar h.not_gt⟩

/-- The state that a step leaves before it passes over instants. -/
theorem exchanged_stepped (hv : (s.servo .htu k).mTimev = true) (hfar : s.stepThreshold < n.natAbs) :
    s.Exchanged k i n delay (((s.measured k n delay).steppedBy k n).timeIsSet) := by
  obtain ⟨hhold, hsrc, hoff, hdel, hsw, hinc, hcnt⟩ := measured_shows s n delay hk
  set b := s.measured k n delay
  refine ⟨?_, ?_, ?_, ?_, ?_, fun _ => ⟨?_, fun _ => ⟨?_, ?_, ?_, ?_⟩, fun h => absurd hv (by simp [h])⟩,
    fun h => absurd hfar h.not_gt⟩ <;>
    cases hset : b.h.timeSet <;>
    simp (disch := decide) [State.rd_wr_other, State.rd_wr_same, State.timeIsSet, Prog.modServo, State.steppedBy, Prog.timeLost, State.timev,
      State.on, *]

/-- A step, and what it passes over (R140, R143). -/
theorem exchanged_step (hv : (s.servo .htu k).mTimev = true) (hfar : s.stepThreshold < n.natAbs) : ∃ t, (Prog.settle .htu).run t =
    (Prog.settle .htu).run ((Prog.lockRule .htu k).run ((Prog.step .htu k n).run (s.measured k n delay)).timeIsSet) ∧
      s.Exchanged k i n delay t := by
  obtain ⟨hclock, hnoted⟩ := step_beside (s.measured k n delay) k n
  simp only [State.clock, Dev.clock, Prod.mk.injEq] at hclock
  obtain ⟨h0, h18, hcnt, hsw, hst, -, hsv⟩ := hclock
  have hservo : ((Prog.step .htu k n).run (s.measured k n delay)).timeIsSet.servo .htu k = ((s.measured k n delay).steppedBy k n).servo .htu k :=
    congrArg (fun l => Sparse.get ({} : Servo) l k) hsv
  have hset : ((Prog.step .htu k n).run (s.measured k n delay)).timeIsSet.clock = ((s.measured k n delay).steppedBy k n).timeIsSet.clock := by
    simp only [State.clock, Dev.clock, State.timeIsSet, State.modDev_word, State.modDev_h, h0, h18, hcnt, hsw, hst, hsv]
  have hleaf : Prog.besideLeaf (.dev .htu fun d => { d with timeSet := true }) := fun _ _ => ⟨rfl, fun _ h => h⟩
  obtain ⟨t, hsettle, hword, hsame⟩ := (hnoted.leaf hleaf).settles
  rw [lockRule_idle _ _ (by simp [hservo, State.steppedBy]) (by simp [hservo, State.steppedBy])]
  exact ⟨t, hsettle, (exchanged_stepped hk hv hfar).congr (hsame.trans hset) (hword.trans (State.modDev_word ..).symm)⟩

end

/-- A complete exchange on the active port, before the unit settles (R139, R140, R147, R156). -/
theorem exchange_shows {s : State} {k t3 t4 i : Nat} {asym : Int} (hk : k < 2) (h : s.timePort .htu = some k) {n delay : Int}
    (hn : n = 10 * (((s.servo .htu k).t2 - (s.servo .htu k).t1 : Int) - (t4 - t3)) - 65536 * asym)
    (hdelay : delay = divOpen ((((s.servo .htu k).t2 - (s.servo .htu k).t1 : Int) + (t4 - t3)) * 5) 65536) :
    ∃ t, (Prog.settle .htu).run t = (Prog.settle .htu).run ((Prog.exchange .htu k t3 t4 asym i).run s) ∧ s.Exchanged k i n delay t := by
  rcases Nat.lt_or_ge s.stepThreshold n.natAbs with hfar | hnear
  · rw [exchange_far h hn hdelay hfar]
    cases hv : (s.servo .htu k).mTimev with
    | false => exact ⟨_, rfl, exchanged_unset hk hv hfar⟩
    | true => exact exchanged_step hk hv hfar
  · rw [exchange_near h hn hdelay hnear]
    exact ⟨_, rfl, exchanged_near hk hnear⟩

end Sys2Proof.Machine

end

section

/-! # PTP on the uplinks: O59 -/

namespace Sys2Proof.Machine

-- the roles of the uplinks

section
variable {k : Nat} (hk : k < 2)
include hk

theorem ptpPort_fits : (ptpPort k).lsb + (ptpPort k).width ≤ 64 := by
  interval_cases k <;> decide

theorem ptpPort_width : (ptpPort k).width = 3 := by
  interval_cases k <;> rfl

/-- The role of an uplink lies apart from the other's (R145). -/
theorem ptpPort_apart_other : (ptpPort (1 - k)).apart (ptpPort k) := by
  interval_cases k <;> decide

theorem ptpPort_apart_gm : (ptpPort k).apart Reg.TIM_PTP_STATUS_GM_INDEX := by
  interval_cases k <;> decide

theorem gm_apart_ptpPort : Reg.TIM_PTP_STATUS_GM_INDEX.apart (ptpPort k) := by
  interval_cases k <;> decide

/-- A role that is written is read. -/
theorem rd_ptpPort_wr (s : State) {v : Nat} (hv : v < 8) : (s.wr .vta (ptpPort k) v).rd .vta (ptpPort k) = v := by
  rw [State.rd_wr_same _ _ _ _ (ptpPort_fits hk), ptpPort_width hk]
  exact Nat.mod_eq_of_lt hv

end

/-- An entry of TIM_PTP_GM has a number below 4 (R145). -/
theorem gmIndex_lt {s : State} {gm : Word} {i : Nat} (h : s.gmIndex gm = some i) : i < 4 :=
  List.mem_range.1 (List.mem_of_find?_eq_some h)

-- the rows

section
variable {s : State} {k : Nat} (hr : s.v.inReset = false)
include hr

theorem exec_ptpDelayReq (sub : Nat) : exec (.ptpDelayReq sub) s = .next ((Prog.delayReqTx sub).run s) := next_up (u := .vta) _ hr

variable (hk : k < 2) (m : PtpMsg)
include hk

theorem exec_ptpSync (gm : Word) (x : PtpTime) (sub : Nat) :
    exec (.ptpSync k m gm x sub) s = .next ((Prog.ptpSyncRx k m gm x sub).run s) := (nextIf_of hk _ s).trans (next_up (u := .vta) _ hr)

theorem exec_ptpDelayResp (seq ts : Nat) :
    exec (.ptpDelayResp k m seq ts) s = .next ((Prog.settle .vta).run ((Prog.delayRespRx k m seq ts).run s)) :=
  (nextIf_of hk _ s).trans (next_thenSettle (u := .vta) _ hr)

theorem exec_ptpAnnounce (gm : Word) : exec (.ptpAnnounce k m gm) s = .next ((Prog.announceRx k m gm).run s) :=
  (nextIf_of hk _ s).trans (next_up (u := .vta) _ hr)

omit m in
theorem exec_announceTimeout : exec (.announceTimeout k) s = .next ((Prog.announceLost k).run s) :=
  (nextIf_of hk _ s).trans (next_up (u := .vta) _ hr)

end

-- what an Announce sets

section
variable (s : State) (k i : Nat)

/-- The grandmaster of entry `i` is taken: none was heard, it comes before the one chosen, or it has been heard three times (R145). -/
def State.gmTaken (s : State) (i : Nat) : Bool := decide (!((s.servo .vta 64).mTimev || (s.servo .vta 65).mTimev) ∨
  i ≤ s.rd .vta Reg.TIM_PTP_STATUS_GM_INDEX ∨ Sparse.get 0 s.vx.gmHeard i + 1 ≥ 3)

/-- The role that an uplink takes by an Announce (R145). -/
def State.announceRole (s : State) (k : Nat) : Nat := if s.rd .vta (ptpPort (1 - k)) = 5 then 3
  else if k = s.rd .vta Reg.TIM_PTP_CFG_PRIMARY ∨ (s.servo .vta (64 + (1 - k))).annMiss ≥ 3 then 5 else 3

/-- The VTA once an uplink has heard the grandmaster of entry `i` (R145). -/
def State.announced (s : State) (k i : Nat) : State :=
  (Prog.modServo .vta (64 + k) fun v => { v with annMiss := 0, mTimev := true }).run
    ((Prog.vta fun x => { x with gmHeard := if s.gmTaken i then [] else Sparse.put x.gmHeard i (Sparse.get 0 s.vx.gmHeard i + 1) }).run
      ((Prog.cond (s.gmTaken i) (.wr .vta Reg.TIM_PTP_STATUS_GM_INDEX i)).run s))

theorem announced_rd (f : Fld) : (s.announced k i).rd .vta f = ((Prog.cond (s.gmTaken i) (.wr .vta Reg.TIM_PTP_STATUS_GM_INDEX i)).run s).rd .vta f :=
  rd_modServo ..

end

-- an uplink that hands over

section
variable (s : State) (k : Nat)

/-- The other uplink becomes SLAVE, and fleet time comes from it (R145). -/
def Prog.handOver (s : State) (k : Nat) : Prog := .seq [.wr .vta (ptpPort (1 - k)) 5,
  .cond (s.rd .vta Reg.TIM_STATUS_SRC != 5) (.dev .vta fun d => { d with sw := some { target := 64 + (1 - k), moved := true } })]

theorem announceLost_run : (Prog.announceLost k).run s = ((Prog.cond (s.rd .vta (ptpPort k) == 5 && s.rd .vta (ptpPort (1 - k)) == 3)
    (.handOver s k)).run ((Prog.modServo .vta (64 + k) fun v => { v with annMiss := 3, mTimev := false }).run s)).wr .vta (ptpPort k) 2 := rfl

variable (t : State)

theorem rd_handOver (f : Fld) : ((Prog.handOver s k).run t).rd .vta f = (t.wr .vta (ptpPort (1 - k)) 5).rd .vta f := by
  rw [Prog.handOver, Prog.run_seq_cons, Prog.run_seq_cons, Prog.run_seq_nil, Prog.run_cond]
  split
  · exact State.modDev_rd ..
  · rfl

/-- The servos stay. -/
theorem handedOver_servo (c : Bool) (j : Nat) : ((Prog.cond c (.handOver s k)).run t).servo .vta j = t.servo .vta j := by
  cases c with
  | false => rfl
  | true =>
    rw [Prog.run_cond_true, Prog.handOver, Prog.run_seq_cons, Prog.run_seq_cons, Prog.run_seq_nil, Prog.run_cond]
    split
    · rfl
    · exact servo_wr ..

end

-- messages that are taken

section
variable (s : State) (m : PtpMsg) (p : Prog)

/-- The VTA once it has counted a message that it discards (R144). -/
def State.ptpDiscarded (s : State) : State := s.wr .vta Reg.TIM_PTP_STATUS_DISCARDS
  (satAdd Reg.TIM_PTP_STATUS_DISCARDS.width (s.rd .vta Reg.TIM_PTP_STATUS_DISCARDS) 1)

/-- A message of the other transport is not received. -/
theorem ptpTaken_elsewhere (h : m.udp ≠ s.on .vta Reg.TIM_PTP_CFG_TRANSPORT) : (Prog.ptpTaken m p).run s = s := by
  rw [Prog.ptpTaken, Prog.run_get, beq_false_of_ne h, Prog.run_cond_false]

/-- One of another kind or domain is discarded and counted (R144). -/
theorem ptpTaken_discards (h : m.udp = s.on .vta Reg.TIM_PTP_CFG_TRANSPORT)
    (ho : ¬(m.other = false ∧ m.domain = s.rd .vta Reg.TIM_PTP_CFG_DOMAIN)) : (Prog.ptpTaken m p).run s = s.ptpDiscarded := by
  have hor : m.other = true ∨ m.domain ≠ s.rd .vta Reg.TIM_PTP_CFG_DOMAIN := by
    cases hm : m.other <;> simp_all
  rw [Prog.ptpTaken, Prog.run_get, h, BEq.rfl, Prog.run_cond_true, if_pos hor]
  rfl

variable (h : m.udp = s.on .vta Reg.TIM_PTP_CFG_TRANSPORT ∧ m.other = false ∧ m.domain = s.rd .vta Reg.TIM_PTP_CFG_DOMAIN)
include h

/-- The others are taken. -/
theorem ptpTaken_takes : (Prog.ptpTaken m p).run s = p.run s := by
  obtain ⟨hhere, hother, hdomain⟩ := h
  rw [Prog.ptpTaken, Prog.run_get, hhere, BEq.rfl, Prog.run_cond_true, if_neg (by simp [hother, hdomain])]

variable (k : Nat)

-- Sync and Follow_Up

section
variable (gm : Word) (x : PtpTime) (sub : Nat)

/-- A Sync of another grandmaster, or on an uplink that is not SLAVE, changes nothing (R145). -/
theorem ptpSyncRx_other (hm : ¬(s.rd .vta (ptpPort k) = 5 ∧ s.gmIndex gm = some (s.rd .vta Reg.TIM_PTP_STATUS_GM_INDEX))) :
    (Prog.ptpSyncRx k m gm x sub).run s = s := by
  have hb : (s.rd .vta (ptpPort k) == 5 && s.gmIndex gm == some (s.rd .vta Reg.TIM_PTP_STATUS_GM_INDEX)) = false := by
    simpa only [Bool.and_eq_false_imp, beq_iff_eq, beq_eq_false_iff_ne, not_and] using hm
  rw [Prog.ptpSyncRx, ptpTaken_takes s m _ h, Prog.run_get, hb]
  rfl

variable (hm : s.rd .vta (ptpPort k) = 5 ∧ s.gmIndex gm = some (s.rd .vta Reg.TIM_PTP_STATUS_GM_INDEX))
include hm

/-- The others by their form (R144, R145). -/
theorem ptpSyncRx_mine : (Prog.ptpSyncRx k m gm x sub).run s = (match x.form with
    | .oneStep => Prog.ptpTimes k (x.ts + m.corr).toNat (s.stampAt .vta sub - Config.mdiLatency k)
    | .twoStep => .modServo .vta (64 + k) fun v => { v with wait := some (x.seq, s.stampAt .vta sub - Config.mdiLatency k, m.corr) }
    | .followUp => .opt (s.servo .vta (64 + k)).wait fun w =>
        .cond (w.1 == x.seq) (.ptpTimes k (x.ts + m.corr + w.2.2).toNat w.2.1)).run s := by
  obtain ⟨hslave, hgm⟩ := hm
  rw [Prog.ptpSyncRx, ptpTaken_takes s m _ h, Prog.run_get, hslave, hgm, BEq.rfl, BEq.rfl]
  rfl

/-- A Follow_Up that no Sync waits for changes nothing. -/
theorem ptpSyncRx_stray (hf : x.form = .followUp) (hw : ∀ w, (s.servo .vta (64 + k)).wait = some w → w.1 ≠ x.seq) :
    (Prog.ptpSyncRx k m gm x sub).run s = s := by
  rw [ptpSyncRx_mine s m h k gm x sub hm, hf]
  cases hwait : (s.servo .vta (64 + k)).wait with
  | none => rfl
  | some w =>
    dsimp only
    rw [Prog.run_opt_some, beq_false_of_ne (hw w hwait), Prog.run_cond_false]

/-- A Follow_Up gives the time of the Sync that waits for it (R144, R145). -/
theorem ptpSyncRx_followUp (hf : x.form = .followUp) {t2 : Nat} {corr : Int} (hw : (s.servo .vta (64 + k)).wait = some (x.seq, t2, corr)) :
    (Prog.ptpSyncRx k m gm x sub).run s = (Prog.ptpTimes k (x.ts + m.corr + corr).toNat t2).run s := by
  rw [ptpSyncRx_mine s m h k gm x sub hm, hf, hw]
  dsimp only
  rw [Prog.run_opt_some, BEq.rfl, Prog.run_cond_true]

end

-- Delay_Resp

section
variable (seq ts : Nat)

/-- A Delay_Resp that was not asked for, or that no Sync came before, changes nothing (R145). -/
theorem delayRespRx_stray (hs : s.rd .vta (ptpPort k) ≠ 5 ∨ (s.servo .vta (64 + k)).t3 = none ∨ (s.servo .vta (64 + k)).sync = false) :
    (Prog.delayRespRx k m seq ts).run s = s := by
  rw [Prog.delayRespRx, ptpTaken_takes s m _ h, Prog.run_get, Prog.run_cond]
  split
  next hslave =>
    cases ht : (s.servo .vta (64 + k)).t3 with
    | none => rfl
    | some q =>
      have hsync : (s.servo .vta (64 + k)).sync = false := by simpa [ht, beq_iff_eq.1 hslave] using hs
      dsimp only
      rw [hsync, Bool.and_false, Prog.run_cond_false]
  next => rfl

/-- The one asked for completes the exchange (R145). -/
theorem delayRespRx_completes (hs : s.rd .vta (ptpPort k) = 5) {t3 : Nat} (ht : (s.servo .vta (64 + k)).t3 = some (seq, t3))
    (hsync : (s.servo .vta (64 + k)).sync = true) : (Prog.delayRespRx k m seq ts).run s =
      (Prog.exchange .vta (64 + k) t3 (ts - m.corr).toNat 0 s.syncInterval).run s := by
  rw [Prog.delayRespRx, ptpTaken_takes s m _ h, Prog.run_get, hs, BEq.rfl, Prog.run_cond_true, ht]
  dsimp only
  rw [BEq.rfl, hsync, Bool.and_self, Prog.run_cond_true]

end

-- Announce

section
variable (gm : Word)

/-- An Announce of a grandmaster not listed is discarded and counted (R144). -/
theorem announceRx_unlisted (hg : s.gmIndex gm = none) : (Prog.announceRx k m gm).run s = s.ptpDiscarded := by
  rw [Prog.announceRx, ptpTaken_takes s m _ h, Prog.run_get, hg]
  rfl

variable {i : Nat}

/-- The uplink has heard a listed grandmaster, and its role is still to be set. -/
theorem announceRx_listed (hg : s.gmIndex gm = some i) : (Prog.announceRx k m gm).run s =
    (Prog.cond (s.rd .vta (ptpPort k) != 5) (.wr .vta (ptpPort k) (s.announceRole k))).run (s.announced k i) := by
  rw [Prog.announceRx, ptpTaken_takes s m _ h, Prog.run_get, hg]
  rfl

end

end

section
variable (s : State) {k : Nat} (hk : k < 2)

/-- What the VTA keeps of a listed grandmaster, whatever role the uplink then takes (R145). -/
theorem announced_shows (i v : Nat) (c : Bool) :
    let t := (Prog.cond c (.wr .vta (ptpPort k) v)).run (s.announced k i)
    (t.servo .vta (64 + k)).annMiss = 0 ∧ (t.servo .vta (64 + k)).mTimev = true := by
  cases c <;> simp [State.announced]

include hk

/-- The grandmaster, whatever role the uplink then takes. -/
theorem announced_gm {i : Nat} (hi : i < 4) (v : Nat) (c : Bool) :
    ((Prog.cond c (.wr .vta (ptpPort k) v)).run (s.announced k i)).rd .vta Reg.TIM_PTP_STATUS_GM_INDEX =
      if s.gmTaken i then i else s.rd .vta Reg.TIM_PTP_STATUS_GM_INDEX := by
  have hrd : (s.announced k i).rd .vta Reg.TIM_PTP_STATUS_GM_INDEX = if s.gmTaken i then i else s.rd .vta Reg.TIM_PTP_STATUS_GM_INDEX := by
    rw [announced_rd, Prog.run_cond]
    split
    · rw [Prog.run_wr, State.rd_wr_same _ _ _ _ (by decide)]
      exact Nat.mod_eq_of_lt hi
    · rfl
  rw [Prog.run_cond]
  split
  · rw [Prog.run_wr, State.rd_wr_other _ _ _ _ _ (.inr (gm_apart_ptpPort hk)), hrd]
  · exact hrd

/-- Its role before it takes one. -/
theorem announced_role (i : Nat) : (s.announced k i).rd .vta (ptpPort k) = s.rd .vta (ptpPort k) := by
  rw [announced_rd, Prog.run_cond]
  split
  · exact State.rd_wr_other _ _ _ _ _ (.inr (ptpPort_apart_gm hk))
  · rfl

/-- An uplink that hears no Announce any more (R145). -/
theorem announceLost_shows :
    let t := (Prog.announceLost k).run s
    t.rd .vta (ptpPort k) = 2 ∧ (t.servo .vta (64 + k)).annMiss = 3 ∧ (t.servo .vta (64 + k)).mTimev = false ∧
      (s.rd .vta (ptpPort k) = 5 → s.rd .vta (ptpPort (1 - k)) = 3 → t.rd .vta (ptpPort (1 - k)) = 5) ∧
      (s.rd .vta (ptpPort k) ≠ 5 → t.rd .vta (ptpPort (1 - k)) = s.rd .vta (ptpPort (1 - k))) := by
  rw [announceLost_run]
  refine ⟨rd_ptpPort_wr hk _ (by decide), ?_, ?_, fun hs ho => ?_, fun hs => ?_⟩
  · rw [servo_wr, handedOver_servo]
    simp
  · rw [servo_wr, handedOver_servo]
    simp
  · rw [State.rd_wr_other _ _ _ _ _ (.inr (ptpPort_apart_other hk)), hs, ho, BEq.rfl, BEq.rfl, Bool.and_self, Prog.run_cond_true,
      rd_handOver]
    exact rd_ptpPort_wr (by omega) _ (by decide)
  · rw [State.rd_wr_other _ _ _ _ _ (.inr (ptpPort_apart_other hk)), beq_false_of_ne hs, Bool.false_and, Prog.run_cond_false, rd_modServo]

end

-- the times of an exchange

section
variable (s : State) (k t1 t2 : Nat)

/-- The times of a Sync wait for the exchange that they belong to (R145). -/
theorem ptpTimes_servo : ((Prog.ptpTimes k t1 t2).run s).servo .vta (64 + k) =
    { s.servo .vta (64 + k) with t1, t2, sync := true, wait := none } := by
  rw [Prog.ptpTimes, Prog.run_get, Prog.run_both, Prog.run_cond]
  split
  · rw [Prog.run_wr, servo_wr, servo_modServo]
  · rw [servo_modServo]

variable (sub : Nat)

/-- No uplink is SLAVE: none sends a Delay_Req (R144). -/
theorem delayReqTx_none (h : ∀ k < 2, s.rd .vta (ptpPort k) ≠ 5) : (Prog.delayReqTx sub).run s = s := by
  have hf : ((List.range 2).find? fun k => s.rd .vta (ptpPort k) == 5) = none :=
    List.find?_eq_none.2 fun k hk => by simpa using h k (List.mem_range.1 hk)
  rw [Prog.delayReqTx, Prog.run_get, hf, Prog.run_opt_none]

/-- The SLAVE uplink sends one, stamped as it leaves (R144, R146). -/
theorem delayReqTx_shows (h : ((List.range 2).find? fun k => s.rd .vta (ptpPort k) == 5) = some k) :
    let t := (Prog.delayReqTx sub).run s
    (t.servo .vta (64 + k)).t3 = some (s.vx.ptpSeq, s.stampAt .vta sub + Config.mdiLatency k) ∧
      t.v.out = s.v.out ++ [.delayReq k s.vx.ptpSeq] ∧ t.vx.ptpSeq = (s.vx.ptpSeq + 1) % 65536 ∧ t.vregs = s.vregs := by
  dsimp only
  rw [Prog.delayReqTx, Prog.run_get, h]
  simp [Prog.modServo, State.servo]

end

end Sys2Proof.Machine

end

section

/-! # Fleet time is set by exchanges: O59 -/

namespace Sys2Proof.Machine

section
variable {s : State} {k : Nat} (hk : k < portCount .htu) (hr : (s.dev .htu).inReset = false) (m : TimeMsg) {q t3 : Nat}
  (ht : (s.servo .htu k).t3 = some (q, t3)) (hs : (s.servo .htu k).sync = true)
include hk hr ht hs

/-- A DLY_RESP that was asked for, by its SEQ and its port (R138 to R140, R147, R156). -/
theorem exec_dlyResp_asked :
    (q ≠ m.seq → exec (.dlyResp .htu k m) s = .next ((Prog.settle .htu).run s)) ∧
    (q = m.seq → s.timePort .htu ≠ some k → exec (.dlyResp .htu k m) s =
      .next ((Prog.settle .htu).run ((Prog.modServo .htu k (·.complete (s.servo .htu k).mTimev)).run s))) ∧
    (q = m.seq → s.timePort .htu = some k → ∀ n delay,
      n = 10 * (((s.servo .htu k).t2 - (s.servo .htu k).t1 : Int) - (m.ts - t3)) - 65536 * s.asym k →
      delay = divOpen ((((s.servo .htu k).t2 - (s.servo .htu k).t1 : Int) + (m.ts - t3)) * 5) 65536 →
      ∃ t, exec (.dlyResp .htu k m) s = .next ((Prog.settle .htu).run t) ∧ s.Exchanged k (s.exchInterval .htu k) n delay t) := by
  refine ⟨fun hq => ?_, fun hq hp => ?_, fun hq hp n delay hn hdelay => ?_⟩
  · rw [exec_dlyResp m hk hr, dlyRespRx_otherSeq s m ht hq]
  · rw [exec_dlyResp m hk hr, dlyRespRx_completes s m ht hs hq, exchange_passive hp]
  · obtain ⟨t, hsettle, hshows⟩ := exchange_shows (i := s.exchInterval .htu k) hk hp hn hdelay
    exact ⟨t, by rw [exec_dlyResp m hk hr, dlyRespRx_completes s m ht hs hq, hsettle], hshows⟩

end

section
variable {s : State} (hr : s.v.inReset = false) {k : Nat} (hk : k < 2) (m : PtpMsg) (gm : Word)
include hr hk

/-- An Announce of a listed grandmaster that is taken (R144, R145). -/
theorem exec_ptpAnnounce_listed {i : Nat}
    (h : m.udp = s.on .vta Reg.TIM_PTP_CFG_TRANSPORT ∧ m.other = false ∧ m.domain = s.rd .vta Reg.TIM_PTP_CFG_DOMAIN)
    (hg : s.gmIndex gm = some i) : ∃ t : State, exec (.ptpAnnounce k m gm) s = .next t ∧
      (t.servo .vta (64 + k)).annMiss = 0 ∧ (t.servo .vta (64 + k)).mTimev = true ∧
      (i < s.rd .vta Reg.TIM_PTP_STATUS_GM_INDEX → t.rd .vta Reg.TIM_PTP_STATUS_GM_INDEX = i) ∧
      (s.rd .vta Reg.TIM_PTP_STATUS_GM_INDEX < i → (s.servo .vta 64).mTimev = true → Sparse.get 0 s.vx.gmHeard i < 2 →
        t.rd .vta Reg.TIM_PTP_STATUS_GM_INDEX = s.rd .vta Reg.TIM_PTP_STATUS_GM_INDEX) ∧
      (s.rd .vta (ptpPort k) = 5 → t.rd .vta (ptpPort k) = 5) ∧
      (s.rd .vta (ptpPort k) ≠ 5 → s.rd .vta (ptpPort (1 - k)) = 5 → t.rd .vta (ptpPort k) = 3) := by
  obtain ⟨hmiss, hvalid⟩ := announced_shows s i (s.announceRole k) (s.rd .vta (ptpPort k) != 5) (k := k)
  have hgm := announced_gm s hk (gmIndex_lt hg) (s.announceRole k) (s.rd .vta (ptpPort k) != 5)
  refine ⟨_, (exec_ptpAnnounce hr hk m gm).trans (congrArg _ (announceRx_listed s m h k gm hg)), hmiss, hvalid, fun hi => ?_, fun hi hv hh => ?_,
    fun hs => ?_, fun hs ho => ?_⟩
  · have htake : s.gmTaken i = true := decide_eq_true (.inr (.inl hi.le))
    rw [hgm, if_pos htake]
  · have hnot : s.gmTaken i = false := by
      simp only [State.gmTaken, hv, Bool.true_or, Bool.not_true, Bool.false_eq_true, false_or, decide_eq_false_iff_not]
      omega
    rw [hgm, hnot]
    rfl
  · rw [hs, bne_self_eq_false, Prog.run_cond_false, announced_role s hk, hs]
  · rw [bne_iff_ne.2 hs, Prog.run_cond_true, Prog.run_wr, State.announceRole, if_pos ho, rd_ptpPort_wr hk _ (by decide)]

end

/-- Settles O59: a time message by its rule, where a step that answers a command is told from a state before that answer; a PTP message by the
checks that it passes. -/
theorem exchangesSetFleetTime : Obligations.ExchangesSetFleetTime := by
  refine ⟨fun u k m s hk hr => ⟨fun _ => rfl, ?_, ?_, ?_, ?_, ?_, ?_, ?_, ?_⟩,
    fun s hr => ⟨fun k hk m gm x => ⟨?_, ?_, ?_, ?_⟩, fun sub => ⟨?_, ?_⟩⟩⟩
  · rintro sub rfl
    rw [exec_sync m hk hr, syncRx_vta]
  · rintro sub rfl
    exact ⟨_, exec_sync m hk hr sub, syncRx_shows s m (s.stampAt .htu sub)⟩
  · intro sub hm
    rw [exec_dlyReq m hk hr, dlyReqRx_slave _ _ _ hm]
  · intro sub hm
    rw [exec_dlyReq m hk hr, dlyReqRx_master _ _ _ hm]
  · intro h
    rw [exec_dlyResp m hk hr, dlyRespRx_discarded _ _ h]
  · rintro q t3 rfl ht hs
    obtain ⟨hother, hpassive, hactive⟩ := exec_dlyResp_asked hk hr m ht hs
    exact ⟨hother, hpassive, fun hq hp => hactive hq hp _ _ rfl rfl⟩
  · intro h
    rw [exec_exchangeInterval hk hr, exchangeTick_down _ _ _ h]
  · intro h
    exact ⟨_, exec_exchangeInterval hk hr, exchangeTick_up s u k h⟩
  · intro hhere
    refine ⟨fun sub => ?_, ?_, ?_⟩
    · rw [exec_ptpSync hr hk, Prog.ptpSyncRx, ptpTaken_elsewhere _ _ _ hhere]
    · rw [exec_ptpDelayResp hr hk, Prog.delayRespRx, ptpTaken_elsewhere _ _ _ hhere]
    · rw [exec_ptpAnnounce hr hk, Prog.announceRx, ptpTaken_elsewhere _ _ _ hhere]
  · intro hhere htaken
    have ho := fun h => htaken ⟨hhere, h⟩
    refine ⟨fun sub => ?_, ?_, ?_⟩
    · rw [exec_ptpSync hr hk, Prog.ptpSyncRx, ptpTaken_discards _ _ _ hhere ho, State.ptpDiscarded]
    · rw [exec_ptpDelayResp hr hk, Prog.delayRespRx, ptpTaken_discards _ _ _ hhere ho, State.ptpDiscarded]
    · rw [exec_ptpAnnounce hr hk, Prog.announceRx, ptpTaken_discards _ _ _ hhere ho, State.ptpDiscarded]
  · intro h
    refine ⟨fun sub hm => ?_, fun sub hm hf => ?_, fun sub hm hf => ?_, fun sub hm hf hw => ?_, fun sub t2 corr hm hf hw => ?_,
      fun t1 t2 => ⟨_, rfl, ?_⟩, fun hs => ?_, fun t3 hs ht hsync => ?_, fun hg => ?_, fun i hg => ?_⟩
    · rw [exec_ptpSync hr hk, ptpSyncRx_other s m h k gm x sub hm]
    · rw [exec_ptpSync hr hk, ptpSyncRx_mine s m h k gm x sub hm, hf]
    · rw [exec_ptpSync hr hk, ptpSyncRx_mine s m h k gm x sub hm, hf]
    · rw [exec_ptpSync hr hk, ptpSyncRx_stray s m h k gm x sub hm hf hw]
    · rw [exec_ptpSync hr hk, ptpSyncRx_followUp s m h k gm x sub hm hf hw]
    · rw [ptpTimes_servo]
      exact ⟨rfl, rfl, rfl⟩
    · rw [exec_ptpDelayResp hr hk, delayRespRx_stray s m h k _ _ hs]
    · rw [exec_ptpDelayResp hr hk, delayRespRx_completes s m h k _ _ hs ht hsync]
    · rw [exec_ptpAnnounce hr hk, announceRx_unlisted s m h k gm hg, State.ptpDiscarded]
    · exact exec_ptpAnnounce_listed hr hk m gm h hg
  · exact ⟨_, exec_announceTimeout hr hk, announceLost_shows s hk⟩
  · intro h
    rw [exec_ptpDelayReq hr, delayReqTx_none s sub h]
  · intro k h
    exact ⟨_, exec_ptpDelayReq hr sub, delayReqTx_shows s k sub h⟩

end Sys2Proof.Machine

end

section

/-! # Edges of a cluster clock, commands and the background scan: O42 -/

namespace Sys2Proof.Machine

variable (s : State) (p : Nat)

-- counts of a station

/-- A count under its number, by one where its event occurs; a count of a command stays at its largest value (R165, R172). -/
def countEvent (occurs : Nat → Bool) (sat : Bool) (l : List (Nat × BitVec 40)) (sl : Nat) : List (Nat × BitVec 40) :=
  if occurs sl then
    Sparse.set 0 l sl (if sat && Sparse.get 0 l sl == BitVec.allOnes 40 then Sparse.get 0 l sl else Sparse.get 0 l sl + 1)
  else l

/-- The event of one slice is no other slice's. -/
theorem countEvent_other (occurs : Nat → Bool) (sat : Bool) (l : List (Nat × BitVec 40)) {sl k : Nat} (h : k ≠ sl) :
    Sparse.get 0 (countEvent occurs sat l sl) k = Sparse.get 0 l k := by
  rw [countEvent]
  split
  · exact Sparse.get_set_other _ _ _ _ h
  · rfl

/-- A slice counts its event, and wraps (R165). -/
theorem countEvent_slice (occurs : Nat → Bool) (l : List (Nat × BitVec 40)) (sl : Nat) :
    Sparse.get 0 (countEvent occurs false l sl) sl = Sparse.get 0 l sl + (if occurs sl then 1 else 0) := by
  rw [countEvent]
  split
  · exact Sparse.get_set_same _ _ _ _
  · exact (BitVec.add_zero _).symm

/-- A count whose number is not among those that count stays. -/
theorem countEvents_other (occurs : Nat → Bool) (sat : Bool) (ks : List Nat) (l : List (Nat × BitVec 40)) {k : Nat} (h : k ∉ ks) :
    Sparse.get 0 (ks.foldl (countEvent occurs sat) l) k = Sparse.get 0 l k := by
  induction ks generalizing l with
  | nil => rfl
  | cons j ks ih =>
    obtain ⟨hj, hks⟩ := not_or.1 (mt List.mem_cons.2 h)
    exact (ih _ hks).trans (countEvent_other _ _ _ hj)

/-- Each slice among those that count does so once (R165). -/
theorem countEvents_slice (occurs : Nat → Bool) {ks : List Nat} (hks : ks.Nodup) (l : List (Nat × BitVec 40)) {k : Nat} (h : k ∈ ks) :
    Sparse.get 0 (ks.foldl (countEvent occurs false) l) k = Sparse.get 0 l k + (if occurs k then 1 else 0) := by
  induction ks generalizing l with
  | nil => exact absurd h List.not_mem_nil
  | cons j ks ih =>
    obtain ⟨hj, hks⟩ := List.nodup_cons.1 hks
    rw [List.foldl_cons]
    rcases List.mem_cons.1 h with rfl | hk
    · rw [countEvents_other _ _ _ _ hj, countEvent_slice]
    · rw [ih hks _ hk, countEvent_other _ _ _ (ne_of_mem_of_not_mem hk hj)]

/-- A station after an edge at which the events that `occurs` names take place, in a command of number `id` (R165, R172). -/
def Station.edge (t : Station) (e : EdgeIn) (id : Nat) (occurs : Nat → Bool) : Station :=
  { t with oldSlices := t.slices, slices := (List.range 16).foldl (countEvent occurs false) t.slices
           oldCmds := if t.fresh then t.oldCmds else t.cmds, oldId := if t.fresh then t.oldId else BitVec.ofNat 32 id
           cmds := (List.range 16).foldl (countEvent occurs true) t.cmds
           bound := t.fresh, fresh := false, prev := e.tap, cycles := t.cycles + 1 }

/-- The slices of a station after an edge. -/
theorem edge_slice (t : Station) (e : EdgeIn) (id : Nat) (occurs : Nat → Bool) {sl : Nat} (h : sl < 16) :
    Sparse.get 0 (t.edge e id occurs).slices sl = Sparse.get 0 t.slices sl + (if occurs sl then 1 else 0) :=
  countEvents_slice occurs List.nodup_range t.slices (List.mem_range.2 h)

section
variable (e : EdgeIn)

/-- In Fallow no edge counts (R174). -/
theorem countEdge_fallow (tileEnd : Bool) (h : (s.station p).fallow = true) : (Prog.countEdge p e tileEnd).run s = s := by
  simp only [Prog.countEdge, Prog.run_get, h, Bool.not_true, Prog.run_cond_false]

/-- A station that serves no cluster sees the levels of its lines (R166). -/
theorem countEdge_spare (tileEnd : Bool) (h : (s.station p).fallow = false) (hs : s.serves p = false) :
    (Prog.countEdge p e tileEnd).run s = (Prog.modStation p fun t => { t with prev := e.tap }).run s := by
  simp only [Prog.countEdge, Prog.run_get, h, hs, Bool.not_false, Prog.run_cond_true, if_true]

/-- The event of a slice of the cluster that a station serves takes place at an edge (R165 to R167). -/
def State.occurs (s : State) (p : Nat) (e : EdgeIn) (tileEnd : Bool) (sl : Nat) : Bool :=
  eventCounts (s.rd .htu (Reg.TAP_SLICE_CFG_EVENT (s.rd .htu (Reg.TAP_PHYS_LOGICAL p)) sl)) e (s.station p).prev tileEnd (s.station p).fresh

/-- A serving station counts (R165, R172). -/
theorem countEdge_run (tileEnd : Bool) (h : (s.station p).fallow = false) (hs : s.serves p = true) :
    (Prog.countEdge p e tileEnd).run s = (Prog.modStation p fun t =>
      t.edge e (s.rd .htu (Reg.TAP_CLU_STATE_CMD_ID (s.rd .htu (Reg.TAP_PHYS_LOGICAL p)))) (s.occurs p e tileEnd)).run s := by
  simp only [Prog.countEdge, Prog.run_get, h, hs, Bool.not_false, Bool.not_true, Prog.run_cond_true, Bool.false_eq_true, if_false]
  rfl

-- the lane at an edge

/-- The engine signals of an edge change no register, nothing of the common part, and no station (R223). -/
theorem laneEdge_fixes : (Prog.laneEdge p e).fixes fun s => (s.hregs, s.h, s.hx.stations) := by
  have hlane (f : Lane → Lane) : (Prog.modLane p f).fixes fun s => (s.hregs, s.h, s.hx.stations) := fun _ => rfl
  refine Prog.fixes_get fun s => Prog.fixes_cond (Prog.fixes_seq_cons (Prog.fixes_opt fun _ => hlane _)
    (Prog.fixes_seq_cons (Prog.fixes_opt fun _ => Prog.fixes_opt fun _ => Prog.fixes_both (hlane _) ?_) Prog.fixes_seq_nil))
  exact Prog.fixes_get fun _ => Prog.fixes_opt fun _ => Prog.fixes_cond (Prog.fixes_both (Prog.fixes_get fun _ => hlane _) (hlane _))

/-- In Fallow the lane sees no edge. -/
theorem laneEdge_fallow (h : (s.station p).fallow = true) : (Prog.laneEdge p e).run s = s := by
  rw [Prog.laneEdge, Prog.run_get, h, Bool.not_true, Prog.run_cond_false]

/-- An edge that carries neither an operand nor a result row leaves the lane (R223). -/
theorem laneEdge_quiet (ho : e.op = none) (hr : e.res = none) : (Prog.laneEdge p e).run s = s := by
  rw [Prog.laneEdge, Prog.run_get, ho, hr, Prog.run_cond]
  split
  · rfl
  · rfl

/-- An operand cycle of the only tile that is open (R224, R227). -/
theorem laneEdge_tile {o : OpRow} {y : Tile} (h : (s.station p).fallow = false) (ho : e.op = some o) (hr : e.res = none)
    (ht : (s.lane p).tiles = [y]) (hk : (s.lane p).taking = true) : (((Prog.laneEdge p e).run s).lane p).tiles = [y.operand o] := by
  rw [Prog.laneEdge, Prog.run_get, h, Bool.not_false, Prog.run_cond_true, ho, hr, Prog.run_seq_cons, Prog.run_seq_cons, Prog.run_seq_nil,
    Prog.run_opt_none, Prog.run_opt_some, modLane_same, hk, if_pos rfl, ht]
  rfl

/-- An edge changes its own station and its lane (R165, R223). -/
theorem clockEdge_leaves (f : Station → Station) :
    let t := (Prog.laneEdge p e).run ((Prog.modStation p f).run s)
    t.hregs = s.hregs ∧ t.h = s.h ∧ t.station p = f (s.station p) ∧ ∀ q, q ≠ p → t.station q = s.station q := by
  intro t
  have hleft := laneEdge_fixes p e ((Prog.modStation p f).run s)
  simp only [Prod.mk.injEq] at hleft
  obtain ⟨hregs, hh, hstations⟩ := hleft
  have hst (q : Nat) : t.station q = ((Prog.modStation p f).run s).station q := congrArg (fun l => Sparse.get ({} : Station) l q) hstations
  exact ⟨hregs, hh, (hst p).trans (modStation_same s p f), fun q hq => (hst q).trans (modStation_other s p f hq)⟩

end

-- command boundaries

/-- Outside command counting, at a station that serves no cluster or in Fallow, a boundary changes nothing (R171). -/
theorem boundary_none (h : s.on .htu Reg.TAP_CMD_CFG_CMD_EN = false ∨ s.serves p = false ∨ (s.station p).fallow = true) :
    (Prog.boundary p).run s = s := by
  have hc : (s.on .htu Reg.TAP_CMD_CFG_CMD_EN && s.serves p && !(s.station p).fallow) = false := by
    rcases h with h | h | h <;> simp [h]
  rw [Prog.boundary, Prog.run_get]
  dsimp only
  rw [hc, Prog.run_cond_false]

/-- The number that a boundary gives the next command (R171). -/
def State.nextId (s : State) (p : Nat) : Nat :=
  if s.on .htu Reg.TAP_CMD_CFG_ID_SRC then (s.station p).idWord.toNat
  else s.rd .htu (Reg.TAP_CLU_STATE_CMD_ID (s.rd .htu (Reg.TAP_PHYS_LOGICAL p))) + 1

/-- What a boundary leaves of the station (R171 to R173). -/
def Station.boundary (t : Station) (id : Nat) : Station :=
  { t with oldCmds := t.cmds, oldId := BitVec.ofNat 32 id, cmds := [], fresh := true }

/-- A boundary ends the counts of a command, and the next has its number (R171). -/
theorem boundary_run (he : s.on .htu Reg.TAP_CMD_CFG_CMD_EN = true) (hs : s.serves p = true) (hf : (s.station p).fallow = false) :
    let id := Reg.TAP_CLU_STATE_CMD_ID (s.rd .htu (Reg.TAP_PHYS_LOGICAL p))
    (Prog.boundary p).run s = ((Prog.modStation p fun t => t.boundary (s.rd .htu id)).run s).wr .htu id (s.nextId p) := by
  rw [Prog.boundary, Prog.run_get]
  dsimp only
  rw [he, hs, hf, Bool.not_false, Bool.and_self, Bool.and_self, Prog.run_cond_true, Prog.run_both, Prog.run_wr]
  rfl

/-- The registers and the station after a boundary (R171 to R173). -/
theorem boundary_leaves (he : s.on .htu Reg.TAP_CMD_CFG_CMD_EN = true) (hs : s.serves p = true) (hf : (s.station p).fallow = false) :
    let n := s.rd .htu (Reg.TAP_PHYS_LOGICAL p)
    let t := (Prog.boundary p).run s
    t.h = s.h ∧ t.rd .htu (Reg.TAP_CLU_STATE_CMD_ID n) = s.nextId p % 2 ^ 32 ∧
      t.station p = (s.station p).boundary (s.rd .htu (Reg.TAP_CLU_STATE_CMD_ID n)) ∧
      ∀ off, off ≠ 0x10800 + 8 * n → t.word .htu off = s.word .htu off := by
  intro n t
  have ht : t = _ := boundary_run s p he hs hf
  rw [ht]
  refine ⟨rfl, State.rd_wr_same _ _ _ _ (show 32 + 32 ≤ 64 by decide), ?_, fun off hoff => ?_⟩
  · rw [station_wr, modStation_same]
  · rw [State.word_wr_other _ _ _ _ (.inr hoff), modStation_word]

-- the background scan

/-- A station that is not ACTIVE is not scanned (R169). -/
theorem scan_none (sl : Nat) (h : s.rd .htu (Reg.TAP_PHYS_STATE p) ≠ phActive) : (Prog.scan p sl).run s = s := by
  rw [Prog.scan, Prog.run_get, beq_false_of_ne h, Prog.run_cond_false]

/-- The scan of an ACTIVE station takes the network for some cycles and reads the slice (R169, R175). -/
theorem scan_run (sl : Nat) (h : s.rd .htu (Reg.TAP_PHYS_STATE p) = phActive) : (Prog.scan p sl).run s =
    (Prog.carry (s.rd .htu (Reg.TAP_PHYS_LOGICAL p)) sl (Sparse.get 0 (s.station p).oldSlices sl)).run (Prog.hedgeBusy.run s) := by
  rw [Prog.scan, Prog.run_get, beq_iff_eq.2 h, Prog.run_cond_true, Prog.run_both]

/-- A slice that still shows its last reading carries nothing (R169). -/
theorem carry_same {n sl : Nat} {v : BitVec 40} (h : v = Sparse.get 0 s.hx.last (16 * n + sl)) : (Prog.carry n sl v).run s = s := by
  have hd : v - Sparse.get 0 s.hx.last (16 * n + sl) = 0 := sub_eq_zero_of_eq h
  simp only [Prog.carry, Prog.run_get, hd, bne_self_eq_false, Prog.run_cond_false]

/-- A slice that shows another value carries its advance (R169). -/
theorem carry_run {n sl : Nat} {v : BitVec 40} (h : v ≠ Sparse.get 0 s.hx.last (16 * n + sl)) : (Prog.carry n sl v).run s =
    (Prog.htu fun x => { x with last := Sparse.set 0 x.last (16 * n + sl) v }).run
      (s.wr .htu (Reg.TAP_ACC_ACC n sl) (s.rd .htu (Reg.TAP_ACC_ACC n sl) + (v - Sparse.get 0 s.hx.last (16 * n + sl)).toNat)) := by
  have hd : v - Sparse.get 0 s.hx.last (16 * n + sl) ≠ 0 := sub_ne_zero_of_ne h
  simp only [Prog.carry, Prog.run_get, bne_iff_ne.2 hd, Prog.run_cond_true, Prog.run_both, Prog.run_count]

/-- A slice that is read carries its advance into its accumulator, and the value read is its last (R169). -/
theorem carry_leaves (n sl : Nat) (v : BitVec 40) :
    let t := (Prog.carry n sl v).run s
    t.rd .htu (Reg.TAP_ACC_ACC n sl) = (s.rd .htu (Reg.TAP_ACC_ACC n sl) + (v - Sparse.get 0 s.hx.last (16 * n + sl)).toNat) % 2 ^ 64 ∧
      Sparse.get 0 t.hx.last (16 * n + sl) = v ∧ t.hx.stations = s.hx.stations ∧
      ∀ off, off ≠ (Reg.TAP_ACC_ACC n sl).off → t.word .htu off = s.word .htu off := by
  intro t
  by_cases h : v = Sparse.get 0 s.hx.last (16 * n + sl)
  · have hlt : s.rd .htu (Reg.TAP_ACC_ACC n sl) < 2 ^ 64 := State.rd_lt _ _ _
    rw [show t = s from carry_same s h, ← h, BitVec.sub_self]
    exact ⟨(Nat.mod_eq_of_lt hlt).symm, rfl, rfl, fun _ _ => rfl⟩
  · rw [show t = _ from carry_run s h, Prog.run_htu]
    refine ⟨?_, Sparse.get_set_same _ _ _ _, by rw [State.wr_hx], fun off hoff => ?_⟩
    · rw [State.rd_hx]
      exact State.rd_wr_same _ _ _ _ (show 0 + 64 ≤ 64 by decide)
    · rw [State.word_hx, State.word_wr_other _ _ _ _ (.inr hoff)]

/-- What the scan of a slice leaves (R169, R175). -/
theorem scan_leaves (sl : Nat) (h : s.rd .htu (Reg.TAP_PHYS_STATE p) = phActive) :
    let n := s.rd .htu (Reg.TAP_PHYS_LOGICAL p)
    let v := Sparse.get 0 (s.station p).oldSlices sl
    let t := (Prog.scan p sl).run s
    t.rd .htu (Reg.TAP_ACC_ACC n sl) = (s.rd .htu (Reg.TAP_ACC_ACC n sl) + (v - Sparse.get 0 s.hx.last (16 * n + sl)).toNat) % 2 ^ 64 ∧
      Sparse.get 0 t.hx.last (16 * n + sl) = v ∧ t.hx.stations = s.hx.stations ∧
      ∀ off, off ≠ 0x18000 + 128 * n + 8 * sl → off ≠ (Reg.TAP_DIE_CNT_COUNT 7).off → t.word .htu off = s.word .htu off := by
  intro n v t
  have hword (off : Nat) (hoff : off ≠ (Reg.TAP_DIE_CNT_COUNT 7).off) : (Prog.hedgeBusy.run s).word .htu off = s.word .htu off := by
    rw [hedgeBusy_run, State.word_wr_other _ _ _ _ (.inr hoff)]
    rfl
  have hacc : (Prog.hedgeBusy.run s).rd .htu (Reg.TAP_ACC_ACC n sl) = s.rd .htu (Reg.TAP_ACC_ACC n sl) :=
    congrArg (Reg.TAP_ACC_ACC n sl).getW (hword _ (by simp only [Reg.TAP_ACC_ACC, Reg.TAP_DIE_CNT_COUNT]; omega))
  obtain ⟨hsum, hlast, hstations, hkeep⟩ := carry_leaves (Prog.hedgeBusy.run s) n sl v
  rw [hacc] at hsum
  rw [show t = _ from scan_run s p sl h]
  exact ⟨hsum, hlast, hstations, fun off h1 h2 => (hkeep off h1).trans (hword off h2)⟩

-- words of a trace source

section
variable (tag : BitVec 8) (w : Word)

/-- In Fallow, and from a RETIRED station, no word is taken (R171, R351). -/
theorem trcSrc_none (h : (s.station p).fallow = true ∨ s.rd .htu (Reg.TAP_PHYS_STATE p) = phRetired) : (Prog.trcSrc p tag w).run s = s := by
  have hc : (!(s.station p).fallow && s.rd .htu (Reg.TAP_PHYS_STATE p) != phRetired) = false := by
    rcases h with h | h <;> simp [h]
  rw [Prog.trcSrc, Prog.run_get]
  dsimp only
  rw [hc, Prog.run_cond_false]

/-- A word of the ID tag is the station's next command number (R171). -/
def State.idTaken (s : State) (p : Nat) (tag : BitVec 8) (w : Word) : State :=
  (Prog.cond (tag.toNat == s.rd .htu Reg.TAP_CMD_CFG_ID_TAG) (.modStation p fun t => { t with idWord := w.setWidth 32 })).run s

/-- A word from a cluster of the partition that holds trace: it is lost where the FIFO has fewer than four free entries, waits in that of a
stalled station, or goes to the recorder (R45, R351). -/
theorem trcSrc_run (hf : (s.station p).fallow = false) (hr : s.rd .htu (Reg.TAP_PHYS_STATE p) ≠ phRetired) (hs : s.serves p = true)
    (ho : s.owner (s.rd .htu (Reg.TAP_PHYS_LOGICAL p)) = s.rd .htu Reg.TRC_STATUS_OWNER) : (Prog.trcSrc p tag w).run s =
    (if 12 < (s.station p).out.length then (Prog.loseWord .htu (s.rd .htu (Reg.TAP_PHYS_LOGICAL p)) 1).run (s.idTaken p tag w)
      else if (s.station p).stalled = true then (Prog.modStation p fun t => { t with out := t.out ++ [.trace tag w] }).run (s.idTaken p tag w)
      else (Prog.traceWord p tag w).run (Prog.hedgeBusy.run (s.idTaken p tag w))) := by
  have hc : (!(s.station p).fallow && s.rd .htu (Reg.TAP_PHYS_STATE p) != phRetired) = true := by simp [hf, hr]
  rw [Prog.trcSrc, Prog.run_get]
  dsimp only
  rw [hc, hs, beq_iff_eq.2 ho, Bool.and_self, Prog.run_cond_true, Prog.run_seq_cons, Prog.run_seq_cons, Prog.run_seq_nil, Prog.run_cond_true,
    ← State.idTaken]
  split
  · rfl
  · split
    · rfl
    · rfl

end

/-- Settles O42: each row by what the station shows before it. -/
theorem slicesCountEdges : Obligations.SlicesCountEdges := by
  intro p s hp hr n st
  have hedge (e : EdgeIn) : exec (.clusterClockEdge p e) s = .next ((Prog.laneEdge p e).run ((Prog.countEdge p e false).run s)) :=
    (nextIf_of hp _ s).trans (next_up (u := .htu) _ hr)
  have hbound : exec (.commandBoundary p) s = .next ((Prog.boundary p).run s) := (nextIf_of hp _ s).trans (next_up (u := .htu) _ hr)
  have hscan (sl : Nat) (hsl : sl < 16) : exec (.backgroundScan p sl) s = .next ((Prog.scan p sl).run s) :=
    (congrArg (Prog.nextIf · (.up .htu (.scan p sl)) s) (Bool.and_eq_true_iff.2 ⟨decide_eq_true hp, decide_eq_true hsl⟩)).trans (next_up _ hr)
  have htrc (tag : BitVec 8) (w : Word) : exec (.trcSrcWord p tag w) s = .next ((Prog.trcSrc p tag w).run s) :=
    (nextIf_of hp _ s).trans (next_up (u := .htu) _ hr)
  refine ⟨fun e hf => ?_, fun e hf hs => ⟨_, hedge e, ?_⟩, fun e hf hs => ⟨_, hedge e, ?_⟩, fun h => by rw [hbound, boundary_none s p h],
    fun he hs hf => ⟨_, hbound, boundary_leaves s p he hs hf⟩,
    fun sl hsl => ⟨fun h => by rw [hscan sl hsl, scan_none s p sl h], fun h => ⟨_, hscan sl hsl, scan_leaves s p sl h⟩⟩,
    fun tag w h => by rw [htrc, trcSrc_none s p tag w h],
    fun tag w hf hret hs ho => (htrc tag w).trans (congrArg _ (trcSrc_run s p tag w hf hret hs ho))⟩
  · rw [hedge, countEdge_fallow s p e false hf, laneEdge_fallow s p e hf]
  · rw [countEdge_spare s p e false hf hs]
    obtain ⟨hregs, hh, hst, -⟩ := clockEdge_leaves s p e fun t => { t with prev := e.tap }
    exact ⟨hregs, hh, hst⟩
  · rw [countEdge_run s p e false hf hs]
    obtain ⟨hregs, hh, hst, hother⟩ := clockEdge_leaves s p e fun t => t.edge e (s.rd .htu (Reg.TAP_CLU_STATE_CMD_ID n)) (s.occurs p e false)
    refine ⟨hregs, hh, by rw [hst]; rfl, by rw [hst]; rfl, fun sl hsl => ?_, hother, fun ho hres => ?_,
      fun o y ho hres => laneEdge_tile _ p e ((congrArg Station.fallow (modStation_same s p _)).trans hf) ho hres⟩
    · rw [hst]
      exact edge_slice st e _ (s.occurs p e false) hsl
    · rw [laneEdge_quiet _ p e ho hres]
      rfl

end Sys2Proof.Machine

end

section

/-! # The Sentinel's commands and its self-test: O18 -/

namespace Sys2Proof.Machine

-- records of the HTU

section
variable {P : Prog → Prop} (hd : ∀ f, P (.dev .htu f)) (hw : ∀ f v, 0x90000 ≤ f.off → P (.wr .htu f v))
include hd

theorem modStream_htu_changes (sid : Nat) (f : Stream → Stream) : (Prog.modStream .htu sid f).changes P := hd _

include hw

/-- A record that leaves the HTU writes no register word below those of the scheduler (R386, R387). -/
theorem deliver_htu_changes (sid svc : Nat) (st : Stream) (r : Rec) : (Prog.deliver .htu sid svc st r).changes P := by
  have hhead (v : Nat) : P (.wr .htu Reg.SCH_HRING_HEAD v) := hw _ _ (by decide)
  simp [Prog.deliver, Prog.hostRing, Prog.send, modStream_htu_changes hd, hd, hhead]

/-- A record with its number likewise (R124). -/
theorem put_htu_changes (sid : Nat) (r : Rec) (svc : Option Nat) : (Prog.put .htu sid r svc).changes P := by
  simp [Prog.put, deliver_htu_changes hd hw, modStream_htu_changes hd]

/-- The close of a full segment likewise (R125). -/
theorem closeFull_htu_changes (sid : Nat) : (Prog.closeFull .htu sid).changes P := by
  simp [Prog.closeFull, Prog.closeChain, deliver_htu_changes hd hw, modStream_htu_changes hd]

/-- A record that the HTU produces, or drops, writes no register word below those of the scheduler (R386, R395). -/
theorem emitSvc_htu_changes (sid : Nat) (svc t : Option Nat) (edit : Rec → Rec) : (Prog.emitSvc .htu sid svc t edit).changes P := by
  have hdrops (p q v : Nat) : P (.wr .htu (Reg.SCH_Q_DROPS p q) v) := hw _ _ (by simp only [Reg.SCH_Q_DROPS]; omega)
  simp [Prog.emitSvc, Prog.putNext, Prog.flushLoss, Prog.dropRecs, Prog.bumpBy, put_htu_changes hd hw, closeFull_htu_changes hd hw,
    modStream_htu_changes hd, hdrops]

/-- A record of the Sentinel's stream writes SNT_STREAM, or what a record of the HTU writes (R264). -/
theorem sntRec_changes (hs : ∀ v, P (.wr .htu Reg.SNT_STREAM_DROPPED v)) (typ : Nat) (step : BitVec 32) (t : Option Nat) (pl : List Byte) :
    (Prog.sntRec typ step t pl).changes P := by
  simp [Prog.sntRec, Prog.emitAt, Prog.bump, Prog.bumpBy, emitSvc_htu_changes hd hw, hs]

end

-- the lane table

/-- What lanes read that take each a state of its own. -/
theorem rd_laneStates (l : List Nat) (v : Nat → Nat) (hv : ∀ k, v k < 4) (n : Nat) (s : State) :
    ((Prog.each l fun k => .wr .htu (Reg.SNT_LANE_STATE k) (v k)).run s).rd .htu (Reg.SNT_LANE_STATE n) =
      if n ∈ l then v n else s.rd .htu (Reg.SNT_LANE_STATE n) := by
  induction l generalizing s with
  | nil => rfl
  | cons k l ih =>
    rw [Prog.run_each_cons, ih, Prog.run_wr]
    by_cases hl : n ∈ l
    · simp [hl]
    · by_cases hk : n = k
      · subst hk
        simpa [hl] using (State.rd_wr_same s .htu (Reg.SNT_LANE_STATE n) (v n) (show 0 + 2 ≤ 64 by decide)).trans (Nat.mod_eq_of_lt (hv n))
      · rw [if_neg hl, if_neg (by simp [hl, hk]), State.rd_wr_other _ _ _ _ _ (by simp only [Reg.SNT_LANE_STATE]; omega)]

theorem hx_laneStates (l : List Nat) (v : Nat → Nat) (s : State) :
    ((Prog.each l fun k => .wr .htu (Reg.SNT_LANE_STATE k) (v k)).run s).hx = s.hx :=
  Prog.changes.hx (g := id) (by simp) s

/-- LANES_BAD and a record of the Sentinel change neither the lane table nor the count of self-tests (R260, R264). -/
theorem showLanes_sntRec_fixes (typ : Nat) (step : BitVec 32) (t : Option Nat) (pl : List Byte) {n : Nat} (hn : n < 272) :
    (Prog.both .showLanes (.sntRec typ step t pl)).fixes fun s => (s.rd .htu (Reg.SNT_LANE_STATE n), s.hx.selftests) := by
  have hk : (Prog.both .showLanes (.sntRec typ step t pl)).keeps fun _ o => o < 0x31000 ∨ 0x90000 ≤ o := Prog.changes.keeps
    ⟨fun _ => .inl (by decide), sntRec_changes (fun _ => trivial) (fun _ _ => .inr) (fun _ => .inl (by decide)) _ _ _ _⟩
  have hx : (Prog.both .showLanes (.sntRec typ step t pl)).changes (Prog.htuLeaf HtuX.selftests) :=
    ⟨fun _ => trivial, sntRec_changes (fun _ => trivial) (fun _ _ _ => trivial) (fun _ => trivial) _ _ _ _⟩
  exact fun s => Prod.ext (Prog.rd_keeps hk _ (by simp only [Reg.SNT_LANE_STATE]; omega) s) (hx.hx s)

-- the self-test

section
variable (s : State) (m : Nat) (p : Packet)

/-- The lanes that a SELFTEST_RUN asks for (R259). -/
def selftestAsked (p : Packet) : List Nat :=
  if (arg p 40 1).testBit 0 then (List.range 272).filter fun n => (fieldAt p.params (n / 8) 1).testBit (n % 8) else []

/-- The lanes that it tests: those whose cluster is not in Fallow (R260). -/
def State.selftestLanes (s : State) (p : Packet) : List Nat := (selftestAsked p).filter fun n => !(s.station n).fallow

/-- The lanes that fail one of the four tiles of the next self-test (R259). -/
def State.selftestBad (s : State) (p : Packet) : List Nat :=
  (s.selftestLanes p).filter fun n => (List.range 4).any fun t => !Config.selftestLane s.hx.selftests n t

/-- The masks of lanes that failed and of lanes that were not tested (R260). -/
def State.selftestData (s : State) (p : Packet) : List Byte :=
  laneMask (s.selftestBad p) 40 ++ laneMask ((selftestAsked p).filter fun n => (s.station n).fallow) 40

/-- The lane table after the self-test. -/
def State.selftestMarked (s : State) (p : Packet) : State :=
  (Prog.each (s.selftestLanes p) fun n => .wr .htu (Reg.SNT_LANE_STATE n) (if (s.selftestBad p).contains n then 1 else 0)).run
    { s with hx := { s.hx with selftests := s.hx.selftests + 1 } }

/-- The state in which a self-test replies. -/
def State.selftestEnd (s : State) (p : Packet) : State :=
  (Prog.both .showLanes (.sntRec 0x44 0 none (s.selftestData p))).run (s.selftestMarked p)

/-- SELFTEST_RUN marks its lanes and replies with the number of those that failed, the digest unit's failures among them (R260). -/
theorem selftest_run : ∃ result, (opSelftest.run .htu m p).run s = (s.selftestEnd p).okay .htu m p result (s.selftestData p) := ⟨_, rfl⟩

theorem selftestData_length : (s.selftestData p).length = 80 := by
  simp [State.selftestData, laneMask]

/-- A lane of the die is tested where the command asks for it and its cluster is not in Fallow. -/
theorem mem_selftestLanes {n : Nat} (hn : n < 272) : n ∈ s.selftestLanes p ↔
    ((arg p 40 1).testBit 0 && (fieldAt p.params (n / 8) 1).testBit (n % 8) && !(s.station n).fallow) = true := by
  rw [State.selftestLanes, List.mem_filter, selftestAsked]
  split
  · simp [*]
  · simp [*]

/-- A lane that is tested is bad unless all four tiles came out right. -/
theorem selftestBad_contains {n : Nat} (hn : n ∈ s.selftestLanes p) :
    (if (s.selftestBad p).contains n then 1 else 0) =
      if (List.range 4).all (fun k => Config.selftestLane s.hx.selftests n k) = true then 0 else 1 := by
  have hb : (s.selftestBad p).contains n = !(List.range 4).all fun k => Config.selftestLane s.hx.selftests n k := by
    rw [List.not_all_eq_any_not, List.contains_eq_mem, Bool.eq_iff_iff, decide_eq_true_iff, State.selftestBad, List.mem_filter, and_iff_right hn]
  rw [hb]
  cases (List.range 4).all fun k => Config.selftestLane s.hx.selftests n k
  · rfl
  · rfl

/-- A self-test is counted. -/
theorem selftestMarked_selftests : (s.selftestMarked p).hx.selftests = s.hx.selftests + 1 := by
  rw [State.selftestMarked, hx_laneStates]

/-- A self-test marks the lanes that it tests, and no other (R259, R260). -/
theorem selftestMarked_lane (n : Nat) : (s.selftestMarked p).rd .htu (Reg.SNT_LANE_STATE n) =
    if n ∈ s.selftestLanes p then (if (List.range 4).all (fun k => Config.selftestLane s.hx.selftests n k) = true then 0 else 1)
    else s.rd .htu (Reg.SNT_LANE_STATE n) := by
  rw [State.selftestMarked, rd_laneStates _ _ fun k => by split <;> decide]
  split
  · exact selftestBad_contains s p ‹_›
  · rfl

end

/-- Settles O18: each command has its effect from the state in which it begins, and a self-test marks its lanes. -/
theorem sentinelCommandsComplete : Obligations.SentinelCommandsComplete := by
  refine ⟨fun _ u m p => ⟨answers_of_run rfl fun _ => rfl, answers_of_run rfl fun b => ?_, answers_of_run rfl fun _ => rfl,
    answers_of_run rfl fun _ => rfl, answers_of_run rfl fun _ => rfl⟩, fun s m p => ?_⟩
  · rw [opStepOpen]
    dsimp only
    split
    · rfl
    · rfl
  · obtain ⟨result, hrun⟩ := selftest_run s m p
    have hend {n : Nat} (hn : n < 272) := Prod.mk.inj (showLanes_sntRec_fixes 0x44 0 none (s.selftestData p) hn (s.selftestMarked p))
    refine ⟨_, result, _, hrun, selftestData_length s p, (hend (n := 0) (by decide)).2.trans (selftestMarked_selftests s p), fun n hn => ?_⟩
    refine (hend hn).1.trans ((selftestMarked_lane s p n).trans ?_)
    simp only [mem_selftestLanes s p hn]

end Sys2Proof.Machine

end

section

/-! # Tiles in their lane: O46 -/

namespace Sys2Proof.Machine

section
variable (s : State) (n : Nat)

-- the rows

theorem exec_tileFirst (hn : n < 272) (hr : s.h.inReset = false) (fmt : BitVec 3) :
    exec (.tileFirst n fmt) s = .next ((Prog.tileFirst n fmt).run s) :=
  (nextIf_of hn _ s).trans (next_up (u := .htu) _ hr)

theorem exec_resLast (hn : n < 272) (hr : s.h.inReset = false) :
    exec (.resLast n) s = .next ((Prog.resLast n).run ((Prog.countTileEnd n).run s)) :=
  (nextIf_of hn _ s).trans (next_up (u := .htu) _ hr)

theorem exec_tileVerdict (hn : n < 272) (hr : s.h.inReset = false) :
    exec (.tileVerdict n) s = .next ((Prog.settle .htu).run ((Prog.tileVerdict n).run s)) :=
  (nextIf_of hn _ s).trans (next_thenSettle (u := .htu) _ hr)

-- lanes

/-- Another lane stays as it is. -/
theorem modLane_other (f : Lane → Lane) {m : Nat} (h : m ≠ n) : ((Prog.modLane n f).run s).lane m = s.lane m :=
  Sparse.get_mod_other _ _ _ h

/-- A step of the generator leaves what waits to cross. -/
theorem laneStep_out (l : Lane) : (laneStep l).out = l.out := rfl

/-- A verdict that leaves the lane is the step's that is open (R237). -/
theorem pushVerdict_lane (v : Verdict) :
    ((Prog.pushVerdict n v).run s).lane n = { s.lane n with out := (s.lane n).out ++ [{ v with ctx := s.openCtx.map (·.no) }] } :=
  modLane_same s n _

-- TILE_FIRST

/-- In Fallow no tile begins. -/
theorem tileFirst_fallow (fmt : BitVec 3) (h : (s.station n).fallow = true) : (Prog.tileFirst n fmt).run s = s := by
  rw [Prog.tileFirst, Prog.run_get, h, Bool.not_true]
  rfl

/-- A tile that begins joins its lane, drawn for checking by the mode and by one step of the lane's generator (R225, R226). -/
theorem tileFirst_leaves (fmt : BitVec 3) (h : (s.station n).fallow = false) :
    let t := (Prog.tileFirst n fmt).run s
    ∃ y : Tile, (t.lane n).tiles = (s.lane n).tiles ++ [y] ∧ y.fmt = fmt ∧ y.k = 0 ∧ y.opNan = false ∧
      (y.checked = true ↔ s.tileMode = modeGated
        ∨ (s.tileMode = modeSampled ∧ (laneStep (s.lane n)).w.toNat % 2 ^ s.rd .htu Reg.SNT_MODE_RATE_LOG2 = 0)) ∧
      (t.lane n).taking = true ∧ (t.lane n).out = (s.lane n).out ∧ t.hregs = s.hregs ∧ t.hx.stations = s.hx.stations ∧
      ∀ m, m ≠ n → t.lane m = s.lane m := by
  simp only [Prog.tileFirst, Prog.run_get, h, Bool.not_false, Prog.run_cond_true, modLane_same]
  refine ⟨_, rfl, rfl, rfl, rfl, by simp, trivial, ?_, rfl, rfl, fun m hm => modLane_other s n _ hm⟩
  split
  · simp only [laneStep_out]
  · exact laneStep_out _

-- RES_LAST

/-- The end of a tile is counted in its own station, and nowhere in Fallow (R166). -/
theorem countTileEnd_run : ∃ l : List (Nat × Station), (Prog.countTileEnd n).run s = { s with hx := { s.hx with stations := l } } ∧
    (Sparse.get ({} : Station) l n).fallow = (s.station n).fallow := by
  rw [Prog.countTileEnd, Prog.run_get]
  dsimp only
  rw [Prog.run_cond]
  split
  · exact ⟨_, rfl, by rw [Sparse.get_mod_same]; rfl⟩
  · exact ⟨_, rfl, rfl⟩

theorem countTileEnd_fallow (h : (s.station n).fallow = true) : (Prog.countTileEnd n).run s = s := by
  rw [Prog.countTileEnd, Prog.run_get]
  dsimp only
  rw [h, Bool.not_true, Bool.false_and, Prog.run_cond_false]

theorem resLast_fallow (h : (s.station n).fallow = true) : (Prog.resLast n).run s = s := by
  rw [Prog.resLast, Prog.run_get, h, Bool.not_true, Prog.run_cond_false]

/-- The verdict of the oldest tile, unless it was given before, joins those that wait to cross (R230, R232). -/
theorem giveVerdict_lane (v : Verdict) : ((Prog.cond (!(s.lane n).given) (.pushVerdict n v)).run s).lane n = { s.lane n with
    out := (s.lane n).out ++ if (s.lane n).given then [] else [{ v with ctx := s.openCtx.map (·.no) }] } := by
  cases h : (s.lane n).given with
  | false => exact pushVerdict_lane s n v
  | true => exact congrArg (fun o => { s.lane n with out := o }) (List.append_nil _).symm

/-- A verdict on its way changes its lane alone. -/
theorem giveVerdict_fixes (b : Bool) (v : Verdict) : (Prog.cond b (.pushVerdict n v)).fixes fun s => (s.hregs, s.h) := Prog.fixes_cond fun _ => rfl

/-- The last result row of the oldest tile gives its verdict and takes it out (R223, R230). -/
theorem resLast_leaves {y : Tile} {ys : List Tile} (h : (s.station n).fallow = false) (ht : (s.lane n).tiles = y :: ys) :
    let t := (Prog.resLast n).run s
    (t.lane n).tiles = ys ∧ (t.lane n).given = false ∧ (t.lane n).row = 0 ∧ (t.lane n).zs = [] ∧ t.hregs = s.hregs ∧ t.h = s.h ∧
      (t.lane n).out = (s.lane n).out ++ (if (s.lane n).given then [] else
        [{ s.tileResult n (s.lane n) y s.tileMode with ctx := s.openCtx.map (·.no) }]) := by
  obtain ⟨hregs, hh⟩ := Prod.mk.inj (giveVerdict_fixes n (!(s.lane n).given) (s.tileResult n (s.lane n) y s.tileMode) s)
  simp only [Prog.resLast, Prog.run_get, h, Bool.not_false, Prog.run_cond_true, ht, List.head?_cons, Prog.run_opt_some, Prog.run_both, modLane_same,
    giveVerdict_lane]
  exact ⟨rfl, trivial, trivial, trivial, hregs, hh, trivial⟩

-- TILE_VERDICT

/-- The state after the oldest verdict of a lane has crossed (R232). -/
def State.crossed (s : State) (n : Nat) : State := (Prog.modLane n fun l => { l with out := l.out.drop 1 }).run s

theorem tileVerdict_none (h : (s.lane n).out = []) : (Prog.tileVerdict n).run s = s := by
  rw [Prog.tileVerdict, Prog.run_get, h, List.head?_nil, Prog.run_opt_none]

section
variable {v : Verdict} {vs : List Verdict} (h : (s.lane n).out = v :: vs)
include h

/-- A verdict of no step waits (R237). -/
theorem tileVerdict_waits (hc : v.ctx = none) : (Prog.tileVerdict n).run s = s := by
  rw [Prog.tileVerdict, Prog.run_get, h, List.head?_cons, Prog.run_opt_some, hc, Prog.run_opt_none]

variable {no : Nat} (hc : v.ctx = some no)
include hc

/-- A verdict whose step context is gone is dropped. -/
theorem tileVerdict_dropped (hs : s.ctxNo no = none) : (Prog.tileVerdict n).run s = s.crossed n := by
  rw [Prog.tileVerdict, Prog.run_get, h, List.head?_cons, Prog.run_opt_some, hc, Prog.run_opt_some, hs]
  rfl

variable {c : StepCtx} (hs : s.ctxNo no = some c) (hst : c.st = .opened ∨ c.st = .closing)
include hs hst

/-- A verdict without a digest enters its step (R232, R238). -/
theorem tileVerdict_enters (hd : v.digest = none) : (Prog.tileVerdict n).run s =
    (Prog.tryFinal no).run ((Prog.enterVerdict no n v none true).run (s.crossed n)) := by
  have hb : (c.st == .opened || c.st == .closing) = true := by simpa using hst
  rw [Prog.tileVerdict, Prog.run_get, h, List.head?_cons, Prog.run_opt_some, hc, Prog.run_opt_some, hs, Prog.run_seq_cons, Prog.run_seq_cons,
    Prog.run_seq_nil, Prog.run_opt_some, hb, Prog.run_cond_true, hd]
  rfl

/-- A digest meets its partner's in a DUAL step (R249, R250). -/
theorem tileVerdict_pairs {d : BitVec 64} (hd : v.digest = some d) (hm : c.mode = modeDual) : (Prog.tileVerdict n).run s =
    (Prog.tryFinal no).run ((Prog.dualVerdict no n v d).run (s.crossed n)) := by
  have hb : (c.st == .opened || c.st == .closing) = true := by simpa using hst
  rw [Prog.tileVerdict, Prog.run_get, h, List.head?_cons, Prog.run_opt_some, hc, Prog.run_opt_some, hs, Prog.run_seq_cons, Prog.run_seq_cons,
    Prog.run_seq_nil, Prog.run_opt_some, hb, Prog.run_cond_true, hd, hm]
  rfl

end

end

-- the verdict of a tile

section
variable {s : State} {n mode : Nat} {l : Lane} {y : Tile}

/-- Every verdict of a tile counts its operand cycles and shows the instant of RES_LAST (R264). -/
theorem tileResult_stamp : (s.tileResult n l y mode).k = y.k ∧ (s.tileResult n l y mode).time = s.ns .htu := by
  rw [State.tileResult]
  dsimp only
  repeat' split
  all_goals exact ⟨rfl, rfl⟩

/-- What checks 1 and 2 find gives the verdict (R230). -/
theorem tileResult_unchecked {c : Nat} (h : s.unchecked n y mode = some c) :
    s.tileResult n l y mode = y.verdict (s.ns .htu) vUnchecked c := by
  rw [State.tileResult, h]

/-- The verdict of a tile that is compared fails above the tolerance, and passes otherwise (R229, R230). -/
theorem compare_verdict (time : Nat) :
    let v := s.compare l y time
    v.maxD = (fpArgMax (List.zipWith fpDist l.zs y.y)).2 ∧
      (fpGt v.maxD v.tau = true → v.verdict = vFail ∧ v.cause = causeMismatch ∧ v.near = false) ∧
      (fpGt v.maxD v.tau = false → v.verdict = vPass) := by
  refine ⟨rfl, fun h => ⟨if_pos h, if_pos h, ?_⟩, fun h => if_neg (Bool.eq_false_iff.1 h)⟩
  simp only [State.compare] at h ⊢
  rw [h]
  rfl

theorem unchecked_drawn (hc : y.checked = true) : s.unchecked n y mode =
    if y.fmt.toNat > 4 then some causeFormat else if s.rd .htu (Reg.SNT_LANE_STATE n) = 1 then some causeLane else none :=
  if_neg fun h => by simp [hc] at h

section
variable (hm : mode ≠ modeDual)
include hm

theorem unchecked_undrawn (hc : y.checked = false) : s.unchecked n y mode = some causeNotSampled := if_pos ⟨hm, by rw [hc]; rfl⟩

variable (hc : y.checked = true)
include hc

/-- The checks on data of a tile that passed checks 1 and 2, in order (R230). -/
theorem tileResult_data (hf : y.fmt.toNat ≤ 4) (hl : s.rd .htu (Reg.SNT_LANE_STATE n) ≠ 1) :  s.tileResult n l y mode =
    if y.opNan then y.verdict (s.ns .htu) vNan 0
    else if l.cNan then y.verdict (s.ns .htu) vFail causeNan
    else if l.cInfFree || y.y.any (fun x => !fpFinite x) then y.verdict (s.ns .htu) vRange 0
    else if l.cInf then y.verdict (s.ns .htu) vFail causeInf
    else s.compare l y (s.ns .htu) := by
  rw [State.tileResult, unchecked_drawn hc, if_neg (Nat.not_lt.2 hf), if_neg hl]
  dsimp only
  rw [if_neg hm]

end

end

/-- Settles O46, row by row, and the verdict by its checks in order. -/
theorem tilesPassThroughTheirLane : Obligations.TilesPassThroughTheirLane := by
  refine ⟨fun n s hn hr => ⟨fun fmt h => ?_, fun fmt h => ?_, fun h => ?_, fun y ys h ht => ?_, fun ho => ?_, fun v vs ho hc => ?_,
    fun v vs no ho hc => ⟨fun hs => ?_, fun c hs hst => ⟨fun hd => ?_, fun d hd hm => ?_⟩⟩⟩, fun s n l y mode hmode => ?_⟩
  · rw [exec_tileFirst s n hn hr, tileFirst_fallow s n fmt h]
  · obtain ⟨y, hy⟩ := tileFirst_leaves s n fmt h
    exact ⟨_, y, exec_tileFirst s n hn hr fmt, hy⟩
  · rw [exec_resLast s n hn hr, countTileEnd_fallow s n h, resLast_fallow s n h]
  · obtain ⟨st, hrun, hf⟩ := countTileEnd_run s n
    refine ⟨_, exec_resLast s n hn hr, ?_⟩
    rw [hrun]
    exact resLast_leaves _ n (hf.trans h) ht
  · rw [exec_tileVerdict s n hn hr, tileVerdict_none s n ho]
  · rw [exec_tileVerdict s n hn hr, tileVerdict_waits s n ho hc]
  · rw [exec_tileVerdict s n hn hr, tileVerdict_dropped s n ho hc hs]
    rfl
  · rw [exec_tileVerdict s n hn hr, tileVerdict_enters s n ho hc hs hst hd]
    rfl
  · rw [exec_tileVerdict s n hn hr, tileVerdict_pairs s n ho hc hs hst hd hm]
    rfl
  · have hm : mode ≠ modeDual := by rcases hmode with rfl | rfl <;> decide
    refine ⟨fun hc => ?_, fun hc hf => ?_, fun hc hf hl => ?_, fun hc hf hl => ?_, tileResult_stamp⟩
    · rw [tileResult_unchecked (unchecked_undrawn hm hc)]
      exact ⟨rfl, rfl⟩
    · rw [tileResult_unchecked ((unchecked_drawn hc).trans (if_pos hf))]
      exact ⟨rfl, rfl⟩
    · rw [tileResult_unchecked ((unchecked_drawn hc).trans ((if_neg (Nat.not_lt.2 hf)).trans (if_pos hl)))]
      exact ⟨rfl, rfl⟩
    · rw [tileResult_data hm hc hf hl]
      refine ⟨fun ho => by rw [if_pos ho]; rfl, fun ho => ?_⟩
      rw [if_neg (Bool.eq_false_iff.1 ho)]
      refine ⟨fun h => by rw [if_pos h]; exact ⟨rfl, rfl⟩, fun h hr => ?_, fun h hi hy => ?_⟩
      · rw [if_neg (Bool.eq_false_iff.1 h), if_pos (Bool.or_eq_true_iff.2 hr)]
        rfl
      · rw [if_neg (Bool.eq_false_iff.1 h), if_neg (by rw [hi, hy]; decide)]
        refine ⟨fun hc => by rw [if_pos hc]; exact ⟨rfl, rfl⟩, fun hc => ?_⟩
        rw [if_neg (Bool.eq_false_iff.1 hc)]
        exact compare_verdict _

end Sys2Proof.Machine

end

section

/-! # Scoring periods, run sets and scrubs: O54 -/

namespace Sys2Proof.Machine

variable (s : State) (number : Nat)

-- the cutoff of a period

/-- The instant, in ns, at which a period's features are cut off (R272). -/
def State.cutoffNs (s : State) (start : Nat) : Nat := (start + s.periodUs start + s.rd .vta Reg.HTR_PERIOD_FEATURE_CUTOFF) * 1000

/-- A period is still open where it begins no earlier than the last closed one ended (R272). -/
def State.stillOpen (s : State) (start : Nat) : Bool :=
  match s.vx.closedP with
  | some (p, _) => decide (p ≤ start)
  | none => true

/-- A cutoff that comes before its time, or for a closed period, does nothing (R272). -/
theorem featureCutoff_idle (h : s.ns .vta < s.cutoffNs (s.periodStart number) ∨ s.stillOpen (s.periodStart number) = false) :
    (Prog.featureCutoff number).run s = s := by
  have hc : (decide (s.cutoffNs (s.periodStart number) ≤ s.ns .vta) && s.stillOpen (s.periodStart number)) = false := by
    rcases h with h | h
    · simp [Nat.not_le.2 h]
    · simp [h]
  rw [Prog.featureCutoff, Prog.run_get, Prog.run_cond]
  refine if_neg (Bool.eq_false_iff.1 ?_)
  exact (congrArg (fun b => b && s.on .vta Reg.HTR_STATUS_INIT_DONE && !s.v.gated) hc).trans (by simp)

/-- The VTA's own state after its only store, that of period `start`, is closed while a run set runs (R272, R290). -/
def VtaX.closesOnly (x : VtaX) (start us : Nat) (st : Store) : VtaX :=
  { x with
    closedP := some (start + us, st.vals), stores := [{ st with closed := true, prev := [] }], waitSet := some start }

/-- A cutoff after its time closes the period, which waits for the set that runs (R272, R290). -/
theorem featureCutoff_closes {st : Store} {r : Nat} (ht : s.cutoffNs (s.periodStart number) ≤ s.ns .vta) (hc : s.vx.closedP = none)
    (hi : s.on .vta Reg.HTR_STATUS_INIT_DONE = true) (hg : s.v.gated = false) (hs : s.vx.stores = [st]) (hp : st.period = s.periodStart number)
    (hsc : s.scorable (s.periodStart number) = true) (hr : s.vx.running = some r) (hw : s.vx.waitSet = none) :
    (Prog.featureCutoff number).run s =
      { s with vx := s.vx.closesOnly (s.periodStart number) (s.periodUs (s.periodStart number)) st } := by
  have hsc' (x : VtaX) : ({ s with vx := x } : State).scorable (s.periodStart number) = true := hsc
  rw [State.cutoffNs] at ht
  simp [Prog.featureCutoff, Prog.run_cond, ht, hc, hi, hg, hs, hp, hsc', hr, hw, VtaX.closesOnly]

-- a run set that completes

/-- A set that does not run, or runs for another period, does not complete (R290). -/
theorem runSetComplete_idle (h : ∀ r, s.vx.running = some r → s.isPeriod number r = false) : (Prog.runSetComplete number).run s = s := by
  rw [Prog.runSetComplete, Prog.run_get]
  cases hr : s.vx.running with
  | none => rfl
  | some r => rw [Prog.run_opt_some, h r hr, Prog.run_cond_false]

/-- Without Gorse nothing is evaluated (R302). -/
theorem evaluate_noGorse {s : State} (h : s.gorseUp .vta = false) : Prog.evaluate.run s = s := by
  rw [Prog.evaluate, Prog.run_get, h, Prog.run_cond_false]

/-- Without a stream for it there is no straggler report (R319, R446). -/
theorem stragglers_noStream {s : State} (st : Store) (h : s.on .vta Reg.VTA_FLT_STREAM_S_VALID = false) : (Prog.stragglers st).run s = s := by
  rw [Prog.stragglers, Prog.run_get, Prog.run_cond]
  split
  · rw [Prog.emitReg, Prog.run_get, h, Prog.run_cond_false]
  · rfl

/-- The VTA's own state after the set of its only store has completed (R290, R296). -/
def VtaX.scoresOnly (x : VtaX) (r : Nat) (st : Store) : VtaX :=
  { x with
    faultsF := (st.vals.filter fun v => v.src == (0, 0, 0)).foldl (fun l v => Sparse.put l (v.row - 16384) v.v.toNat) []
    running := none, scored := r, stores := [{ st with scored := true }] }

/-- A set with no slot in service and no Heath job completes, and none follows it (R290, R300, R319). -/
theorem runSetComplete_ends {r : Nat} {st : Store} (hr : s.vx.running = some r) (hn : s.isPeriod number r = true) (hs : s.vx.stores = [st])
    (hp : st.period = r) (hsl : s.vx.runSlots = []) (hj : s.heathJobs = []) (hg : s.gorseUp .vta = false) (hw : s.vx.waitSet = none)
    (hv : s.on .vta Reg.VTA_FLT_STREAM_S_VALID = false) :
    (Prog.runSetComplete number).run s = { s with vx := s.vx.scoresOnly r st } := by
  have hfind : s.vx.stores.find? (fun e => e.period == r) = some st := by rw [hs]; simp [hp]
  have hev (x : VtaX) : Prog.evaluate.run { s with vx := x } = { s with vx := x } := evaluate_noGorse hg
  have hstr (x : VtaX) : (Prog.stragglers st).run { s with vx := x } = { s with vx := x } := stragglers_noStream st hv
  rw [Prog.runSetComplete, Prog.run_get, hr, Prog.run_opt_some, hn, Prog.run_cond_true, hfind, Prog.run_opt_some, hsl, hj]
  simp only [Prog.run_seq_cons, Prog.run_seq_nil, Prog.run_each_nil, Prog.run_vta, hev, hstr, Prog.run_get, hw, Prog.run_opt_none]
  simp [VtaX.scoresOnly, hs, hp, hw]

-- a scrub of a bank

/-- Showing the banks writes only words below those of the slots, in bits below a bank's count of rewrites. -/
theorem showBanks_fixes (g : Fld) (h : 0x1001000 ≤ g.off ∨ 48 ≤ g.lsb) : Prog.showBanks.fixes fun s => s.rd .vta g := by
  have hw (f : Fld) (v : Nat) (ho : f.off < 0x1001000) (hl : f.lsb + f.width ≤ 48) : (Prog.wr .vta f v).fixes fun s => s.rd .vta g :=
    Prog.fixes_rd_wr .vta .vta v (by omega)
  have hb (b : Nat) (hb : b ∈ List.range 64) : 0x1000100 + 8 * b < 0x1001000 := by have := List.mem_range.1 hb; omega
  refine Prog.fixes_get fun s => Prog.fixes_seq_cons (Prog.fixes_each fun b hm => ?_) (Prog.fixes_seq_cons ?_ (Prog.fixes_seq_cons ?_ Prog.fixes_seq_nil))
  · exact Prog.fixes_both (hw _ _ (hb b hm) (show 16 + 14 ≤ 48 by decide)) (hw _ _ (hb b hm) (show 32 + 16 ≤ 48 by decide))
  · exact hw _ _ (by decide) (by decide)
  · exact hw _ _ (by decide) (by decide)

/-- The banks are shown in registers alone. -/
theorem showBanks_vx (s : State) : (Prog.showBanks.run s).vx = s.vx :=
  Prog.vtaKeeps.run (g := id) (by simp [Prog.showBanks]) s

section
variable (bank : Nat) (differ : List Nat)

/-- The golden copy of a bank (R298). -/
def State.goldOf (s : State) (bank : Nat) : List TEntry := s.vx.golden.filter (·.bank == bank)

/-- The number of entries of a bank that a scrub finds changed. -/
def State.changedIn (s : State) (bank : Nat) (differ : List Nat) : Nat :=
  (differ.eraseDups.filter fun i => decide (i < (s.goldOf bank).length)).length

/-- The VTA's own state once a bank is no longer asked to be scrubbed. -/
def State.scrubbed (s : State) (bank : Nat) : State := { s with vx := { s.vx with scrubQ := s.vx.scrubQ.filter (· != bank) } }

/-- A scrub that finds nothing changed, or of a bank that is not ACTIVE, rewrites nothing (R298). -/
theorem tcamScrub_clean (h : s.changedIn bank differ = 0 ∨ s.rd .vta (Reg.HTR_BANK_STATE bank) ≠ 0) :
    (Prog.tcamScrub bank differ).run s = s.scrubbed bank := by
  have hc : (s.changedIn bank differ != 0 && s.rd .vta (Reg.HTR_BANK_STATE bank) == 0) = false := by
    rcases h with h | h <;> simp [h]
  rw [State.changedIn, State.goldOf] at hc
  simp only [Prog.tcamScrub, Prog.run_get, Prog.run_both, Prog.run_vta, hc, Prog.run_cond_false, State.scrubbed]

/-- A scrub that finds entries changed in an ACTIVE bank rewrites the bank from its golden copy and counts them; past sixteen in a day the bank
is to be retired (R298). -/
theorem tcamScrub_rewrites (hn : s.changedIn bank differ ≠ 0) (ha : s.rd .vta (Reg.HTR_BANK_STATE bank) = 0) :
    ∃ x : VtaX, (Prog.tcamScrub bank differ).run s = Prog.showBanks.run
        (({ s with vx := x } : State).wr .vta (Reg.HTR_BANK_FIXES bank) (satAdd (Reg.HTR_BANK_FIXES bank).width
          (s.rd .vta (Reg.HTR_BANK_FIXES bank)) (s.changedIn bank differ))) ∧
      x.tcam = s.vx.tcam.filter (·.bank != bank) ++ s.goldOf bank ∧ x.scrubQ = s.vx.scrubQ.filter (· != bank) ∧
      (16 < (s.dayFixes bank).length + s.changedIn bank differ → bank ∈ x.bankOut) := by
  have hc : (s.changedIn bank differ != 0 && s.rd .vta (Reg.HTR_BANK_STATE bank) == 0) = true := by simp [hn, ha]
  rw [State.changedIn, State.goldOf] at hc
  rw [Prog.tcamScrub, Prog.run_get, Prog.run_both, hc]
  refine ⟨_, rfl, rfl, rfl, fun h => ?_⟩
  have hday : 16 < (s.dayFixes bank ++ List.replicate (s.changedIn bank differ) (bank, s.v.ticks)).length := by
    rwa [List.length_append, List.length_replicate]
  rw [State.changedIn, State.goldOf] at hday
  dsimp only
  rw [decide_eq_true hday, Bool.or_true, Bool.true_and]
  split
  · exact List.mem_append_right _ (List.mem_singleton_self bank)
  · next hc => exact List.mem_of_elem_eq_true (by simpa using hc)

end

-- the liveness check

/-- Without Gorse no liveness is checked (R302). -/
theorem livenessCheck_noGorse (h : s.gorseUp .vta = false) : Prog.livenessCheck.run s = s := by
  rw [Prog.livenessCheck, Prog.run_get, h, Prog.run_cond_false]

/-- Where no die has a connection, only the budget is shown, and a free value is drawn (R302, R307). -/
theorem livenessCheck_noDies (hg : s.gorseUp .vta = true) (hc : s.v.conns = []) :
    Prog.livenessCheck.run s = Prog.showBudgetDay.run { s with free := s.free + 1 } := by
  have hd : Prog.drainedRow.run s = { s with free := s.free + 1 } := by
    rw [Prog.drainedRow, Prog.run_free, Prog.run_get]
    simp [hc, Sparse.find]
  rw [Prog.livenessCheck, Prog.run_get, hg, hc]
  exact congrArg Prog.showBudgetDay.run hd

/-- No more than the 64 dies of a tray are in QUARANTINE. -/
theorem inQuar_le : s.inQuar ≤ 64 := (List.length_filter_le _ _).trans (List.length_range ..).le

/-- VTA_FLT_BUDGET shows the dies in QUARANTINE (R307). -/
theorem showBudgetDay_inQuar : (Prog.showBudgetDay.run s).rd .vta Reg.VTA_FLT_BUDGET_IN_QUAR = s.inQuar := by
  rw [Prog.showBudgetDay, Prog.run_get, Prog.run_both, Prog.run_wr, Prog.run_wr, State.rd_wr_other _ _ _ _ _ (by decide),
    State.rd_wr_same _ _ _ _ (show 48 + 8 ≤ 64 by decide)]
  exact Nat.mod_eq_of_lt (Nat.lt_of_le_of_lt (inQuar_le s) (by decide))

/-- VTA_FLT_BUDGET shows the entries of the last 24 h (R307). -/
theorem showBudgetDay_last24h : (Prog.showBudgetDay.run s).rd .vta Reg.VTA_FLT_BUDGET_LAST_24H = min 255 s.lastDay := by
  rw [Prog.showBudgetDay, Prog.run_get, Prog.run_both, Prog.run_wr, Prog.run_wr, State.rd_wr_same _ _ _ _ (by decide)]
  exact Nat.mod_eq_of_lt (Nat.lt_of_le_of_lt (Nat.min_le_left _ _) (by decide))

/-- A saturating sum of `w` bits fits in them. -/
theorem satAdd_lt (w a b : Nat) : satAdd w a b < 2 ^ w :=
  Nat.lt_of_le_of_lt (Nat.min_le_right _ _) (Nat.sub_lt (Nat.two_pow_pos w) Nat.one_pos)

/-- Settles O54, row by row: what is not due leaves the state, and what is due changes the parts that its lemma names. -/
theorem scoringRows : Obligations.ScoringRows := by
  intro s hreset
  have row (p : Prog) : Prog.next (.up .vta (.thenSettle .vta p)) s = .next ((Prog.settle .vta).run (p.run s)) :=
    next_thenSettle (u := .vta) p hreset
  refine ⟨fun number => ⟨fun h => ?_, fun p vals hc h => ?_, fun st r ht hc hi hg hs hp hsc hr hw => ?_⟩, fun number h => ?_,
    fun number r st hr hn hs hp hsl hj hg hw hv => ?_, fun bank hb differ => ⟨fun h => ?_, fun hn ha => ?_⟩, fun h => ?_, fun hg hc => ?_⟩
  · exact (row _).trans (by rw [featureCutoff_idle s number (.inl h)])
  · exact (row _).trans (by rw [featureCutoff_idle s number (.inr (by simpa [State.stillOpen, hc] using h))])
  · refine ⟨_, row _, ?_⟩
    rw [featureCutoff_closes s number ht hc hi hg hs hp hsc hr hw]
    exact ⟨rfl, rfl, rfl, hr, rfl⟩
  · exact (row _).trans (by rw [runSetComplete_idle s number h])
  · refine ⟨_, row _, ?_⟩
    rw [runSetComplete_ends s number hr hn hs hp hsl hj hg hw hv]
    exact ⟨rfl, rfl, rfl, rfl, rfl⟩
  · exact ((nextIf_of hb _ s).trans (row _)).trans (by rw [tcamScrub_clean s bank differ h]; rfl)
  · obtain ⟨x, hrun, htcam, hq, hout⟩ := tcamScrub_rewrites s bank differ hn ha
    refine ⟨_, (nextIf_of hb _ s).trans (row _), ?_⟩
    rw [hrun, showBanks_vx, State.wr_vx]
    refine ⟨htcam, hq, (showBanks_fixes (Reg.HTR_BANK_FIXES bank) (.inr le_rfl) _).trans ?_, hout⟩
    exact (State.rd_wr_same _ _ _ _ (show 48 + 8 ≤ 64 by decide)).trans (Nat.mod_eq_of_lt (satAdd_lt _ _ _))
  · exact (row _).trans (by rw [livenessCheck_noGorse s h])
  · refine ⟨_, row _, ?_⟩
    rw [livenessCheck_noDies s hg hc]
    exact ⟨showBudgetDay_inQuar _, showBudgetDay_last24h _, rfl, rfl⟩

end Sys2Proof.Machine

end

section

/-! # Bytes of the entity table and of the archive -/

namespace Sys2Proof.Machine

-- memories

/-- A byte of a string that was written reads as it stood in the string. -/
theorem Memory.read_writeN_mem (m : List Host.Cell) (a : Nat) (bs : List Byte) (j : Nat) (h : j < bs.length) :
    Memory.read (Memory.writeN m a bs) (a + j) = bs[j] := by
  induction bs generalizing m a j with
  | nil => exact absurd h (Nat.not_lt_zero j)
  | cons b t ih =>
    cases j with
    | zero => exact (Memory.read_writeN_other _ _ t a (.inl (Nat.lt_succ_self a))).trans (Memory.read_write_same m a b)
    | succ j =>
      rw [Memory.writeN, ← Nat.add_assoc, Nat.add_right_comm]
      exact ih _ _ j (Nat.lt_of_succ_lt_succ h)

/-- A cut of a string is no longer than asked. -/
theorem length_cut_le (bs : List Byte) (a n : Nat) : (cut bs a n).length ≤ n := List.length_take_le _ _

/-- A cut within bytes that were read from a memory. -/
theorem getElem_cut_readN (m : List Host.Cell) (b len a n j : Nat)
    (h : j < (cut (Memory.readN m b len) a n).length) : (cut (Memory.readN m b len) a n)[j] = Memory.read m (b + a + j) := by
  simp [cut, Memory.readN, Nat.add_assoc]

-- programs that write the entity table only

/-- A change of bytes of the entity table at addresses that `F` names. -/
def Prog.entityLeaf (F : Nat → Prop) : Prog → Prop
  | .entity a bs => ∀ k < bs.length, F (a + k)
  | _ => False

section
variable {F : Nat → Prop} {p : Prog}

/-- Such a program leaves every other part of the state. -/
theorem Prog.changes.entityOnly (h : p.changes (Prog.entityLeaf F)) (s : State) : ∃ e, p.run s = { s with entity := e } := by
  have hrest : p.fixes fun s => ({ s with entity := [] } : State) := h.fixes fun q hq s => by
    cases q with
    | entity => rfl
    | _ => exact absurd hq id
  exact ⟨_, congrArg (fun t : State => { t with entity := (p.run s).entity }) (hrest s)⟩

/-- It leaves every byte of the table that `F` does not name. -/
theorem Prog.changes.entityOutside (h : p.changes (Prog.entityLeaf F)) {a : Nat} (ha : ¬ F a) : p.fixes fun s => Memory.read s.entity a :=
  h.fixes fun q hq s => by
    cases q with
    | entity b bs =>
      refine Memory.read_writeN_other _ _ _ _ ?_
      by_contra hc
      have hb : b + (a - b) = a := by omega
      exact ha (hb ▸ hq (a - b) (by omega))
    | _ => exact absurd hq id

end

-- programs of the VTA that write DDR5 in the archive area only

/-- A change of the VTA alone that leaves the entity table, and writes DDR5 from the archive area up (R367). -/
def Prog.archiveLeaf : Prog → Prop
  | .wr u _ _ | .dev u _ => u = .vta
  | .vta _ | .draw => True
  | .ddr a _ => 0x80000000 ≤ a
  | _ => False

@[simp] theorem archiveLeaf_wr (f : Fld) (v : Nat) : Prog.archiveLeaf (.wr .vta f v) := rfl
@[simp] theorem archiveLeaf_dev (f : Dev → Dev) : Prog.archiveLeaf (.dev .vta f) := rfl
@[simp] theorem archiveLeaf_vta (f : VtaX → VtaX) : Prog.archiveLeaf (.vta f) := trivial
@[simp] theorem archiveLeaf_draw : Prog.archiveLeaf .draw := trivial
@[simp] theorem ddr_archive (a : Nat) (bs : List Byte) : (Prog.ddr a bs).changes Prog.archiveLeaf ↔ 0x80000000 ≤ a := Iff.rfl

/-- What such a change leaves: the entity table, the HTU, and DDR5 below the archive area. -/
def State.belowArchive (s : State) : List Host.Cell × List (Nat × Word) × Dev × HtuX × (Fin 0x80000000 → Byte) :=
  (s.entity, s.hregs, s.h, s.hx, fun a => Memory.read s.ddr a)

/-- Such a program leaves it. -/
theorem Prog.changes.belowArchive {p : Prog} (h : p.changes Prog.archiveLeaf) : p.fixes State.belowArchive :=
  h.fixes fun q hq s => by
    cases q with
    | wr u => cases (hq : u = .vta); rfl
    | dev u => cases (hq : u = .vta); rfl
    | vta => rfl
    | draw => rfl
    | ddr a bs =>
      have hd (i : Fin 0x80000000) : Memory.read (Memory.writeN s.ddr a bs) i = Memory.read s.ddr i :=
        Memory.read_writeN_other _ _ _ _ (.inl (Nat.lt_of_lt_of_le i.isLt hq))
      exact congrArg (fun f => (s.entity, s.hregs, s.h, s.hx, f)) (funext hd)
    | _ => exact absurd hq id

-- a record of the VTA

/-- The pages of the archive stand from 2 GiB up (R367, R369). -/
theorem le_archPageAt (s : State) (p i : Nat) : 0x80000000 ≤ s.archPageAt p i := by
  rw [State.archPageAt, Nat.add_assoc]
  exact Nat.le_add_right _ _

@[simp] theorem bumpBy_archive (f : Fld) (n : Nat) : (Prog.bumpBy .vta f n).changes Prog.archiveLeaf := fun _ => rfl
@[simp] theorem bump_archive (f : Fld) : (Prog.bump .vta f).changes Prog.archiveLeaf := fun _ => rfl
@[simp] theorem count_archive (f : Fld) (n : Nat) : (Prog.count .vta f n).changes Prog.archiveLeaf := fun _ => rfl
@[simp] theorem modStream_archive (sid : Nat) (f : Stream → Stream) : (Prog.modStream .vta sid f).changes Prog.archiveLeaf := rfl

/-- A record committed in the VTA's recorder (R414 to R416). -/
@[simp] theorem commitEv_archive (e : EvRec) : (Prog.commitEv .vta e).changes Prog.archiveLeaf := by
  simp [Prog.commitEv, Prog.programPage, Prog.refill, Prog.evr]

/-- An event of the VTA (R415). -/
@[simp] theorem event_archive (typ : Nat) (pl : List Byte) : (Prog.event .vta typ pl).changes Prog.archiveLeaf := by
  refine ⟨by simp [Prog.foldEnd, Prog.evr], fun s => .ite rfl ?_⟩
  split
  · simp [Prog.evr]
  · simp [Prog.evr]

/-- A segment that closes is written to the archive area (R367, R369, R370). -/
@[simp] theorem closeSegment_archive (g : Segment) : (Prog.closeSegment g).changes Prog.archiveLeaf := by
  simp [Prog.closeSegment, Prog.showEngines, Prog.takeEngine, Prog.compress, Prog.writePages, le_archPageAt]

/-- A record that leaves the VTA (R369, R435). -/
@[simp] theorem deliver_archive (sid svc : Nat) (st : Stream) (r : Rec) : (Prog.deliver .vta sid svc st r).changes Prog.archiveLeaf := by
  simp [Prog.deliver, Prog.archive, Prog.uplink, Prog.ethRec, Prog.ether, Prog.send]

@[simp] theorem put_archive (sid : Nat) (r : Rec) (svc : Option Nat) : (Prog.put .vta sid r svc).changes Prog.archiveLeaf := by simp [Prog.put]

@[simp] theorem closeFull_archive (sid : Nat) : (Prog.closeFull .vta sid).changes Prog.archiveLeaf := by simp [Prog.closeFull, Prog.closeChain]

/-- A record that the VTA produces, or drops, is written to the archive area if anywhere (R386, R395). -/
@[simp] theorem emitSvc_archive (sid : Nat) (svc t : Option Nat) (edit : Rec → Rec) :
    (Prog.emitSvc .vta sid svc t edit).changes Prog.archiveLeaf := by
  simp [Prog.emitSvc, Prog.putNext, Prog.flushLoss, Prog.dropRecs]

@[simp] theorem emit_archive (sid typ : Nat) (pl : List Byte) : (Prog.emit .vta sid typ pl).changes Prog.archiveLeaf := by
  simp [Prog.emit, Prog.emitAt]

end Sys2Proof.Machine

end

section

/-! # Commands of the Heather engine: O19 -/

namespace Sys2Proof.Machine

section
variable (s : State) (m : Nat) (p : Packet)

/-- The last program of a list runs on what the others leave. -/
theorem Prog.run_seq_snoc (l : List Prog) (q : Prog) : (Prog.seq (l ++ [q])).run s = q.run ((Prog.seq l).run s) := by
  induction l generalizing s with
  | nil => rfl
  | cons a l ih => rw [List.cons_append, Prog.run_seq_cons, ih, Prog.run_seq_cons]

-- TREE_LOAD

/-- A load that fails leaves its slot empty and answers why (R265, R284). -/
theorem treeLoad_fails {a : Ans} (h : s.loadImage p = .inl a) :
    (opTreeLoad.run .vta m p).run s = (Prog.reply .vta m p.tag a).run ((Prog.emptySlot (arg p 0 1)).run s) := by
  rw [opTreeLoad, Prog.run_get, Prog.run_both, Prog.run_get, h]

/-- A slot as an image that was loaded fills it (R265). -/
def Slot.ofImage (p : Packet) (im : Image) (banks : List Nat) : Slot :=
  { feats := im.feats, bases := im.bases, groupOf := im.trees.map (·.group), bankOf := banks, layouts := layoutsOf im, jobs := im.jobs
    part := p.part, role := p.roleN, signed := im.signed, image := im.bytes }

/-- Whether a load makes its slot TRUSTED (R267). -/
def loadTrusted (p : Packet) (im : Image) : Bool :=
  im.signed && !im.feats.any (fun e => e.kind == 8) && p.part == 0 && (p.roleN == roleProvider || p.roleN == roleOperator)

/-- The changes by which an emptied slot takes the image that was loaded, its entries and its registers (R265, R284). -/
def fillParts (s : State) (p : Packet) (im : Image) (tcam : List TEntry) (banks : List Nat) : List Prog :=
  let n := arg p 0 1
  let mine := tcam.filter (·.slot == n)
  [
    .vta fun x => { x with slots := Sparse.put s.vx.slots n (.ofImage p im banks), tcam := tcam, golden := x.golden ++ mine },
    .wr .vta (Reg.HTR_SLOT_LOADED n) 1, .wr .vta (Reg.HTR_SLOT_TRUSTED n) (loadTrusted p im).toNat, .wr .vta (Reg.HTR_SLOT_PART n) p.part,
    .wr .vta (Reg.HTR_SLOT_TREES n) im.trees.length, .wr .vta (Reg.HTR_SLOT_ENTRIES n) mine.length,
    .wr .vta (Reg.HTR_SLOT_GROUPS n) im.groups, .wr .vta (Reg.HTR_SLOT_FEATURES n) im.feats.length,
    .wr .vta (Reg.HTR_SLOT_VERSION n) im.version,
    .wr .vta (Reg.HTR_SLOT_DIGEST n) ((Config.sha384 im.bytes).toNat % 2 ^ 64),
    .showBanks]

/-- The state once the slot is filled. -/
def State.filled (s : State) (p : Packet) (im : Image) (tcam : List TEntry) (banks : List Nat) : State :=
  (Prog.seq (fillParts s p im tcam banks)).run s

/-- A load that succeeds fills its slot and replies with the entries written and the paths that no key reaches (R284). -/
theorem treeLoad_loads {im : Image} {tcam : List TEntry} {banks : List Nat} {lost : Nat} (h : s.loadImage p = .inr (im, tcam, banks, lost)) :
    (opTreeLoad.run .vta m p).run s = (((Prog.emptySlot (arg p 0 1)).run s).filled p im tcam banks).okay .vta m p
      (tcam.filter (·.slot == arg p 0 1)).length (le 4 lost ++ zeros 4) := by
  rw [opTreeLoad, Prog.run_get, Prog.run_both, Prog.run_get, h]
  exact Prog.run_seq_snoc _ (fillParts ((Prog.emptySlot (arg p 0 1)).run s) p im tcam banks) _

variable (im : Image) (tcam : List TEntry) (banks : List Nat)

/-- A slot that is filled holds the image and its entries, beside the other slots (R265). -/
theorem filled_vx : (s.filled p im tcam banks).vx = { s.vx with
    slots := Sparse.put s.vx.slots (arg p 0 1) (.ofImage p im banks), tcam := tcam
    golden := s.vx.golden ++ tcam.filter (·.slot == arg p 0 1) } := by
  rw [State.filled, fillParts, Prog.run_seq_cons]
  exact Prog.vtaKeeps.run (g := id) (by simp [Prog.showBanks]) _

/-- A register reads as it was written where nothing that follows writes it. -/
theorem rd_seq_wr (f : Fld) (v : Nat) (l : List Prog) (hf : f.lsb + f.width ≤ 64) (hv : v < 2 ^ f.width)
    (hl : (Prog.seq l).fixes fun s => s.rd .vta f) : ((Prog.seq (.wr .vta f v :: l)).run s).rd .vta f = v := by
  rw [Prog.run_seq_cons]
  exact (hl _).trans ((State.rd_wr_same s .vta f v hf).trans (Nat.mod_eq_of_lt hv))

/-- What follows STATE, LOADED, TRUSTED, SVC and PART of a slot that is filled writes other fields. -/
theorem fillParts_tail_fixes (g : Fld) (ho : g.off = 0x1001000 + 64 * arg p 0 1) (hl : g.lsb + g.width ≤ 16) :
    (Prog.seq ((fillParts s p im tcam banks).drop 4)).fixes fun s => s.rd .vta g := by
  have hw (f : Fld) (v : Nat) (h : g.off ≠ f.off ∨ 16 ≤ f.lsb) : (Prog.wr .vta f v).fixes fun s => s.rd .vta g :=
    Prog.fixes_rd_wr .vta .vta v (by omega)
  have h8 : g.off ≠ 0x1001008 + 64 * arg p 0 1 := by omega
  have h10 : g.off ≠ 0x1001010 + 64 * arg p 0 1 := by omega
  refine Prog.fixes_seq_cons (hw _ _ (.inr le_rfl)) <| Prog.fixes_seq_cons (hw _ _ (.inr (show 16 ≤ 32 by decide))) <|
    Prog.fixes_seq_cons (hw _ _ (.inl h8)) <| Prog.fixes_seq_cons (hw _ _ (.inl h8)) <| Prog.fixes_seq_cons (hw _ _ (.inl h8)) <|
    Prog.fixes_seq_cons (hw _ _ (.inl h10)) <| Prog.fixes_seq_cons (showBanks_fixes g (.inl (by omega))) Prog.fixes_seq_nil

/-- A slot that is filled is LOADED (R284). -/
theorem filled_loaded : (s.filled p im tcam banks).rd .vta (Reg.HTR_SLOT_LOADED (arg p 0 1)) = 1 := by
  rw [State.filled, fillParts, Prog.run_seq_cons]
  refine rd_seq_wr _ _ _ _ (show 2 + 1 ≤ 64 by decide) (show 1 < 2 ^ 1 by decide) ?_
  refine Prog.fixes_seq_cons (Prog.fixes_rd_wr _ _ _ (.inr (.inr (.inl (show 2 + 1 ≤ 3 by decide))))) <|
    Prog.fixes_seq_cons (Prog.fixes_rd_wr _ _ _ (.inr (.inr (.inl (show 2 + 1 ≤ 8 by decide))))) ?_
  exact fillParts_tail_fixes s p im tcam banks (Reg.HTR_SLOT_LOADED (arg p 0 1)) rfl (show 2 + 1 ≤ 16 by decide)

/-- A slot that is filled belongs to the partition of the command (R265). -/
theorem filled_part : (s.filled p im tcam banks).rd .vta (Reg.HTR_SLOT_PART (arg p 0 1)) = p.part := by
  rw [State.filled, fillParts, Prog.run_seq_cons, Prog.run_seq_cons, Prog.run_seq_cons]
  exact rd_seq_wr _ _ _ _ (show 8 + 8 ≤ 64 by decide) p.partition.isLt
    (fillParts_tail_fixes s p im tcam banks (Reg.HTR_SLOT_PART (arg p 0 1)) rfl (show 8 + 8 ≤ 16 by decide))

-- FEATURE_TABLE_LOAD

/-- One row of FEATURE_TABLE_LOAD (R273, R274). -/
def Prog.loadRow (p : Packet) (i : Nat) : Prog := .get fun s =>
  let row := arg p 0 4 + i
  let src := Memory.readN s.ddr (stagingBase + arg p 8 8 + 280 * i) 280
  let base := 2 ^ 48 - 1
  let trust := s.ent row 16 8
  .seq [
    .entity (320 * row) (cut src 0 4),
    .cond (!decide (p.roleN = roleAnalytics)) (.entity (320 * row + 4) (cut src 4 1)),
    .entity (320 * row + 5) (cut src 5 1),
    .entity (320 * row + 24) (cut src 24 192),
    .entity (320 * row + 16) (le 8 (trust / (base + 1) * (base + 1) + (if p.roleN = roleAnalytics then 0 else base)))]

/-- FEATURE_TABLE_LOAD loads its rows in order and replies with their number (R273). -/
theorem featureLoad_run : (opFeatureLoad.run .vta m p).run s =
    ((Prog.each (List.range (arg p 4 4)) (Prog.loadRow p)).run s).okay .vta m p (arg p 4 4) := rfl

/-- The addresses of a row of the entity table (R273). -/
def inRow (row a : Nat) : Prop := 320 * row ≤ a ∧ a < 320 * row + 320

/-- A row is loaded within its 320 bytes. -/
theorem loadRow_changes (i : Nat) : (Prog.loadRow p i).changes (Prog.entityLeaf (inRow (arg p 0 4 + i))) := by
  intro s
  have hrow (o : Nat) (bs : List Byte) (n : Nat) (hn : bs.length ≤ n) (ho : o + n ≤ 320) :
      (Prog.entity (320 * (arg p 0 4 + i) + o) bs).changes (Prog.entityLeaf (inRow (arg p 0 4 + i))) := by
    intro k hk
    constructor <;> omega
  simp only [Prog.changes_seq_cons, Prog.changes_seq_nil, Prog.changes_cond, and_true]
  exact ⟨hrow 0 _ 4 (length_cut_le _ _ _) (by decide), fun _ => hrow 4 _ 1 (length_cut_le _ _ _) (by decide),
    hrow 5 _ 1 (length_cut_le _ _ _) (by decide), hrow 24 _ 192 (length_cut_le _ _ _) (by decide), hrow 16 _ 8 (length_le _ _).le (by decide)⟩

/-- A row's features come from the staged bytes (R273, R274). -/
theorem loadRow_features (i j : Nat) (hj : j < 192) :
    Memory.read ((Prog.loadRow p i).run s).entity (320 * (arg p 0 4 + i) + 24 + j) =
      Memory.read s.ddr (stagingBase + arg p 8 8 + 280 * i + 24 + j) := by
  have hlen : j < (cut (Memory.readN s.ddr (stagingBase + arg p 8 8 + 280 * i) 280) 24 192).length := by
    simpa [cut, Memory.readN] using hj
  rw [Prog.loadRow, Prog.run_get]
  simp only [Prog.run_seq_cons, Prog.run_seq_nil, Prog.run_entity]
  rw [Memory.read_writeN_other _ _ _ _ (.inr (by rw [length_le]; omega)), Memory.read_writeN_mem _ _ _ j hlen, getElem_cut_readN]

/-- The rows of a list are loaded at their addresses alone. -/
theorem loadRows_changes (l : List Nat) :
    (Prog.each l (Prog.loadRow p)).changes (Prog.entityLeaf fun a => ∃ i ∈ l, inRow (arg p 0 4 + i) a) :=
  (Prog.changes_each _ _).2 fun i hi => (loadRow_changes p i).mono fun q hq => by
    cases q with
    | entity a bs => exact fun k hk => ⟨i, hi, hq k hk⟩
    | _ => exact hq

/-- Every row of a list has its features loaded (R273, R274). -/
theorem loadRows_features (l : List Nat) (hl : l.Nodup) (i : Nat) (hi : i ∈ l) (j : Nat) (hj : j < 192) :
    Memory.read ((Prog.each l (Prog.loadRow p)).run s).entity (320 * (arg p 0 4 + i) + 24 + j) =
      Memory.read s.ddr (stagingBase + arg p 8 8 + 280 * i + 24 + j) := by
  induction l generalizing s with
  | nil => exact absurd hi List.not_mem_nil
  | cons k l ih =>
    obtain ⟨hk, hl⟩ := List.nodup_cons.1 hl
    have hddr : ((Prog.loadRow p k).run s).ddr = s.ddr := by
      obtain ⟨e, he⟩ := (loadRow_changes p k).entityOnly s
      rw [he]
    rw [Prog.run_each_cons]
    by_cases hik : i = k
    · subst hik
      refine ((loadRows_changes p l).entityOutside ?_ _).trans (loadRow_features s p i j hj)
      rintro ⟨i', hi', hlo, hhi⟩
      have hsame : i' = i := by omega
      exact hk (hsame ▸ hi')
    · rw [ih _ hl ((List.mem_cons.1 hi).resolve_left hik), hddr]

-- SCORE_RUN

/-- SCORE_RUN scores rows, keeps its counts and emits its records, and replies with their number (R295). -/
theorem scoreRun_run {sl : Slot} (h : Sparse.find s.vx.slots (arg p 0 1) = some sl) :
    ∃ q : Prog, q.changes Prog.archiveLeaf ∧ (opScoreRun.run .vta m p).run s = (q.run s).okay .vta m p
      ((s.validRows.filter fun r => arg p 4 4 ≤ r && r < arg p 4 4 + arg p 8 4).filter (s.inScope sl)).length := by
  rw [opScoreRun, Prog.run_get]
  dsimp only
  rw [h]
  refine ⟨.seq ?parts, ?hparts, ?hrun⟩
  case hrun => exact Prog.run_seq_snoc _ [_, _, _] _
  case hparts => simp [Prog.scoreCounts]

end

/-- Settles O19: each command has its effect from the state in which it begins; a load of rows writes those rows alone, and a SCORE_RUN
nothing below the archive area. -/
theorem heatherCommandsComplete : Obligations.HeatherCommandsComplete := by
  refine ⟨fun s m p => ⟨fun a hs ha => ?_, fun im tcam banks lost hs hl => ?_, answers_of_run rfl fun _ => rfl, answers_of_run rfl fun _ => rfl,
    answers_of_run rfl fun _ => rfl⟩, fun s m p => ?_, fun s m p sl hsl => ?_⟩
  · rw [exec_starts rfl hs, treeLoad_fails _ m p ha]
  · refine ⟨_, (exec_starts rfl hs).trans (by rw [treeLoad_loads _ m p hl]), filled_loaded .., filled_part .., ?_⟩
    rw [filled_vx]
    exact ⟨rfl, _, Sparse.find_put_same _ _ _, rfl, rfl, rfl⟩
  · have hrows := loadRows_changes p (List.range (arg p 4 4))
    obtain ⟨e, he⟩ := hrows.entityOnly s
    refine ⟨_, featureLoad_run s m p, by rw [he], by rw [he], by rw [he], by rw [he], by rw [he], by rw [he], by rw [he], fun i hi j hj => ?_,
      fun a ha => ?_⟩
    · exact loadRows_features s p _ List.nodup_range i (List.mem_range.2 hi) j hj
    · refine hrows.entityOutside ?_ s
      rintro ⟨i, hi, hlo, hhi⟩
      have := List.mem_range.1 hi
      omega
  · obtain ⟨q, hq, hrun⟩ := scoreRun_run s m p hsl
    have hkeep := hq.belowArchive s
    simp only [State.belowArchive, Prod.mk.injEq] at hkeep
    obtain ⟨hent, hregs, hh, hhx, hddr⟩ := hkeep
    exact ⟨_, hrun, hent, fun a ha => congrFun hddr ⟨a, ha⟩, hregs, hh, hhx⟩

end Sys2Proof.Machine

end

section

/-! # Power and start commands: O20 -/

namespace Sys2Proof.Machine

section
variable (u : UnitId) (m : Nat) (p : Packet) (b : State)

/-- POWER_CAP takes its value, and EMERG falls unless it is an emergency cap (R336). -/
theorem powerCap_run : (opPowerCap.run .htu m p).run b =
    let c := b.wr .htu Reg.PWR_LIMIT_CAP_MW (if arg p 0 1 = 3 then 0 else arg p 4 4)
    let d : State := { c with hx := { c.hx with emergency := arg p 0 1 == 2, floored := false } }
    (if arg p 0 1 = 2 then d else d.wr .htu Reg.PWR_STATUS_EMERG 0).okay .htu m p (b.rd .htu Reg.PWR_MEAS_PM_MW) := by
  rw [opPowerCap]
  dsimp only
  by_cases hk : arg p 0 1 = 2
  · rw [if_pos hk, hk]
    rfl
  · rw [if_neg hk, bne_iff_ne.2 hk]
    rfl

/-- BUDGET_SHIFT at a tray, by its action: the tray's budget in equal shares, a move between two ports, or AUTO (R341). -/
theorem budgetShift_vta_run : (opBudgetShift.run .vta m p).run b = match arg p 0 1 with
    | 1 => ((Prog.each (List.range 64) fun k =>
        if (Sparse.get {} b.v.conns k).path.isSome then .sendBudget k (arg p 4 4 / 64)
        else .wr .vta (Reg.PWR_DIE_BUDGET_MW k) (arg p 4 4 / 64)).run (b.wr .vta Reg.PWR_TRAY_TRAY_MW (arg p 4 4))).okay .vta m p
    | 2 => (Prog.startMove (arg p 1 1) (arg p 2 1) (arg p 4 4) 0 (some (m, p.tag))).run b
    | a => (b.wr .vta Reg.PWR_TRAY_AUTO (if a = 3 then 1 else 0)).okay .vta m p := by
  rw [opBudgetShift, Prog.run_get]
  generalize arg p 0 1 = a
  match a with
  | 0 => rfl
  | 1 => rfl
  | 2 => rfl
  | _ + 3 => rfl

/-- START_AT of a job that runs already (R312). -/
theorem startAt_running (hl : b.jobLive u = true) (hr : b.rd u (jobState u) = jobRunning) :
    (opStartAt.run u m p).run b = b.okay u m p 1 := by
  rw [opStartAt, Prog.run_get]
  dsimp only
  rw [if_pos hl, if_pos hr]
  rfl

/-- START_AT of a job that is ARMED waits with it for its instant (R312, R314). -/
theorem startAt_armed (hl : b.jobLive u = true) (hr : b.rd u (jobState u) ≠ jobRunning) : (opStartAt.run u m p).run b =
    b.modDev u fun d => { d with sched := d.sched ++ [{ t := arg p 0 8, kind := .job true, cmd := some (m, p.tag) }] } := by
  rw [opStartAt, Prog.run_get]
  dsimp only
  rw [if_pos hl, if_neg hr]
  rfl

/-- START_AT of a new job at an HTU arms it (R312 to R314). -/
theorem startAt_htu_arms (hl : b.jobLive .htu = false) : (opStartAt.run .htu m p).run b =
    let c := ((b.wr .htu (jobId .htu) (arg p 8 4)).wr .htu (jobState .htu) jobArmed).wr .htu (jobT .htu) (arg p 0 8)
    ({ c with hx := { c.hx with relBlocked := false, jobPart := p.part } } : State).modDev .htu fun d =>
      { d with sched := d.sched ++ [{ t := arg p 0 8, kind := .job false, cmd := some (m, p.tag) }] } := by
  rw [opStartAt, Prog.run_get]
  dsimp only
  rw [if_neg (by simp [hl])]
  rfl

end

-- a job that is armed at a tray

/-- The state in which a START_AT has armed a job at a tray, before it goes to the units below (R313, R314). -/
def State.jobArmedAt (s : State) (m : Nat) (p : Packet) : State :=
  (Prog.seq [
    .wr .vta Reg.VTA_JOB_JOB_ID (arg p 8 4), .wr .vta Reg.VTA_JOB_STATE jobArmed, .wr .vta Reg.VTA_JOB_T_START (arg p 0 8),
    .wr .vta Reg.VTA_JOB_ROOT (p.roleN != rolePeer).toNat,
    .vta fun x => { x with
      jobMask := if arg p 12 1 = 1 then BitVec.ofNat 64 (arg p 16 8) else 0, jobPart := p.part, jobReply := [], jobCmd := some (m, p.tag) },
    .schedule .vta { t := arg p 0 8, kind := .job false, cmd := none }]).run s

/-- A change of the VTA that leaves the registers of its own job, its scheduled instants, and the partition and the command of its job. -/
def Prog.armedLeaf : Prog → Prop
  | .wr u f _ => u = .vta ∧ 0xC1000 ≤ f.off
  | .dev u f => u = .vta ∧ ∀ d, (f d).sched = d.sched
  | .vta f => ∀ x, (f x).jobPart = x.jobPart ∧ (f x).jobCmd = x.jobCmd
  | _ => False

@[simp] theorem armedLeaf_wr (u : UnitId) (f : Fld) (v : Nat) : Prog.armedLeaf (.wr u f v) ↔ u = .vta ∧ 0xC1000 ≤ f.off := Iff.rfl
@[simp] theorem armedLeaf_dev (u : UnitId) (f : Dev → Dev) : Prog.armedLeaf (.dev u f) ↔ u = .vta ∧ ∀ d, (f d).sched = d.sched := Iff.rfl
@[simp] theorem armedLeaf_vta (f : VtaX → VtaX) :
    Prog.armedLeaf (.vta f) ↔ ∀ x, (f x).jobPart = x.jobPart ∧ (f x).jobCmd = x.jobCmd := Iff.rfl

section
variable {q : Prog} (h : q.changes Prog.armedLeaf)
include h

/-- Such a program writes none of the registers of the VTA's own job. -/
theorem Prog.changes.jobRd {g : Fld} (hg : g.off < 0xC1000) : q.fixes fun s => s.rd .vta g :=
  (h.mono (Q := Prog.sparing .vta g) fun r hr => by
    cases r with
    | wr u f v => exact fun _ => .inl (Nat.ne_of_lt (Nat.lt_of_lt_of_le hg hr.2))
    | dev => trivial
    | vta => trivial
    | _ => exact absurd hr id).rd

/-- It leaves the VTA's scheduled instants, and the partition and the command of its job. -/
theorem Prog.changes.jobKept : q.fixes fun s => (s.v.sched, s.vx.jobPart, s.vx.jobCmd) := h.fixes fun r hr s => by
  cases r with
  | wr u => cases hr.1; rfl
  | dev u f =>
    obtain ⟨rfl, hd⟩ := hr
    exact congrArg (·, s.vx.jobPart, s.vx.jobCmd) (hd s.v)
  | vta f => exact Prod.ext rfl (Prod.ext (hr s.vx).1 (hr s.vx).2)
  | _ => exact absurd hr id

/-- It changes the VTA alone. -/
theorem Prog.changes.vtaAlone : q.fixes State.besideVta := (h.mono (Q := Prog.vtaLeaf) fun r hr => by
  cases r with
  | wr => exact hr.1
  | dev => exact hr.1
  | vta => trivial
  | _ => exact absurd hr id).besideVta

end

@[simp] theorem forward_armed (c op : Nat) (p : Packet) (cmd : Option (Nat × BitVec 16)) :
    (Prog.forward .vta c op p cmd).changes Prog.armedLeaf := by simp [Prog.forward, Prog.sendPkt]

@[simp] theorem ether_armed (dst tc n : Nat) (o : Out) : (Prog.ether dst tc n o).changes Prog.armedLeaf := by simp [Prog.ether, Prog.send]

@[simp] theorem forwardBelow_armed (op : Nat) (p : Packet) (scopeAt : Nat) (mask : Level → Word) (below : List Byte → List Byte) :
    (Prog.forwardBelow op p scopeAt mask below).changes Prog.armedLeaf := by simp [Prog.forwardBelow]

section
variable (s : State) (m : Nat) (p : Packet)

/-- An armed job shows at its dies, and goes to those of them that have no connection and, over its whole mask, to the units below (R313, R314). -/
def Prog.startBelow (s : State) (p : Packet) : Prog :=
  let mask := if arg p 12 1 = 1 then BitVec.ofNat 64 (arg p 16 8) else 0
  .seq [
    .each ((List.range 64).filter (s.digestMask mask .tray).getLsbD) fun k => .wr .vta (Reg.VTA_DIE_JOB_ID k) (arg p 8 4),
    .each ((List.range 64).filter fun k => (s.digestMask mask .tray).getLsbD k && !s.portsBelow.contains k) fun k =>
      .forward .vta k 0x53 { p with params := p.params.take 12 ++ zeros 12, role := 6 } none,
    .cond (arg p 12 1 == 1) (.forwardBelow 0x53 p 12 (s.digestMask mask) fun b => b.take 16 ++ zeros 8)]

theorem startBelow_armed : (Prog.startBelow s p).changes Prog.armedLeaf := by
  simp [Prog.startBelow, Reg.VTA_DIE_JOB_ID]

/-- START_AT of a new job at a tray arms it before it goes below (R312 to R314). -/
theorem startAt_vta_arms (hl : s.jobLive .vta = false) :
    (opStartAt.run .vta m p).run s = (Prog.startBelow s p).run (s.jobArmedAt m p) := by
  rw [opStartAt, Prog.run_get]
  dsimp only
  rw [if_neg (by simp [hl])]
  rfl

/-- The registers of the job as it is armed (R313, R314). -/
theorem jobArmedAt_rd : (s.jobArmedAt m p).rd .vta Reg.VTA_JOB_JOB_ID = arg p 8 4 ∧
    (s.jobArmedAt m p).rd .vta Reg.VTA_JOB_STATE = jobArmed ∧ (s.jobArmedAt m p).rd .vta Reg.VTA_JOB_T_START = arg p 0 8 ∧
    (s.jobArmedAt m p).rd .vta Reg.VTA_JOB_ROOT = if p.roleN = 6 then 0 else 1 := by
  have hid : arg p 8 4 < 2 ^ 32 := fieldAt_lt p.params 8 4
  have ht : arg p 0 8 < 2 ^ 64 := fieldAt_lt p.params 0 8
  have hr : (p.roleN != rolePeer).toNat % 2 ^ 1 = if p.roleN = 6 then 0 else 1 := by
    by_cases h : p.roleN = 6
    · rw [if_pos h, h]
      rfl
    · rw [if_neg h, show (p.roleN != rolePeer) = true from bne_iff_ne.2 h]
      rfl
  have hshow (g : Fld) : (s.jobArmedAt m p).rd .vta g = ((((s.wr .vta Reg.VTA_JOB_JOB_ID (arg p 8 4)).wr .vta Reg.VTA_JOB_STATE jobArmed).wr
      .vta Reg.VTA_JOB_T_START (arg p 0 8)).wr .vta Reg.VTA_JOB_ROOT (p.roleN != rolePeer).toNat).rd .vta g := rfl
  refine ⟨(hshow _).trans ?_, (hshow _).trans ?_, (hshow _).trans ?_, (hshow _).trans ?_⟩
  · rw [State.rd_wr_other _ _ _ _ _ (by decide), State.rd_wr_other _ _ _ _ _ (by decide), State.rd_wr_other _ _ _ _ _ (by decide),
      State.rd_wr_same _ _ _ _ (by decide)]
    exact Nat.mod_eq_of_lt hid
  · rw [State.rd_wr_other _ _ _ _ _ (by decide), State.rd_wr_other _ _ _ _ _ (by decide), State.rd_wr_same _ _ _ _ (by decide)]
    rfl
  · rw [State.rd_wr_other _ _ _ _ _ (by decide), State.rd_wr_same _ _ _ _ (by decide)]
    exact Nat.mod_eq_of_lt ht
  · rw [State.rd_wr_same _ _ _ _ (by decide)]
    exact hr

/-- The entry that starts the job, its partition and its command, and what is not the VTA's (R314). -/
theorem jobArmedAt_kept : ({ t := arg p 0 8, kind := .job false, cmd := none } : Sched) ∈ (s.jobArmedAt m p).v.sched ∧
    (s.jobArmedAt m p).vx.jobPart = p.part ∧ (s.jobArmedAt m p).vx.jobCmd = some (m, p.tag) ∧
    (s.jobArmedAt m p).besideVta = s.besideVta := by
  have hsched : (s.jobArmedAt m p).v.sched = s.v.sched ++ [{ t := arg p 0 8, kind := .job false, cmd := none }] := by
    simp [State.jobArmedAt, Prog.schedule]
  refine ⟨?_, ?_, ?_, ?_⟩
  · rw [hsched]
    exact List.mem_append_right _ (List.mem_singleton_self _)
  · simp [State.jobArmedAt, Prog.schedule]
  · simp [State.jobArmedAt, Prog.schedule]
  · refine Prog.changes.besideVta ?_ s
    simp [Prog.schedule]

end

/-- Settles O20: each command has its effect from the state in which it begins, and what an armed job sends below leaves the job as it was
armed. -/
theorem powerCommandsComplete : Obligations.PowerCommandsComplete := by
  refine ⟨fun s u m p => ⟨answers_of_run rfl fun b => powerCap_run m p b, answers_of_run rfl fun _ => rfl,
    answers_of_run rfl fun b => budgetShift_vta_run m p b, answers_of_run rfl fun _ => rfl, answers_of_run rfl fun b => ?_⟩,
    fun s m p hl => ?_⟩
  · split
    · split
      · exact startAt_running u m p b ‹_› ‹_›
      · exact startAt_armed u m p b ‹_› ‹_›
    · cases u with
      | htu => exact startAt_htu_arms m p b (Bool.eq_false_iff.2 ‹_›)
      | vta => rfl
  · have hb := startBelow_armed s p
    have hrd {g : Fld} (hg : g.off < 0xC1000) := hb.jobRd hg (s.jobArmedAt m p)
    have hkept := hb.jobKept (s.jobArmedAt m p)
    simp only [Prod.mk.injEq] at hkept
    obtain ⟨hsched, hpart, hcmd⟩ := hkept
    obtain ⟨hid, hstate, ht, hroot⟩ := jobArmedAt_rd s m p
    obtain ⟨hentry, hpart', hcmd', hrest⟩ := jobArmedAt_kept s m p
    have hvta := (hb.vtaAlone (s.jobArmedAt m p)).trans hrest
    simp only [State.besideVta, Prod.mk.injEq] at hvta
    refine ⟨_, startAt_vta_arms s m p hl, (hrd (by decide)).trans hid, (hrd (by decide)).trans hstate, (hrd (by decide)).trans ht,
      (hrd (by decide)).trans hroot, ⟨_, hsched ▸ hentry, rfl, rfl⟩, hpart.trans hpart', hcmd.trans hcmd', hvta⟩

end Sys2Proof.Machine

end

section

/-! # Fleet commands: O24 -/

namespace Sys2Proof.Machine

section
variable (m : Nat) (p : Packet) (b : State) (u : UnitId)

/-- A command that acts under a condition, and answers whether it did. -/
theorem cond_reply_run (c : Prop) [Decidable c] (q : Prog) :
    (Prog.both (.cond c q) (.reply u m p.tag { status := stOk, result := if c then 1 else 0 })).run b =
      if c then (q.run b).okay u m p 1 else b.okay u m p := by
  by_cases h : c
  · simp only [h, decide_true, if_true]
    rfl
  · simp only [h, decide_false, if_false]
    rfl

/-- QUARANTINE at an HTU sets QUARANTINED and asks for its drain, or releases it (R305). -/
theorem quarantine_htu_run : (opQuarantine.run .htu m p).run b =
    if arg p 4 1 = 1 then ((Prog.drain 4).run (b.wr .htu Reg.HTU_JOB_QUARANTINED 1)).okay .htu m p 1
    else (b.wr .htu Reg.HTU_JOB_QUARANTINED 0).okay .htu m p (b.on .htu Reg.HTU_JOB_QUARANTINED).toNat := by
  rw [opQuarantine]
  dsimp only
  rw [Prog.quarHtu, Prog.run_get]
  dsimp only
  split
  · rfl
  · rfl

/-- A release from QUARANTINE at a VTA, of a die that is in it or DEAD (R305, R306). -/
theorem quarantine_release (ha : arg p 4 1 = 2) : (opQuarantine.run .vta m p).run b =
    let k := arg p 0 4 % 64
    if 3 ≤ b.rd .vta (Reg.VTA_DIE_VERDICT k) then
      ((Prog.setVerdict k vHealthy causeCommand 0).run (b.wr .vta (Reg.VTA_DIE_HS k) 0)).okay .vta m p 1
    else b.okay .vta m p := by
  rw [opQuarantine, Prog.run_get]
  dsimp only
  rw [if_pos ha]
  exact cond_reply_run m p b .vta _ _

/-- An entry to QUARANTINE at a VTA: within the budget, beyond it by the roles that may, else only as far as PROBATION (R305 to R307). -/
theorem quarantine_entry (ha : arg p 4 1 ≠ 2) : (opQuarantine.run .vta m p).run b =
    let k := arg p 0 4 % 64
    if b.rd .vta (Reg.VTA_DIE_VERDICT k) = vQuarantine then b.okay .vta m p
    else if b.budgetLeft = true then ((Prog.quarantine k causeCommand 0).run b).okay .vta m p 1
    else if p.roleN = roleFaultManager ∨ p.roleN = roleOperator then ((Prog.quarantine k causeCommand flExceeded).run b).okay .vta m p 1
    else ((Prog.spent k causeCommand).run b).okay .vta m p := by
  rw [opQuarantine, Prog.run_get]
  dsimp only
  rw [if_neg ha]
  split
  · rfl
  · by_cases hb : b.budgetLeft = true
    · simp only [hb, true_or, if_true]
      rfl
    · by_cases hr : p.roleN = roleFaultManager ∨ p.roleN = roleOperator
      · simp only [hb, hr, or_true, if_true]
        rfl
      · simp only [hb, hr, if_false]
        rfl

/-- PROBATION at a VTA takes a die in, from a milder verdict or from DEAD, or lets one out of it (R304, R306). -/
theorem probation_vta_run : (opProbation.run .vta m p).run b =
    let k := arg p 0 4 % 64
    let v := b.rd .vta (Reg.VTA_DIE_VERDICT k)
    if arg p 4 1 = 1 then
      if v < vProbation ∨ v = vDead then ((Prog.probation k causeCommand 0).run b).okay .vta m p 1 else b.okay .vta m p
    else if v = vProbation then ((Prog.healthy k causeCommand).run b).okay .vta m p 1 else b.okay .vta m p := by
  refine (cond_reply_run m p b .vta _ _).trans ?_
  split
  · rfl
  · rfl

/-- PORT_HOTPLUG removes a port, and adds one that is not UP, which then trains (R399). -/
theorem portHotplug_run : (opPortHotplug.run u m p).run b =
    let k := targetInst p.target
    if arg p 0 1 = 1 then ((Prog.removePort u k).run b).okay u m p
    else if b.rd u (Reg.FUR_PORT_STATE k) = portUp then b.okay u m p
    else ((((Prog.setFn u (fidPort k) fun f => { f with st := .running }).run b).wr u (Reg.FUR_PORT_STATE k) portTraining).modDev u
      fun d => { d with ports := Sparse.mod {} d.ports k fun q => { q with refused := false, byed := false, add := some (m, p.tag) } }) := by
  rw [opPortHotplug, Prog.run_get]
  dsimp only
  split
  · rfl
  · split
    · rfl
    · rfl

/-- ABORT_JOB ends the unit's own job, after it has gone below over the whole mask where it asks for that (R316). -/
theorem abortJob_run : (opAbortJob.run u m p).run b =
    if arg p 0 4 ≠ 0 ∧ arg p 0 4 = b.rd u (jobId u) ∧ b.jobLive u = true then
      ((Prog.endJob u (arg p 4 1) (arg p 8 4)).run ((Prog.cond (u == .vta && arg p 5 1 == 1)
        (.forwardBelow 0x94 p 5 (b.digestMask b.vx.jobMask) id)).run b)).okay u m p 1
    else b.okay u m p := by
  exact cond_reply_run m p b u _ _

end

/-- Settles O24: each command has its effect from the state in which it begins. -/
theorem fleetCommandsComplete : Obligations.FleetCommandsComplete := by
  refine fun _ u m p => ⟨answers_of_run rfl fun b => quarantine_htu_run m p b, answers_of_run rfl fun b => ?_, answers_of_run rfl fun _ => rfl,
    answers_of_run rfl fun b => probation_vta_run m p b, answers_of_run rfl fun _ => rfl, answers_of_run rfl fun _ => rfl,
    answers_of_run rfl fun b => portHotplug_run m p b u, answers_of_run rfl fun b => abortJob_run m p b u⟩
  dsimp only
  by_cases ha : arg p 4 1 = 2
  · rw [if_pos ha]
    exact quarantine_release m p b ha
  · rw [if_neg ha]
    exact quarantine_entry m p b ha

end Sys2Proof.Machine

end
